-- ==== Sys2Proof/Word.lean ====
section
/-! DEFINITION. The words of the model: serials, cycle numbers, bytes, and the saturating and clamping sums the manual uses (00_scope.md, "Terms"). -/

namespace Sys2Proof

/-- The 8-byte identity of a home: a 2-byte maker code and a 6-byte number (00_scope.md). -/
abbrev Serial := BitVec 64

/-- The 32-bit cycle number (R1). Every rule counts it modulo 2^32. -/
abbrev CycleNo := BitVec 32

/-- One data byte of a frame (R173). -/
abbrev Byte := BitVec 8

/-- One word of the configuration memory (R189). -/
abbrev ImageWord := BitVec 16

/-- A station number, as the four straps give it (R186). -/
abbrev Station := BitVec 4

/-- A saturating count: it stops at its maximum instead of wrapping (00_scope.md, "Saturate"). -/
def satAdd (limit a b : Nat) : Nat := min limit (a + b)

/-- To clamp is to replace by the nearer bound (00_scope.md, "Clamp"). -/
def clampInt (lo hi x : Int) : Int := max lo (min hi x)

/-- The number of a byte list, most significant byte first (R180). -/
def beNat (bytes : List Byte) : Nat := bytes.foldl (fun n b => n * 256 + b.toNat) 0

/-- `k` bytes of a number, most significant byte first (R180). -/
def beBytes : Nat → Nat → List Byte
  | 0, _ => []
  | k + 1, n => beBytes k (n / 256) ++ [BitVec.ofNat 8 n]

end Sys2Proof
end

