-- ==== Sys2Proof/Syntax.lean ====
section
/-! DEFINITION. The commands of the block: one constructor of `Instr` for each row of spec/opcode_table.json, with the operands its rule names. -/

namespace Sys2Proof

/-- Who sent a carried notice. `own` is the frame this terminator itself had in transmission (R174); two stations may be strapped alike (R172), so the station number alone does not say it. -/
inductive Source where
  | own
  | other (station : Station)
  deriving DecidableEq, Repr

/-- The header fields of a request frame that the Request Handler reads (R173, R175, R180). `voidedByOther` says that another station drove the void flag of this frame: it is then taken by no terminator (R180). -/
structure RequestHeader where
  requester : Station
  dest : Byte
  tag : Byte
  voidedByOther : Bool
  deriving DecidableEq, Repr

/-- The account modes (R145). -/
inductive Mode where
  | unmetered
  | oneShot
  | refill
  deriving DecidableEq, Repr

/-- The reasons of a REFUSE (07_moving_homes_between_channels.md, the table of notices). -/
inductive RefuseReason where
  | rosterFull
  | overbook
  | duplicate
  | busy
  deriving DecidableEq, Repr

/-- A hunt id: the owner's station number with an 8-bit count (R103). -/
structure HuntId where
  station : Station
  count : BitVec 8
  deriving DecidableEq, Repr

/-- The selector of a HUNT_STEP: no channel, or a channel with a level and a part (R113). -/
inductive Selector where
  | noChannel
  | part (channel level index : Nat)
  deriving DecidableEq, Repr

/-- A home as the hunt names it: its handle and serial at freezing (R104). -/
structure HomeRef where
  handle : Nat
  serial : Serial
  deriving DecidableEq, Repr

/-- The outcome a HUNT_CLOSE carries (06_the_rogue_hunt.md, the table of notices). -/
inductive HuntOutcome where
  | found (channel : Nat) (home : HomeRef)
  | notFound
  | inconclusive
  | abandoned
  deriving DecidableEq, Repr

/-- The four window kinds (R3). -/
inductive WindowKind where
  | data
  | range
  | discover
  | quiet
  deriving DecidableEq, Repr

/-- How an observation names its window (R13). -/
structure WindowRef where
  map : CycleNo
  kind : WindowKind
  handle : Nat
  start : Nat
  deriving DecidableEq, Repr

/-- A packet of an upstream burst: its service label, its length in bytes, and whether its own check passed (R18). -/
structure UpPacket where
  label : Nat
  bytes : Nat
  intact : Bool
  deriving DecidableEq, Repr

/-- The Burst Receiver's observation of a DATA or RANGE window (R14). -/
inductive BurstObs where
  | clean (offset : Int) (header : Nat) (ack : Bool) (report : Nat) (packets : List UpPacket)
  | garbled
  | dark
  deriving DecidableEq, Repr

/-- One discovery reply received intact (R15). -/
structure Reply where
  arrival : Int
  serial : Serial
  delayIndex : Nat
  deriving DecidableEq, Repr

/-- The observation of a DISCOVER window (R15). -/
inductive DiscoverObs where
  | clean (replies : List Reply)
  | garbled
  | dark
  deriving DecidableEq, Repr

/-- A whole frame as received, class through check (R173). -/
structure RawFrame where
  cls : BitVec 3
  sender : Station
  kind : BitVec 4
  dest : Byte
  tag : Byte
  length : BitVec 6
  data : List Byte
  check : BitVec 16
  deriving DecidableEq, Repr

/-- The eight alarm kinds, in the order of the image's alarm modes (R189). -/
inductive AlarmKind where
  | strayLight
  | homeDrift
  | homeLost
  | creditLow
  | creditExhausted
  | rogueFound
  | huntEnded
  | duplicateSerial
  deriving DecidableEq, Repr

/-- An alarm source: the kind alone (handle 0) for STRAY_LIGHT and HUNT_ENDED, the kind with a handle for the others (R183). -/
structure AlarmSource where
  kind : AlarmKind
  handle : Nat
  deriving DecidableEq, Repr

/-- The commands: one constructor for each row of spec/opcode_table.json. -/
inductive Instr where
  /-- POWER_ON_RESET (R187): the reset pin is released with these straps. -/
  | powerOnReset (straps : Station)
  /-- RESET_ASSERTED (R186): the reset pin is held low. -/
  | resetAsserted
  /-- IMAGE_LOAD_COMPLETE (R188): the read is complete; the words of the configuration memory. -/
  | imageLoadComplete (words : List ImageWord)
  /-- NO_IMAGE (R188): the read is not complete by the start of cycle 16. -/
  | noImage
  /-- CYCLE_START (R1). -/
  | cycleStart
  /-- MESSAGE_FAILURE (R33) of the message in the mailbox of the entry at the handle. -/
  | messageFailure (handle : Nat)
  /-- RELEASE_DROPPED (R33) at the handle. -/
  | releaseDropped (handle : Nat)
  /-- DATA_RANGE_OBSERVATION (R17). -/
  | dataRangeObservation (window : WindowRef) (obs : BurstObs)
  /-- DISCOVER_OBSERVATION (R51). -/
  | discoverObservation (window : WindowRef) (obs : DiscoverObs)
  /-- QUIET_OBSERVATION (R97): LIGHT when `light`, DARK otherwise. -/
  | quietObservation (window : WindowRef) (light : Bool)
  /-- DOWNSTREAM_PACKET (R153). -/
  | downstreamPacket (handle label bytes : Nat)
  /-- A carried CLAIM(serial, channel) (R55). -/
  | claim (src : Source) (serial : Serial) (channel : Nat)
  /-- A carried HELD(serial, holder channel) (R57). -/
  | held (src : Source) (serial : Serial) (channel : Nat)
  /-- A carried OFFER (R128). -/
  | offer (src : Source) (serial : Serial) (fromChannel toChannel assured peak weight eqDelay : Nat)
  /-- A carried ACCEPT (R127). -/
  | accept (src : Source) (serial : Serial) (channel newHandle : Nat)
  /-- A carried REFUSE (R127). -/
  | refuse (src : Source) (serial : Serial) (channel : Nat) (reason : RefuseReason)
  /-- A carried ACCOUNT (R133). -/
  | account (src : Source) (serial : Serial) (fromChannel : Nat) (mode : Mode) (credit base lowWater residueUp residueDown period : Nat)
  /-- A carried TAKEN (R134, R135). -/
  | taken (src : Source) (serial : Serial) (channel : Nat)
  /-- A carried RECLAIM (R131, R135, R136). -/
  | reclaim (src : Source) (serial : Serial) (fromChannel : Nat)
  /-- A carried HUNT_OPEN (R108). -/
  | huntOpen (src : Source) (id : HuntId)
  /-- A carried HUNT_JOIN (R112). -/
  | huntJoin (src : Source) (id : HuntId) (channel count : Nat)
  /-- A carried HUNT_STEP (R114). -/
  | huntStep (src : Source) (id : HuntId) (step : Nat) (selector : Selector)
  /-- A carried HUNT_READY (R116), with the home it names, if any. -/
  | huntReady (src : Source) (id : HuntId) (channel step : Nat) (named : Option HomeRef)
  /-- A carried HUNT_CLOSE (R119). -/
  | huntClose (src : Source) (id : HuntId) (outcome : HuntOutcome)
  /-- A carried PRESENT (R191). -/
  | present (src : Source) (channel : Nat) (incumbent : Bool)
  /-- CARRIED_IGNORED_FRAME (R173): its class, sender and kind. -/
  | carriedIgnoredFrame (cls : BitVec 3) (sender : Station) (kind : BitVec 4)
  /-- FRAME_CHECK_FAILED (R174): the frame as received. -/
  | frameCheckFailed (frame : RawFrame)
  /-- LINE_IDLE_CONTEND (R176): the lowest identifier the other stations contend with, if any contends. -/
  | lineIdleContend (rival : Option (BitVec 11))
  /-- OWN_FRAME_VOIDED (R178): whether this terminator itself drove the void flag. -/
  | ownFrameVoided (droveVoid : Bool)
  /-- DETACH_TIMER_EXPIRY (R178). -/
  | detachTimerExpiry
  /-- RESULT_CARRIED (R179); the straps, read if the carriage resets the part (R186, R192). -/
  | resultCarried (straps : Station)
  /-- REPORT_CARRIED (R183). -/
  | reportCarried
  /-- USAGE_FIRST_PART_CARRIED (R176). -/
  | usageFirstPartCarried
  /-- USAGE_RECORD_CARRIED (R169). -/
  | usageRecordCarried
  /-- DRAIN_COMPLETE (R193); the straps are read again. -/
  | drainComplete (straps : Station)
  /-- DRAIN_TIMER_EXPIRY (R193); the straps are read again. -/
  | drainTimerExpiry (straps : Station)
  /-- CLAIM_HOLD_EXPIRY (R58) of the claim whose entry is at the handle. -/
  | claimHoldExpiry (handle : Nat)
  /-- LOST_TIMER_EXPIRY (R41) of the entry at the handle. -/
  | lostTimerExpiry (handle : Nat)
  /-- HANDOVER_TIMER_EXPIRY (R127, R131, R135) of the entry at the handle. -/
  | handoverTimerExpiry (handle : Nat)
  /-- INBOUND_TIMER_EXPIRY (R137) of the entry at the handle. -/
  | inboundTimerExpiry (handle : Nat)
  /-- GUARD_EXPIRY (R106). -/
  | guardExpiry
  /-- JOIN_TIMER_EXPIRY (R112). -/
  | joinTimerExpiry
  /-- READY_TIMER_EXPIRY (R116). -/
  | readyTimerExpiry
  /-- LISTENING_TIMER_EXPIRY (R191). -/
  | listeningTimerExpiry
  /-- REPEAT_TIMER_EXPIRY (R182) of the condition's source. -/
  | repeatTimerExpiry (source : AlarmSource)
  /-- SET_PROFILE (R85): header and data bytes (R180). -/
  | setProfile (hd : RequestHeader) (data : List Byte)
  /-- SET_ACCOUNT (R158). -/
  | setAccount (hd : RequestHeader) (data : List Byte)
  /-- REFILL (R157). -/
  | refill (hd : RequestHeader) (data : List Byte)
  /-- MOVE (R126). -/
  | move (hd : RequestHeader) (data : List Byte)
  /-- REMOVE (R42). -/
  | remove (hd : RequestHeader) (data : List Byte)
  /-- HOLD (R29): the request kind HOLD and CLEAR_HOLD share, with the byte 1 (set) last. -/
  | hold (hd : RequestHeader) (data : List Byte)
  /-- CLEAR_HOLD (R29): the same request kind with the byte 0 (clear) last. -/
  | clearHold (hd : RequestHeader) (data : List Byte)
  /-- QUERY_HOME (R181). -/
  | queryHome (hd : RequestHeader) (data : List Byte)
  /-- LIST_HOMES (R181). -/
  | listHomes (hd : RequestHeader) (data : List Byte)
  /-- SET_TARIFF (R149), with the level of the tariff guard pin as it is taken. -/
  | setTariff (hd : RequestHeader) (data : List Byte) (guardPin : Bool)
  /-- FIX_TARIFF (R150), with the level of the tariff guard pin as it is taken. -/
  | fixTariff (hd : RequestHeader) (data : List Byte) (guardPin : Bool)
  /-- SET_DISCOVERY (R47). -/
  | setDiscovery (hd : RequestHeader) (data : List Byte)
  /-- START_HUNT (R109). -/
  | startHunt (hd : RequestHeader) (data : List Byte)
  /-- RESTART (R180). -/
  | restart (hd : RequestHeader) (data : List Byte)
  /-- BAND (R151). -/
  | band (hd : RequestHeader) (data : List Byte)
  /-- CLOSE_PERIOD (R161). -/
  | closePeriod (hd : RequestHeader) (data : List Byte)
  /-- SET_FREE_LABELS (R148). -/
  | setFreeLabels (hd : RequestHeader) (data : List Byte)
  deriving DecidableEq, Repr

end Sys2Proof
end

