-- ==== Sys2Proof/Decode.lean ====
section
/-! DEFINITION. The block has no instruction decoder. spec/opcode_table.json gives its rows no bits, so no word spells a command. -/

namespace Sys2Proof

/-- The command a word of the table's bits spells. The table gives no row any bits, so no word spells one. -/
def decodeTableWord (_nbits _w : Nat) : Option Instr := none

end Sys2Proof
end

