-- ==== Sys2Proof/Config.lean ====
section
/-! DEFINITION. The fixed values of the part (00_scope.md, "Units and fixed values") and the free values: constants with no body, one for each value the manual leaves open. -/

namespace Sys2Proof.Config

/-- T, the target total delay, in steps (R2). -/
def targetDelay : Nat := 160000

/-- Words in one upstream cycle (R1). -/
def cycleWords : Nat := 10000

/-- G, the guard after every window, in words (R3). -/
def guardWords : Nat := 4

/-- O, the burst overhead, in words (R3). -/
def overheadWords : Nat := 12

/-- The minimum DATA payload, in words (R3). -/
def minPayload : Nat := 4

/-- A DATA window costs its payload and this much (R3). -/
def dataCost : Nat := 16

/-- The length of a RANGE window (R3). -/
def rangeWords : Nat := 64

/-- Maps that carry a message other than RELEASE before it fails (R33). -/
def messageMaps : Nat := 16

/-- Maps that carry a RELEASE (R33). -/
def releaseMaps : Nat := 4

/-- The missed count at which an ACTIVE entry enters LOST (R37). -/
def missedLimit : Nat := 8

/-- RANGE windows of a confirmation (R60). -/
def confirmAttempts : Nat := 3

/-- RANGE windows of a DRIFT re-range (R96). -/
def rerangeAttempts : Nat := 8

/-- The re-contact count at which a re-contact is due (R39). -/
def recontactMaps : Nat := 16

/-- The hunt guard timer, in cycles (R103). -/
def guardCycles : Nat := 400

/-- The owner's join timer (R103). -/
def joinCycles : Nat := 20

/-- The owner's READY timer (R103). -/
def readyCycles : Nat := 40

/-- Quiet windows of one measurement (R117). -/
def measureWindows : Nat := 4

/-- Voids in a row at which the port enters DETACHED (R178). -/
def voidLimit : Nat := 32

/-- The detach timer (R178). -/
def detachCycles : Nat := 4000

/-- The repeat timer of a LEVEL alarm condition (R182). -/
def repeatCycles : Nat := 4000

/-- The drain timer (R192). -/
def drainCycles : Nat := 2000

/-- The listening timer (R191). -/
def listenCycles : Nat := 40

/-- The cycle by whose start the image must have been read (R188). -/
def loadLimit : Nat := 16

/-- Places of the result queue (R179). -/
def resultPlaces : Nat := 4

/-- Places of the event queue (R184). -/
def eventPlaces : Nat := 16

/-- Bytes in a rating block (R154). -/
def blockBytes : Nat := 65536

/-- The greatest credit, base and low-water (R143). -/
def millisMax : Nat := 4294967295

/-- The saturation value of the period counters (R143). -/
def counterMax : Nat := 18446744073709551615

/-- FREE VALUE (log entries 6, 7 and 8). Where the manual takes two things of one moment "in either order", the model reads the choice here, at a counter of its own. -/
opaque choice : Nat → Nat

/-- FREE VALUE (log entry 9). The 4-bit code of the kind at this place of the list R175 gives for the class; the manual gives only the usage kinds a number. -/
opaque kindCode : Nat → Nat → BitVec 4

/-- How a flag byte of a request is read. -/
inductive FlagReading where
  | set
  | clear
  | refuse
  deriving DecidableEq, Repr, Inhabited

/-- FREE VALUE (log entry 10). What a flag byte that is neither 1 nor 0 means (R180 gives only those two). -/
opaque unlistedFlag : Byte → FlagReading

/-- FREE VALUE (log entry 11). The bound a free-label place takes from a 16-bit value above 4,095 (R148 gives lo and hi 0 to 4,095). -/
opaque oddLabelBound : Nat → Nat

/-- FREE VALUE (log entry 12). Whether RANGE answers before UNKNOWN_HOME where both apply and the rule states no order: for QUERY_HOME (true) and CLEAR_HOLD or HOLD (false) (R29, R181). -/
opaque rangeFirst : Bool → Bool

/-- FREE VALUE (log entry 13). credit_open of an account installed by an ACCOUNT notice, until its entry enters ACTIVE (R133, R134). -/
opaque installedCreditOpen : Nat → Nat

/-- FREE VALUE (log entry 13). adjusted of an account installed by an ACCOUNT notice, until its entry enters ACTIVE (R133, R134). -/
opaque installedAdjusted : Nat → Int

/-- FREE VALUE (log entry 14). The handle and serial a FOUND close carries when the verify step's READY carried none (R118). -/
opaque unnamedHome : Nat → Nat × Serial

end Sys2Proof.Config
end

