-- ==== Sys2Proof/Machine/State.lean ====
section
/-! DEFINITION. Everything the manual gives the terminator, as plain data, one structure for each block that owns state (00_scope.md, "Blocks and how they work together"), and the state right after reset. -/

namespace Sys2Proof.Machine

/-- A timer: stopped, or running with so many cycle starts to come (R1). The value 0 stands between the cycle start a timer expires at and the expiry itself (log entry 2). -/
abbrev Timer := Option Nat

/-! ### Cycle Builder (chapter 1) -/

/-- The kinds of control message with their arguments (R30). -/
inductive MsgKind where
  | adjust (eqDelay : Nat)
  | assign (serial : Serial) (handle eqDelay : Nat)
  | tune (channel newHandle : Nat)
  | release
  deriving DecidableEq, Repr

/-- A window of a map (R3), with the serial recorded for it and its outstanding flag (R10). -/
structure Window where
  kind : WindowKind
  handle : Nat
  start : Nat
  length : Nat
  serial : Option Serial
  outstanding : Bool
  deriving DecidableEq, Repr

/-- A control message as a map carries it: addressed by serial for ASSIGN, by handle otherwise (R9). -/
structure CarriedMsg where
  handle : Nat
  bySerial : Option Serial
  kind : MsgKind
  seqBit : Bool
  deriving DecidableEq, Repr

/-- A map (R6). -/
structure MapRecord where
  number : CycleNo
  windows : List Window
  dark : List Nat
  messages : List CarriedMsg
  preDelay : Option Nat
  deriving DecidableEq, Repr

/-- A window as a map gives it to the homes: kind, handle, start and length (R6); the recorded serial and the outstanding flag stay in the ring (R10). -/
structure SentWindow where
  kind : WindowKind
  handle : Nat
  start : Nat
  length : Nat
  deriving DecidableEq, Repr

/-- A map as it leaves the optical port: cycle number, window list, dark list, control messages, discovery pre-delay (R6). -/
structure SentMap where
  number : CycleNo
  windows : List SentWindow
  dark : List Nat
  messages : List CarriedMsg
  preDelay : Option Nat
  deriving DecidableEq, Repr

/-- What the Cycle Builder owns: the cycle number (R1), the map ring, oldest first (R10), and the map that governs the present cycle (R11). -/
structure CycleBuilder where
  cycle : CycleNo
  ring : List MapRecord
  reached : Option CycleNo
  deriving DecidableEq, Repr

/-! ### Home Roster (chapter 2) -/

/-- The entry states (R23). -/
inductive HomeState where
  | free
  | claiming
  | confirming
  | active
  | leaving
  | tuning
  | handed
  | arriving
  | taking
  | lost
  | closing
  deriving DecidableEq, Repr

/-- A profile: assured, peak, weight (R23). -/
structure Profile where
  assured : Nat
  peak : Nat
  weight : Nat
  deriving DecidableEq, Repr

/-- The set of holds of an entry (R27). -/
structure Holds where
  hunt : Bool
  rogue : Bool
  drift : Bool
  manager : Bool
  deriving DecidableEq, Repr

/-- The one message of a mailbox (R30). -/
structure Message where
  kind : MsgKind
  seqBit : Bool
  carried : Nat
  firstMap : Option CycleNo
  deriving DecidableEq, Repr

/-- The direction of a handover context (R124). -/
inductive Direction where
  | outbound
  | inbound
  deriving DecidableEq, Repr

/-- Why a RECLAIM was queued: HOME_MOVED carries it when the entry returns (R131). -/
inductive ReclaimCause where
  | tuneFailed
  | timeout
  deriving DecidableEq, Repr

/-- The handover context (R124). `reclaim` is QUEUED when it holds a cause. -/
structure Handover where
  direction : Direction
  peer : Nat
  timer : Timer
  newHandle : Option Nat
  reclaim : Option ReclaimCause
  burstInHand : Bool
  accountInHand : Bool
  deriving DecidableEq, Repr

/-- A home entry (R23). `reRangeIdle` is the model's own: the maps built since the re-range began, which the idle count takes when the DRIFT hold clears (R28, R95; log entry 42). -/
structure Entry where
  state : HomeState
  serial : Option Serial
  roundTrip : Option Nat
  eqDelay : Option Nat
  profile : Option Profile
  holds : Holds
  mailbox : Option Message
  seqBit : Bool
  reportQ : Nat
  idle : Nat
  missed : Nat
  losses : Nat
  misplaced : Nat
  duplicates : Nat
  rangeAttempts : Nat
  recontact : Nat
  reRangeIdle : Nat
  lostTimer : Timer
  handover : Option Handover
  deriving DecidableEq, Repr

/-- No hold. -/
def Holds.clear : Holds := { hunt := false, rogue := false, drift := false, manager := false }

/-- A FREE entry: every field at its cleared value (R23). -/
def Entry.free : Entry :=
  { state := .free, serial := none, roundTrip := none, eqDelay := none, profile := none, holds := Holds.clear,
    mailbox := none, seqBit := false, reportQ := 0, idle := 0, missed := 0, losses := 0, misplaced := 0,
    duplicates := 0, rangeAttempts := 0, recontact := 0, reRangeIdle := 0, lostTimer := none, handover := none }

/-! ### Enrolment Engine (chapter 3) -/

/-- The part a capture gains when it becomes a claim (R50). Its claim notice is CARRIED when `carried`, OFFERED while the port holds it, QUEUED otherwise. -/
structure ClaimPart where
  handle : Nat
  carried : Bool
  holdTimer : Timer
  deriving DecidableEq, Repr

/-- A capture (R50). -/
structure Capture where
  serial : Serial
  arrival : Int
  delayIndex : Nat
  claim : Option ClaimPart
  deriving DecidableEq, Repr

/-- What the Enrolment Engine owns: the discovery enable flag (R47) and the four places of the capture list (R50). -/
structure Enrolment where
  discoveryEnable : Bool
  captures : List (Option Capture)
  deriving DecidableEq, Repr

/-! ### Upstream Allocator (chapter 4) -/

/-- The rotating pointer (R76), the booked sum (R82) and the admission floor (R81). -/
structure Allocator where
  rho : Nat
  booked : Nat
  floor : Nat
  deriving DecidableEq, Repr

/-! ### Light Watch (chapter 5) -/

/-- The re-range phase (R87). -/
inductive Phase where
  | off
  | seeking
  | settling
  deriving DecidableEq, Repr

/-- The drift data of a handle (R87). `tripOffset` is the offset of the burst that made the misplaced count 3, which HOME_DRIFT carries (R93). -/
structure Drift where
  phase : Phase
  lastOffset : Option Int
  tripOffset : Option Int
  deriving DecidableEq, Repr

/-- Phase OFF and no last offset (R87). -/
def Drift.clear : Drift := { phase := .off, lastOffset := none, tripOffset := none }

/-- What the Light Watch owns (R87). An outcome of the history is `true` for LIGHT. -/
structure LightWatch where
  drift : Vector Drift 64
  history : List Bool
  condition : Bool
  deriving DecidableEq, Repr

/-! ### Hunt Unit (chapter 6) -/

/-- A position of the frozen candidate list with its dead mark (R104). -/
structure Position where
  home : HomeRef
  dead : Bool
  deriving DecidableEq, Repr

/-- The READY awaited: its step, the map whose reaching releases it, and the home it is to name for a part of size 1 (R114, R115). -/
structure Awaiting where
  step : Nat
  map : CycleNo
  named : Option HomeRef
  deriving DecidableEq, Repr

/-- The owner's phase (R103). -/
inductive OwnerPhase where
  | collecting
  | stepping
  | waiting
  | measuring
  | closing
  deriving DecidableEq, Repr

/-- A recorded participant (R103). -/
structure Participant where
  channel : Nat
  count : Nat
  ready : Bool
  deriving DecidableEq, Repr

/-- The owner's part of the hunt record (R103). `stepsCarried` is the number HUNT_ENDED carries (R119). -/
structure OwnerPart where
  phase : OwnerPhase
  participants : List Participant
  joinTimer : Timer
  readyTimer : Timer
  step : Nat
  selector : Selector
  tally : Nat
  lightSeen : Bool
  guiltyChannel : Option Nat
  guiltyPart : Option (Nat × Nat)
  found : Option HomeRef
  stepsCarried : Nat
  deriving DecidableEq, Repr

/-- The role in a hunt; the owner's part stands while the role is OWNER (R103). -/
inductive Role where
  | noRole
  | owner (part : OwnerPart)
  | participant
  deriving DecidableEq, Repr

/-- The hunt record (R103). -/
structure Hunt where
  role : Role
  flag : Option HuntId
  guardTimer : Timer
  huntId : Option HuntId
  openCount : BitVec 8
  opening : Bool
  deferred : Bool
  frozen : List Position
  awaiting : Option Awaiting
  deriving DecidableEq, Repr

/-! ### Usage Meter (chapters 8 and 9) -/

/-- The quota states (R146). -/
inductive Quota where
  | opened
  | low
  | exhausted
  deriving DecidableEq, Repr

/-- The six period counters (R143). -/
structure Counters where
  upCharged : Nat
  downCharged : Nat
  upFree : Nat
  downFree : Nat
  charged : Nat
  overdraw : Nat
  deriving DecidableEq, Repr

/-- All six counters at 0. -/
def Counters.zero : Counters :=
  { upCharged := 0, downCharged := 0, upFree := 0, downFree := 0, charged := 0, overdraw := 0 }

/-- The reason of a RELEASED record (R167). -/
inductive ReleaseReason where
  | removed
  | lostTimeout
  | claimedElsewhere
  deriving DecidableEq, Repr

/-- The record kinds (R167). -/
inductive RecordKind where
  | period
  | handoverOut
  | released (reason : ReleaseReason)
  | restart
  deriving DecidableEq, Repr

/-- The content of a snapshot (R162). -/
structure Snapshot where
  kind : RecordKind
  firstPeriod : Nat
  lastPeriod : Nat
  mode : Mode
  opening : Nat
  closing : Nat
  counters : Counters
  adjusted : Int
  rolled : Int
  deriving DecidableEq, Repr

/-- An account (R143). Its condition follows from its entry's state (R144). -/
structure Account where
  mode : Mode
  credit : Nat
  base : Nat
  lowWater : Nat
  quota : Quota
  residueUp : Nat
  residueDown : Nat
  counters : Counters
  creditOpen : Nat
  adjusted : Int
  periodFirst : Nat
  snapshot : Option Snapshot
  deriving DecidableEq, Repr

/-- A band of the tariff table (R149). -/
structure Band where
  priceUp : Nat
  priceDown : Nat
  fixed : Bool
  deriving DecidableEq, Repr

/-- A place of the free-label table (R148). -/
structure FreeLabel where
  lo : Nat
  hi : Nat
  up : Bool
  down : Bool
  active : Bool
  deriving DecidableEq, Repr

/-- An inactive place of the free-label table. -/
def FreeLabel.empty : FreeLabel := { lo := 0, hi := 0, up := false, down := false, active := false }

/-- What the Usage Meter owns (R143). An empty account is `none` (R144). -/
structure UsageMeter where
  accounts : Vector (Option Account) 64
  tariff : Vector Band 8
  freeLabels : Vector FreeLabel 8
  band : Nat
  period : Nat
  deriving DecidableEq, Repr

/-! ### Shelf Line Port (chapter 10) -/

/-- The notices this terminator sends, with their arguments (R175 and the notice tables of chapters 3, 6, 7 and 11). -/
inductive Notice where
  | claim (serial : Serial) (channel : Nat)
  | held (serial : Serial) (channel : Nat)
  | offer (serial : Serial) (fromChannel toChannel assured peak weight eqDelay : Nat)
  | accept (serial : Serial) (channel newHandle : Nat)
  | refuse (serial : Serial) (channel : Nat) (reason : RefuseReason)
  | account (serial : Serial) (fromChannel : Nat) (mode : Mode) (credit base lowWater residueUp residueDown period : Nat)
  | taken (serial : Serial) (channel : Nat)
  | reclaim (serial : Serial) (fromChannel : Nat)
  | huntOpen (id : HuntId)
  | huntJoin (id : HuntId) (channel count : Nat)
  | huntStep (id : HuntId) (step : Nat) (selector : Selector)
  | huntReady (id : HuntId) (channel step : Nat) (named : Option HomeRef)
  | huntClose (id : HuntId) (outcome : HuntOutcome)
  | present (channel : Nat) (incumbent : Bool)
  deriving DecidableEq, Repr

/-- The notice producers (R176). -/
inductive Producer where
  | enrolment
  | transfer
  | hunt
  | loader
  deriving DecidableEq, Repr

/-- The line state (R178). -/
inductive LineState where
  | attached
  | detached
  deriving DecidableEq, Repr

/-- The four offer slots (R176). -/
inductive Slot where
  | notice
  | result
  | report
  | usage
  deriving DecidableEq, Repr

/-- A notice in the notice slot, with the mark of a withdrawal during its transmission (R177). -/
structure SlotNotice where
  notice : Notice
  withdrawn : Bool
  deriving DecidableEq, Repr

/-- What a place of the alarm table reports (R65 and the alarm rules). -/
inductive AlarmContent where
  | strayLight (count threshold : Nat)
  | homeDrift (serial : Option Serial) (handle : Nat) (offset : Int)
  | homeLost (serial : Option Serial)
  | credit (serial : Option Serial) (handle credit lowWater : Nat)
  | rogueFound (serial : Serial) (handle : Nat) (id : HuntId) (held : Bool)
  | huntEnded (id : Option HuntId) (outcome : HuntOutcome) (steps : Nat)
  | duplicateSerial (serial : Serial) (channel other : Nat) (state : HomeState)
  deriving DecidableEq, Repr

/-- Why ROSTER_FULL is raised (R53). -/
inductive RosterCause where
  | noEntry
  | overbook
  deriving DecidableEq, Repr

/-- The outcome and reason of HOME_MOVED (R141). -/
inductive MoveOutcome where
  | done
  | arrived
  | returnedRefused (reason : RefuseReason)
  | returnedTimeout
  | returnedTuneFailed
  | lost
  deriving DecidableEq, Repr

/-- The fields of the image, in the order they are checked (R189). -/
inductive ImageField where
  | channel
  | rLow
  | rHigh
  | wDisc
  | pDisc
  | qLen
  | qPeriod
  | kPoll
  | lifeline
  | defaultProfile
  | defaultMode
  | claimHold
  | handoverTime
  | lostTime
  | sThr
  | autoHunt
  | tariffGuard
  | alarmModes
  deriving DecidableEq, Repr

/-- The fault reasons (R187, R188). -/
inductive FaultReason where
  | noImage
  | badSum
  | badField (field : ImageField)
  | channelClash
  deriving DecidableEq, Repr

/-- The events, and the fault report that enters the event queue like one (R184, R190). -/
inductive Event where
  | homeActive (serial : Option Serial) (handle eqDelay : Nat)
  | homeMoved (serial : Serial) (oldChannel targetChannel : Nat) (newHandle : Option Nat) (outcome : MoveOutcome)
  | homeReleased (serial : Option Serial) (handle : Nat) (reason : ReleaseReason)
  | outOfReach (serial : Serial) (delayIndex : Nat) (roundTrip : Int)
  | rosterFull (serial : Serial) (cause : RosterCause)
  | lineDetached (cycles : Nat)
  | faultReport (reason : FaultReason) (clash : Option (Nat × Station))
  deriving DecidableEq, Repr

/-- Where an alarm place stands among those that became pending at one moment: `fresh` in the command that placed it, then `lead` or `tied` to the place before it (R183, log entry 7). -/
inductive AlarmAge where
  | fresh
  | lead
  | tied
  deriving DecidableEq, Repr

/-- A place of the alarm table that is not idle (R183). -/
structure AlarmPlace where
  source : AlarmSource
  content : AlarmContent
  repeated : Bool
  count : Nat
  age : AlarmAge
  deriving DecidableEq, Repr

/-- A report frame in the report slot: an alarm with the later report recorded behind it, if any, or an event with the mark "events dropped" (R183, R184). -/
inductive ReportBody where
  | alarm (place : AlarmPlace) (later : Option AlarmPlace)
  | event (event : Event) (dropped : Bool)
  deriving DecidableEq, Repr

/-- The report slot's frame with its report number (R175). -/
structure ReportFrame where
  number : Byte
  body : ReportBody
  deriving DecidableEq, Repr

/-- The two frames of a usage record (R175). -/
inductive UsagePart where
  | first
  | second
  deriving DecidableEq, Repr

/-- The record in the usage slot: the snapshot content it was offered with (R167), the serial, channel, record number, and the part now in the slot. -/
structure UsageFrame where
  handle : Nat
  serial : Option Serial
  channel : Nat
  content : Snapshot
  number : Byte
  part : UsagePart
  deriving DecidableEq, Repr

/-- The fields of a usage frame (R175): the first part carries what identifies and dates the record with its credit, adjusted and rolled millis, the second the six counters. -/
inductive UsageFields where
  | first (kind : RecordKind) (serial : Option Serial) (channel : Nat) (mode : Mode) (firstPeriod lastPeriod opening closing : Nat)
      (adjusted rolled : Int)
  | second (counters : Counters)
  deriving DecidableEq, Repr

/-- What the Shelf Line Port owns (R176, R178), with the producers' own notice queues (R54, R103, R125, R191): `queued` holds the four of them in one list, and a producer's queue is the part whose notices are its own, in order. The result slot is the head of the result queue (R179). -/
structure LinePort where
  station : Station
  lineState : LineState
  voidCount : Nat
  detachTimer : Timer
  detachSpan : Option Nat
  queued : List Notice
  presented : List Notice
  noticeSlot : Option SlotNotice
  reportSlot : Option ReportFrame
  usageSlot : Option UsageFrame
  transmitting : Option Slot
  deriving DecidableEq, Repr

/-! ### Request Handler (chapter 10) -/

/-- The sixteen request kinds (R180); HOLD and CLEAR_HOLD share one. -/
inductive RequestKind where
  | setProfile
  | setAccount
  | refill
  | move
  | remove
  | hold
  | queryHome
  | listHomes
  | setTariff
  | fixTariff
  | setDiscovery
  | startHunt
  | restart
  | band
  | closePeriod
  | setFreeLabels
  deriving DecidableEq, Repr

/-- The result codes (R179). -/
inductive ResultCode where
  | ok
  | unknownHome
  | busy
  | overbook
  | inconsistent
  | huntActive
  | notHere
  | range
  | locked
  | faulted
  deriving DecidableEq, Repr

/-- The condition of an account (R144). -/
inductive AccountCondition where
  | empty
  | opened
  | frozen
  | installed
  | closing
  deriving DecidableEq, Repr

/-- The condition of a snapshot (chapter 9, the table of snapshot conditions). -/
inductive SnapshotCondition where
  | absent
  | pending
  | inDelivery
  deriving DecidableEq, Repr

/-- The kind of a message, apart from its arguments (R30), as QUERY_HOME tells it (R181). -/
inductive MailboxKind where
  | adjust
  | assign
  | tune
  | release
  deriving DecidableEq, Repr

/-- The kind of a record, apart from its reason (R167), as QUERY_HOME tells it of a snapshot (R181). -/
inductive SnapshotKind where
  | period
  | handoverOut
  | released
  | restart
  deriving DecidableEq, Repr

/-- The handover context as QUERY_HOME tells it: the reclaim part is none or QUEUED, without the model's cause (R124, R181; log entry 17). -/
structure QueryHandover where
  direction : Direction
  peer : Nat
  newHandle : Option Nat
  remaining : Timer
  reclaimQueued : Bool
  burstInHand : Bool
  accountInHand : Bool
  deriving DecidableEq, Repr

/-- Part 0 of QUERY_HOME (R181). -/
structure QueryEntry where
  handle : Nat
  state : HomeState
  holds : Holds
  roundTrip : Option Nat
  eqDelay : Option Nat
  profile : Option Profile
  reportQ : Nat
  idle : Nat
  missed : Nat
  losses : Nat
  misplaced : Nat
  duplicates : Nat
  rangeAttempts : Nat
  recontact : Nat
  lostTimer : Timer
  lastOffset : Option Int
  mailbox : Option (MailboxKind × Nat)
  deriving DecidableEq, Repr

/-- What part 1 of QUERY_HOME tells of an account with content (R181). -/
structure QueryAccount where
  mode : Mode
  quota : Quota
  credit : Nat
  base : Nat
  lowWater : Nat
  residueUp : Nat
  residueDown : Nat
  snapshot : SnapshotCondition
  snapshotSpan : Option (SnapshotKind × Nat × Nat)
  deriving DecidableEq, Repr

/-- The data a result carries behind its code (R180, R181). -/
inductive ResultData where
  | nothing
  | profile (stored : Profile)
  | refill (added credit : Nat) (saturated : Bool)
  | queryEntry (part : QueryEntry)
  | queryAccount (handover : Option QueryHandover) (condition : AccountCondition) (account : Option QueryAccount)
  | queryBytes (counts : Option (Nat × Nat × Nat × Nat))
  | queryMillis (counts : Option (Nat × Nat × Nat × Int × Nat))
  | homes (listed : List (Option Serial × HomeState)) (nextHandle : Nat)
  deriving DecidableEq, Repr

/-- A result of the result queue (R179). -/
structure Result where
  kind : RequestKind
  requester : Station
  tag : Byte
  code : ResultCode
  data : ResultData
  deriving DecidableEq, Repr

/-- The data of a frame this terminator sends (R175): an alarm frame carries the kind, the content, the repeat marker and the count (R183), an event frame the event with the mark "events dropped" (R184). -/
inductive FrameData where
  | notice (n : Notice)
  | result (code : ResultCode) (data : ResultData)
  | alarm (kind : AlarmKind) (content : AlarmContent) (repeated : Bool) (count : Nat)
  | event (event : Event) (dropped : Bool)
  | usage (fields : UsageFields)
  deriving DecidableEq, Repr

/-- A frame this terminator sends: the fields around the data, and the data (R173, R175). -/
structure LineFrame where
  cls : Nat
  sender : Station
  kind : BitVec 4
  dest : Byte
  tag : Byte
  data : FrameData
  deriving DecidableEq, Repr

/-- A running repeat timer of a LEVEL condition, with the content of its raising (R182). -/
structure RepeatTimer where
  source : AlarmSource
  remaining : Nat
  content : AlarmContent
  deriving DecidableEq, Repr

/-- What the Request Handler owns (R179, R182 to R185). `alarms` lists the pending places in the order they became pending; the event in the report slot is the head of `events`. -/
structure RequestHandler where
  results : List Result
  events : List Event
  dropped : Bool
  alarms : List AlarmPlace
  repeats : List RepeatTimer
  reportNumber : Byte
  recordNumber : Byte
  deriving DecidableEq, Repr

/-! ### Image Loader (chapter 11) -/

/-- The start-up states (R187). -/
inductive Startup where
  | loading
  | configFault
  | listening
  | operating
  | draining
  deriving DecidableEq, Repr

/-- The alarm modes (R182). -/
inductive AlarmMode where
  | off
  | edge
  | level
  deriving DecidableEq, Repr

/-- The image's alarm modes, one for each alarm kind (R189). -/
structure AlarmModes where
  strayLight : AlarmMode
  homeDrift : AlarmMode
  homeLost : AlarmMode
  creditLow : AlarmMode
  creditExhausted : AlarmMode
  rogueFound : AlarmMode
  huntEnded : AlarmMode
  duplicateSerial : AlarmMode
  deriving DecidableEq, Repr

/-- The loaded image (R189); `wDisc` is the length after any raising. -/
structure Image where
  channel : Nat
  rLow : Nat
  rHigh : Nat
  wDisc : Nat
  pDisc : Nat
  qLen : Nat
  qPeriod : Nat
  kPoll : Nat
  lifeline : Nat
  defaultProfile : Profile
  defaultMode : Mode
  claimHold : Nat
  handoverTime : Nat
  lostTime : Nat
  sThr : Nat
  autoHunt : Bool
  tariffGuard : Bool
  alarmModes : AlarmModes
  deriving DecidableEq, Repr

/-- What the Image Loader owns (R187). `usableChannel` is the usable channel of an image in CONFIG_FAULT (R190). -/
structure ImageLoader where
  startup : Startup
  image : Option Image
  fault : Option FaultReason
  usableChannel : Option Nat
  drainTimer : Timer
  listenTimer : Timer
  deriving DecidableEq, Repr

/-! ### Pins and ports -/

/-- A downstream packet put on the optical port (R153). -/
structure DownPacket where
  handle : Nat
  label : Nat
  bytes : Nat
  deriving DecidableEq, Repr

/-- What leaves the optical port downstream: a map, or a packet the gate has passed (R6, R153). -/
inductive Downlink where
  | map (m : SentMap)
  | packet (p : DownPacket)
  deriving DecidableEq, Repr

/-- What the part drove on its ports: the void flag of the latest frame (R174), the packets the latest DATA or RANGE observation passed to the traffic port (R152), the packet of the latest downstream arrival (R153), and all that has left the optical port since the present cycle began, in order (R6; log entry 31). -/
structure Ports where
  voidDriven : Bool
  trafficOut : List UpPacket
  opticalOut : Option DownPacket
  downstream : List Downlink
  deriving DecidableEq, Repr

/-! ### The machine -/

/-- The state of the terminator, block by block, with the queue of waiting commands. -/
structure State where
  cb : CycleBuilder
  roster : Vector Entry 64
  ee : Enrolment
  ua : Allocator
  lw : LightWatch
  hu : Hunt
  um : UsageMeter
  slp : LinePort
  rq : RequestHandler
  il : ImageLoader
  ports : Ports
  resetHeld : Bool
  choices : Nat
  pending : List Instr
  deriving DecidableEq, Repr

/-- Reasons a step could stop the machine. The manual stops the terminator nowhere, so no meaning raises one; the type has one constructor because the interface asks for a type. -/
inductive Fault where
  /-- Raised by no meaning. Safe: nothing rests on it. -/
  | unreachable
  deriving DecidableEq, Repr

/-- Reasons a command has no meaning. -/
inductive Refusal where
  /-- Raised by an arm of `exec` whose command has no meaning yet (none is left). Safe: the machine stops where the part goes on. -/
  | notModelled (mnemonic : String)
  deriving DecidableEq, Repr

/-- The Cycle Builder after reset (R21). -/
def CycleBuilder.reset : CycleBuilder := { cycle := 0, ring := [], reached := none }

/-- The Enrolment Engine after reset (R66). -/
def Enrolment.reset : Enrolment := { discoveryEnable := false, captures := [none, none, none, none] }

/-- The Upstream Allocator after reset (R86). R86 leaves C_floor undefined until an image is taken; the model's 0 is a DESIGN CHOICE (log entry 41). -/
def Allocator.reset : Allocator := { rho := 0, booked := 0, floor := 0 }

/-- The Light Watch after reset (R102). -/
def LightWatch.reset : LightWatch := { drift := Vector.replicate 64 Drift.clear, history := [], condition := false }

/-- The hunt record after reset (R123). -/
def Hunt.reset : Hunt :=
  { role := .noRole, flag := none, guardTimer := none, huntId := none, openCount := 0, opening := false,
    deferred := false, frozen := [], awaiting := none }

/-- The Usage Meter after reset (R160, R171). -/
def UsageMeter.reset : UsageMeter :=
  { accounts := Vector.replicate 64 none,
    tariff := Vector.replicate 8 { priceUp := 0, priceDown := 0, fixed := false },
    freeLabels := Vector.replicate 8 FreeLabel.empty, band := 0, period := 0 }

/-- The Shelf Line Port after reset, with the station number the straps give (R185, R186). -/
def LinePort.reset (straps : Station) : LinePort :=
  { station := straps, lineState := .attached, voidCount := 0, detachTimer := none, detachSpan := none,
    queued := [], presented := [], noticeSlot := none,
    reportSlot := none, usageSlot := none, transmitting := none }

/-- The Request Handler after reset (R185). -/
def RequestHandler.reset : RequestHandler :=
  { results := [], events := [], dropped := false, alarms := [], repeats := [], reportNumber := 0, recordNumber := 0 }

/-- The Image Loader after reset (R187). -/
def ImageLoader.reset : ImageLoader :=
  { startup := .loading, image := none, fault := none, usableChannel := none, drainTimer := none, listenTimer := none }

/-- The ports after reset: nothing driven. -/
def Ports.reset : Ports := { voidDriven := false, trafficOut := [], opticalOut := none, downstream := [] }

/-- The terminator right after power-on reset: every block at its reset value, LOADING (R187). The straps and the model's own counter are a DESIGN CHOICE (log entries 3 and 7). -/
def State.reset : State :=
  { cb := CycleBuilder.reset, roster := Vector.replicate 64 Entry.free, ee := Enrolment.reset, ua := Allocator.reset,
    lw := LightWatch.reset, hu := Hunt.reset, um := UsageMeter.reset, slp := LinePort.reset 0,
    rq := RequestHandler.reset, il := ImageLoader.reset, ports := Ports.reset, resetHeld := false, choices := 0,
    pending := [] }

end Sys2Proof.Machine
end

