-- ==== Sys2Proof/Machine/Flags.lean ====
section
/-! DEFINITION. What the rules derive from state: the image in force, the tables by handle, holds and eligibility, quota states, account conditions, alarm conditions. -/

namespace Sys2Proof.Machine

/-! ### The image -/

/-- The image with every field 0 or off. It stands in where no image is loaded; no rule reads the image then (R188; log entry 26). -/
def Image.blank : Image :=
  { channel := 0, rLow := 0, rHigh := 0, wDisc := 0, pDisc := 0, qLen := 0, qPeriod := 0, kPoll := 0, lifeline := 0,
    defaultProfile := { assured := 0, peak := 0, weight := 0 }, defaultMode := .unmetered, claimHold := 0,
    handoverTime := 0, lostTime := 0, sThr := 0, autoHunt := false, tariffGuard := false,
    alarmModes := { strayLight := .off, homeDrift := .off, homeLost := .off, creditLow := .off, creditExhausted := .off,
                    rogueFound := .off, huntEnded := .off, duplicateSerial := .off } }

/-- The image in force. -/
def State.img (s : State) : Image := s.il.image.getD Image.blank

/-- This terminator's own channel, from its image (R189). -/
def State.channel (s : State) : Nat := s.img.channel

/-- The Image Loader is OPERATING. -/
def State.operating (s : State) : Bool := s.il.startup = .operating

/-- The Image Loader is DRAINING. -/
def State.draining (s : State) : Bool := s.il.startup = .draining

/-- The mode of an alarm kind (R182). -/
def AlarmModes.get (m : AlarmModes) : AlarmKind → AlarmMode
  | .strayLight => m.strayLight
  | .homeDrift => m.homeDrift
  | .homeLost => m.homeLost
  | .creditLow => m.creditLow
  | .creditExhausted => m.creditExhausted
  | .rogueFound => m.rogueFound
  | .huntEnded => m.huntEnded
  | .duplicateSerial => m.duplicateSerial

/-! ### Tables by handle -/

/-- Handles 1 to 64, ascending. -/
def handles : List Nat := List.range' 1 64

/-- Read a table of 64 at a handle; handle 0 and handles above 64 name nothing. -/
def tableGet {α : Type} (v : Vector α 64) (d : α) (h : Nat) : α :=
  if h = 0 then d else (v[h - 1]?).getD d

/-- Write a table of 64 at a handle; handle 0 and handles above 64 write nothing. -/
def tableSet {α : Type} (v : Vector α 64) (h : Nat) (x : α) : Vector α 64 :=
  if h = 0 then v else v.setIfInBounds (h - 1) x

/-- Change every place of a table of 64, each with its handle. -/
def tableMap {α : Type} (f : Nat → α → α) (v : Vector α 64) : Vector α 64 :=
  Vector.ofFn fun i => f (i.val + 1) v[i]

/-- The entry at a handle; FREE where the handle names none (R22). -/
def State.entry (s : State) (h : Nat) : Entry := tableGet s.roster Entry.free h

/-- The account at a handle; `none` when empty (R144). -/
def State.acct (s : State) (h : Nat) : Option Account := tableGet s.um.accounts none h

/-- The drift data at a handle (R87). -/
def State.drift (s : State) (h : Nat) : Drift := tableGet s.lw.drift Drift.clear h

/-- The handle of the entry that holds the serial, in any state but FREE (R22). -/
def State.find (s : State) (serial : Serial) : Option Nat :=
  handles.find? fun h => (s.entry h).state ≠ .free ∧ (s.entry h).serial = some serial

/-- The lowest handle whose entry is FREE; `none` when the roster is full (R22). -/
def State.freeHandle (s : State) : Option Nat :=
  handles.find? fun h => (s.entry h).state = .free

/-! ### Entries -/

/-- ACTIVE, LEAVING or TUNING: the states in which a home is served (R68, R144, R152). -/
def HomeState.served : HomeState → Bool
  | .active => true
  | .leaving => true
  | .tuning => true
  | .free => false
  | .claiming => false
  | .confirming => false
  | .handed => false
  | .arriving => false
  | .taking => false
  | .lost => false
  | .closing => false

/-- The states whose entries count in the booked sum: neither FREE nor CLOSING (R82). -/
def HomeState.booked : HomeState → Bool
  | .free => false
  | .closing => false
  | .claiming => true
  | .confirming => true
  | .active => true
  | .leaving => true
  | .tuning => true
  | .handed => true
  | .arriving => true
  | .taking => true
  | .lost => true

/-- Any hold. -/
def Holds.any (x : Holds) : Bool := x.hunt || x.rogue || x.drift || x.manager

/-- One of HUNT, ROGUE and MANAGER: the holds that darken (R8, R28). -/
def Holds.darken (x : Holds) : Bool := x.hunt || x.rogue || x.manager

/-- The entry stands in the dark list of a map built now (R8). -/
def Entry.dark (e : Entry) : Bool := e.state ≠ .free ∧ e.holds.darken = true

/-- Eligible for a DATA window (R68). -/
def Entry.eligible (e : Entry) : Bool := e.state.served && !e.holds.any

/-- The entry is in its re-range: ACTIVE with the DRIFT hold (R87, R93, R95). -/
def Entry.reRanging (e : Entry) : Bool := e.holds.drift && e.state = .active

/-- The profile, all 0 where absent. -/
def Entry.prof (e : Entry) : Profile := e.profile.getD { assured := 0, peak := 0, weight := 0 }

/-- A profile's term of the booked sum (R82). -/
def term (assured : Nat) : Nat := max assured Config.minPayload + Config.dataCost

/-- The entry's term of the booked sum (R82). -/
def Entry.bookedTerm (e : Entry) : Nat := if e.state.booked then term e.prof.assured else 0

/-- The rank of a message kind (R30). -/
def MsgKind.rank : MsgKind → Nat
  | .adjust _ => 1
  | .assign _ _ _ => 2
  | .tune _ _ => 3
  | .release => 4

/-- The message is an ADJUST. -/
def Message.isAdjust (m : Message) : Bool :=
  match m.kind with
  | .adjust _ => true
  | .assign _ _ _ => false
  | .tune _ _ => false
  | .release => false

/-- The maps that carry a message of this kind (R33). -/
def MsgKind.limit : MsgKind → Nat
  | .release => Config.releaseMaps
  | .adjust _ => Config.messageMaps
  | .assign _ _ _ => Config.messageMaps
  | .tune _ _ => Config.messageMaps

/-- The message goes out in a map built now (R9, R33). -/
def Message.carriedNow (m : Message) : Bool := m.carried < m.kind.limit

/-! ### Timing -/

/-- The equalisation delay clamped to the reach of the image (R24). -/
def clampDelay (img : Image) (e : Int) : Nat :=
  (clampInt (Config.targetDelay - img.rHigh) (Config.targetDelay - img.rLow) e).toNat

/-- A timer falls due at this cycle start: at most one cycle start is to come (R1, log entry 2). -/
def dueTimer (t : Timer) : Bool :=
  match t with
  | none => false
  | some r => r ≤ 1

/-- One cycle start on a timer (R1). -/
def tickTimer (t : Timer) : Timer := t.map (· - 1)

/-- How many cycle starts lie between two cycle numbers, counted modulo 2^32 (R1). -/
def cyclesSince (now earlier : CycleNo) : Nat := (now - earlier).toNat

/-! ### Accounts -/

/-- The account is debited for blocks (R145). -/
def metered : Mode → Bool
  | .unmetered => false
  | .oneShot => true
  | .refill => true

/-- The quota state of a mode, credit and low-water (R146). -/
def quotaOf (mode : Mode) (credit lowWater : Nat) : Quota :=
  if metered mode then
    if credit = 0 then .exhausted else if credit ≤ lowWater then .low else .opened
  else .opened

/-- The state in which an account is open: served or LOST (R144). -/
def HomeState.accountOpen (st : HomeState) : Bool := st.served || st = .lost

/-- The condition of an account (R144). -/
def accountCondition (st : HomeState) (a : Option Account) : AccountCondition :=
  match a with
  | none => .empty
  | some _ =>
    if st.accountOpen then .opened
    else if st = .handed then .frozen
    else if st = .closing then .closing
    else .installed

/-- The label is free upstream in this table (R148). -/
def freeUp (t : Vector FreeLabel 8) (label : Nat) : Bool :=
  t.toList.any fun f => f.active && f.up && f.lo ≤ label && label ≤ f.hi

/-- The label is free downstream in this table (R148). -/
def freeDown (t : Vector FreeLabel 8) (label : Nat) : Bool :=
  t.toList.any fun f => f.active && f.down && f.lo ≤ label && label ≤ f.hi

/-- The band of the tariff table at a number (R149). -/
def State.bandAt (s : State) (b : Nat) : Band :=
  (s.um.tariff[b]?).getD { priceUp := 0, priceDown := 0, fixed := false }

/-- The record at this handle stands in the usage slot: its snapshot is in delivery (R168). -/
def State.delivering (s : State) (h : Nat) : Bool :=
  match s.slp.usageSlot with
  | none => false
  | some f => f.handle = h

/-- The condition of the snapshot at a handle (chapter 9). -/
def State.snapshotCondition (s : State) (h : Nat) : SnapshotCondition :=
  match (s.acct h).bind Account.snapshot with
  | none => .absent
  | some _ => if s.delivering h then .inDelivery else .pending

/-! ### Alarm conditions -/

/-- The five kinds whose condition lasts; the other three are one-shot (R182). -/
def lastingKind : AlarmKind → Bool
  | .strayLight => true
  | .homeDrift => true
  | .homeLost => true
  | .creditLow => true
  | .creditExhausted => true
  | .rogueFound => false
  | .huntEnded => false
  | .duplicateSerial => false

/-- The number of LIGHT outcomes of a history (R87). -/
def lightCount (history : List Bool) : Nat := history.countP id

/-- The condition of a lasting alarm holds (R98, R102, R38, R147). -/
def State.conditionHolds (s : State) (a : AlarmSource) : Bool :=
  match a.kind with
  | .strayLight => s.lw.condition
  | .homeDrift => (s.entry a.handle).holds.drift && (s.entry a.handle).state = .active
  | .homeLost => (s.entry a.handle).state = .lost
  | .creditLow => (s.entry a.handle).state.accountOpen && ((s.acct a.handle).map Account.quota = some .low)
  | .creditExhausted => (s.entry a.handle).state.accountOpen && ((s.acct a.handle).map Account.quota = some .exhausted)
  | .rogueFound => false
  | .huntEnded => false
  | .duplicateSerial => false

/-- The current content of a lasting alarm: the values that change are read anew, the rest stands as raised (R182; log entry 16). -/
def State.conditionContent (s : State) (raised : AlarmContent) : AlarmContent :=
  match raised with
  | .strayLight _ thr => .strayLight (lightCount s.lw.history) thr
  | .credit serial h c l =>
    match s.acct h with
    | none => .credit serial h c l
    | some a => .credit serial h a.credit a.lowWater
  | .homeDrift serial h d => .homeDrift serial h d
  | .homeLost serial => .homeLost serial
  | .rogueFound serial h id b => .rogueFound serial h id b
  | .huntEnded id o k => .huntEnded id o k
  | .duplicateSerial serial c o st => .duplicateSerial serial c o st

/-! ### The line -/

/-- The producer of a notice (R176). -/
def Notice.producer : Notice → Producer
  | .claim _ _ => .enrolment
  | .held _ _ => .enrolment
  | .offer _ _ _ _ _ _ _ => .transfer
  | .accept _ _ _ => .transfer
  | .refuse _ _ _ => .transfer
  | .account _ _ _ _ _ _ _ _ _ => .transfer
  | .taken _ _ => .transfer
  | .reclaim _ _ => .transfer
  | .huntOpen _ => .hunt
  | .huntJoin _ _ _ => .hunt
  | .huntStep _ _ _ => .hunt
  | .huntReady _ _ _ _ => .hunt
  | .huntClose _ _ => .hunt
  | .present _ _ => .loader

/-- A notice of this producer is with the port: presented and waiting, or in the slot (R176). -/
def LinePort.holds (p : LinePort) (who : Producer) : Bool :=
  p.presented.any (fun n => n.producer = who) || (p.noticeSlot.any fun x => x.notice.producer = who)

/-- The notice is queued or offered, not yet carried and not withdrawn (R177). -/
def LinePort.stands (p : LinePort) (n : Notice) : Bool :=
  p.queued.contains n || p.presented.contains n || (p.noticeSlot.any fun x => x.notice = n ∧ x.withdrawn = false)

/-- The offer slot is not empty (R176, R179). -/
def State.slotFull (s : State) : Slot → Bool
  | .notice => s.slp.noticeSlot.isSome
  | .result => !s.rq.results.isEmpty
  | .report => s.slp.reportSlot.isSome
  | .usage => s.slp.usageSlot.isSome

/-- The slot the port contends with: the first not empty, in the order notice, result, report, usage (R176). -/
def State.strongestSlot (s : State) : Option Slot :=
  [Slot.notice, Slot.result, Slot.report, Slot.usage].find? s.slotFull

/-- The part sends on the line: not LOADING, and ATTACHED (R178, R185). -/
def State.sends (s : State) : Bool := s.il.startup ≠ .loading ∧ s.slp.lineState = .attached

/-! ### The hunt -/

/-- The role is OWNER or PARTICIPANT (R103). -/
def Role.taken : Role → Bool
  | .noRole => false
  | .owner _ => true
  | .participant => true

/-- The role is OWNER. -/
def Role.isOwner : Role → Bool
  | .noRole => false
  | .owner _ => true
  | .participant => false

/-- The first position of part (ℓ, j) of a list of n (R113). -/
def partStart (n level index : Nat) : Nat := index * n / 2 ^ level

/-- The size of part (ℓ, j) of a list of n (R113). -/
def partSize (n level index : Nat) : Nat := partStart n level (index + 1) - partStart n level index

/-- The positions of part (ℓ, j) of a list (R113). -/
def partOf {α : Type} (xs : List α) (level index : Nat) : List α :=
  (xs.drop (partStart xs.length level index)).take (partSize xs.length level index)

end Sys2Proof.Machine
end

