-- ==== Sys2Proof/Machine/Operands.lean ====
section
/-! DEFINITION. The data bytes of requests, each number most significant byte first, with the lengths R180 gives; the cyclic check of a frame (R173); the words of the image (R189). -/

namespace Sys2Proof.Machine

/-! ### Request data (R180)

Each reader answers `none` where the length does not match the kind. Each writer lays the arguments out in the same order. -/

/-- The number in `n` bytes from place `i`, most significant first. -/
def bytesAt (d : List Byte) (i n : Nat) : Nat := beNat ((d.drop i).take n)

/-- The serial in the first 8 bytes. -/
def serialAt (d : List Byte) : Serial := BitVec.ofNat 64 (bytesAt d 0 8)

/-- SET_PROFILE(serial, A, P, w): 13 bytes. -/
def readProfile (d : List Byte) : Option (Serial × Profile) :=
  if d.length = 13 then
    some (serialAt d, { assured := bytesAt d 8 2, peak := bytesAt d 10 2, weight := bytesAt d 12 1 })
  else none

/-- SET_PROFILE's data. -/
def writeProfile (serial : Serial) (a p w : Nat) : List Byte :=
  beBytes 8 serial.toNat ++ beBytes 2 a ++ beBytes 2 p ++ beBytes 1 w

/-- The arguments of SET_ACCOUNT; the mode is still its code. -/
structure AccountArgs where
  serial : Serial
  modeCode : Nat
  base : Nat
  lowWater : Nat
  credit : Nat
  deriving DecidableEq, Repr

/-- SET_ACCOUNT(serial, mode, base, low-water, credit): 21 bytes. -/
def readAccount (d : List Byte) : Option AccountArgs :=
  if d.length = 21 then
    some { serial := serialAt d, modeCode := bytesAt d 8 1, base := bytesAt d 9 4, lowWater := bytesAt d 13 4,
           credit := bytesAt d 17 4 }
  else none

/-- SET_ACCOUNT's data. -/
def writeAccount (serial : Serial) (modeCode base lowWater credit : Nat) : List Byte :=
  beBytes 8 serial.toNat ++ beBytes 1 modeCode ++ beBytes 4 base ++ beBytes 4 lowWater ++ beBytes 4 credit

/-- A mode's code: 0 UNMETERED, 1 ONE_SHOT, 2 REFILL. -/
def modeOf (code : Nat) : Option Mode :=
  if code = 0 then some .unmetered else if code = 1 then some .oneShot else if code = 2 then some .refill else none

/-- REFILL(serial, amount): 12 bytes. -/
def readRefill (d : List Byte) : Option (Serial × Nat) :=
  if d.length = 12 then some (serialAt d, bytesAt d 8 4) else none

/-- REFILL's data. -/
def writeRefill (serial : Serial) (amount : Nat) : List Byte := beBytes 8 serial.toNat ++ beBytes 4 amount

/-- MOVE(serial, target channel) and QUERY_HOME(serial, part): 9 bytes. -/
def readSerialByte (d : List Byte) : Option (Serial × Nat) :=
  if d.length = 9 then some (serialAt d, bytesAt d 8 1) else none

/-- The data of MOVE and QUERY_HOME. -/
def writeSerialByte (serial : Serial) (b : Nat) : List Byte := beBytes 8 serial.toNat ++ beBytes 1 b

/-- REMOVE(serial): 8 bytes. -/
def readSerial (d : List Byte) : Option Serial := if d.length = 8 then some (serialAt d) else none

/-- REMOVE's data. -/
def writeSerial (serial : Serial) : List Byte := beBytes 8 serial.toNat

/-- HOLD and CLEAR_HOLD: serial, a hold's code, and the byte that says set or clear: 10 bytes. -/
def readHold (d : List Byte) : Option (Serial × Nat × Byte) :=
  if d.length = 10 then some (serialAt d, bytesAt d 8 1, BitVec.ofNat 8 (bytesAt d 9 1)) else none

/-- The data of HOLD (set) and CLEAR_HOLD (clear). -/
def writeHold (serial : Serial) (holdCode : Nat) (set : Bool) : List Byte :=
  beBytes 8 serial.toNat ++ beBytes 1 holdCode ++ beBytes 1 set.toNat

/-- A flag byte: 1 sets, 0 clears; the manual gives no other (log entry 10). -/
def readFlag (b : Byte) : Config.FlagReading :=
  if b = 1 then .set else if b = 0 then .clear else Config.unlistedFlag b

/-- One byte: LIST_HOMES, FIX_TARIFF, SET_DISCOVERY and BAND. -/
def readByte (d : List Byte) : Option Byte := if d.length = 1 then some (BitVec.ofNat 8 (bytesAt d 0 1)) else none

/-- The data of a one-byte request. -/
def writeByte (b : Nat) : List Byte := beBytes 1 b

/-- SET_TARIFF(band, price_up, price_down): 5 bytes. -/
def readTariff (d : List Byte) : Option (Nat × Nat × Nat) :=
  if d.length = 5 then some (bytesAt d 0 1, bytesAt d 1 2, bytesAt d 3 2) else none

/-- SET_TARIFF's data. -/
def writeTariff (band up down : Nat) : List Byte := beBytes 1 band ++ beBytes 2 up ++ beBytes 2 down

/-- START_HUNT and RESTART carry no data. -/
def readEmpty (d : List Byte) : Option Unit := if d.length = 0 then some () else none

/-- CLOSE_PERIOD(p): 4 bytes. -/
def readPeriod (d : List Byte) : Option Nat := if d.length = 4 then some (bytesAt d 0 4) else none

/-- CLOSE_PERIOD's data. -/
def writePeriod (p : Nat) : List Byte := beBytes 4 p

/-- A free-label bound: 0 to 4,095 as given; a greater one is a free value (log entry 11). -/
def labelBound (x : Nat) : Nat := if x < 4096 then x else Config.oddLabelBound x % 4096

/-- A free-label entry of 5 bytes: lo, hi, and a byte whose three lowest bits are the up, down and active flags, bit 0 the up flag (log entry 11). -/
def readFreeLabel (d : List Byte) (k : Nat) : FreeLabel :=
  { lo := labelBound (bytesAt d (5 * k) 2), hi := labelBound (bytesAt d (5 * k + 2) 2),
    up := (bytesAt d (5 * k + 4) 1).testBit 0, down := (bytesAt d (5 * k + 4) 1).testBit 1,
    active := (bytesAt d (5 * k + 4) 1).testBit 2 }

/-- SET_FREE_LABELS: 5 bytes for each entry, 0 to 40 bytes. The entries take places 1 onward and the places they do not fill are inactive (R148). -/
def readFreeLabels (d : List Byte) : Option (Vector FreeLabel 8) :=
  if d.length % 5 = 0 ∧ d.length ≤ 40 then
    some (Vector.ofFn fun i : Fin 8 => if 5 * i.val < d.length then readFreeLabel d i.val else FreeLabel.empty)
  else none

/-- The bytes of one free-label entry. -/
def writeFreeLabel (f : FreeLabel) : List Byte :=
  beBytes 2 f.lo ++ beBytes 2 f.hi ++ beBytes 1 (f.up.toNat + 2 * f.down.toNat + 4 * f.active.toNat)

/-! ### The cyclic check (R173) -/

/-- The bits of a field, most significant first. -/
def bitsOf {w : Nat} (x : BitVec w) : List Bool := (List.range w).map fun i => x.getMsbD i

/-- One bit through the check register: x^16 + x^12 + x^5 + 1. -/
def crcBit (r : BitVec 16) (b : Bool) : BitVec 16 :=
  if (r.msb ^^ b) then (r <<< 1) ^^^ 0x1021#16 else r <<< 1

/-- The check over a bit list, the register preset to all ones. -/
def crc (bits : List Bool) : BitVec 16 := bits.foldl crcBit 0xFFFF#16

/-- The bits of a frame, class through data (R173). -/
def frameBits (f : RawFrame) : List Bool :=
  bitsOf f.cls ++ bitsOf f.sender ++ bitsOf f.kind ++ bitsOf f.dest ++ bitsOf f.tag ++ bitsOf f.length ++
    f.data.flatMap bitsOf

/-- The frame passes its check: a length of at most 48 and the check over class through data (R173). -/
def frameGood (f : RawFrame) : Bool := f.length.toNat ≤ 48 && crc (frameBits f) = f.check

/-! ### The image (R188, R189) -/

/-- Word i of the configuration memory. -/
def wordAt (ws : List ImageWord) (i : Nat) : Nat := (ws[i]?.getD 0).toNat

/-- A number of two words, most significant word first. -/
def longAt (ws : List ImageWord) (i : Nat) : Nat := wordAt ws i * 65536 + wordAt ws (i + 1)

/-- The sum of the image's words, the sum excepted, modulo 65,536 (R188). -/
def imageSum (ws : List ImageWord) : ImageWord := (ws.take 29).foldl (· + ·) 0

/-- The smallest DISCOVER length the reach allows (R49, R189). -/
def smallestDiscover (rLow rHigh : Nat) : Nat := (rHigh - rLow + 7) / 8 + 976

/-- An alarm mode's code: 0 OFF, 1 EDGE, 2 LEVEL. -/
def alarmModeOf (code : Nat) : AlarmMode := if code = 0 then .off else if code = 1 then .edge else .level

/-- The fields of the image in the order they are checked, each with whether it passes (R189). Word 0 is the channel; the order of the table gives the places. R189 gives a W_disc above 6,000 no raise and excepts W_disc from the failure of a field outside its range: that such a W_disc fails its check is a DESIGN CHOICE (log entry 47). -/
def fieldChecks (ws : List ImageWord) : List (ImageField × Bool) :=
  [(.channel, wordAt ws 0 < 4),
   (.rLow, longAt ws 1 ≤ 160000),
   (.rHigh, longAt ws 3 ≤ 160000 && longAt ws 1 < longAt ws 3),
   (.wDisc, wordAt ws 5 ≤ 6000 && smallestDiscover (longAt ws 1) (longAt ws 3) ≤ 6000),
   (.pDisc, wordAt ws 6 == 0 || (16 ≤ wordAt ws 6 && wordAt ws 6 ≤ 1024)),
   (.qLen, 16 ≤ wordAt ws 7 && wordAt ws 7 ≤ 512),
   (.qPeriod, 1 ≤ wordAt ws 8 && wordAt ws 8 ≤ 16),
   (.kPoll, 1 ≤ wordAt ws 9 && wordAt ws 9 ≤ 64),
   (.lifeline, wordAt ws 10 ≤ 256),
   (.defaultProfile, wordAt ws 11 ≤ 2000 && wordAt ws 11 ≤ wordAt ws 12 && wordAt ws 12 ≤ 8000 &&
      1 ≤ wordAt ws 13 && wordAt ws 13 ≤ 15),
   (.defaultMode, wordAt ws 14 ≤ 2),
   (.claimHold, 1 ≤ wordAt ws 15),
   (.handoverTime, 1 ≤ wordAt ws 16),
   (.lostTime, 1 ≤ wordAt ws 17),
   (.sThr, 1 ≤ wordAt ws 18 && wordAt ws 18 ≤ 8),
   (.autoHunt, wordAt ws 19 ≤ 1),
   (.tariffGuard, wordAt ws 20 ≤ 1),
   (.alarmModes, (List.range 8).all fun i => wordAt ws (21 + i) ≤ 2)]

/-- The first field that fails its check (R188). -/
def firstBadField (ws : List ImageWord) : Option ImageField :=
  ((fieldChecks ws).find? fun c => !c.2).map Prod.fst

/-- The image the words hold, W_disc raised where it is below the smallest length (R189). -/
def readImage (ws : List ImageWord) : Image :=
  { channel := wordAt ws 0, rLow := longAt ws 1, rHigh := longAt ws 3,
    wDisc := max (wordAt ws 5) (smallestDiscover (longAt ws 1) (longAt ws 3)),
    pDisc := wordAt ws 6, qLen := wordAt ws 7, qPeriod := wordAt ws 8, kPoll := wordAt ws 9, lifeline := wordAt ws 10,
    defaultProfile := { assured := wordAt ws 11, peak := wordAt ws 12, weight := wordAt ws 13 },
    defaultMode := (modeOf (wordAt ws 14)).getD .unmetered,
    claimHold := wordAt ws 15, handoverTime := wordAt ws 16, lostTime := wordAt ws 17, sThr := wordAt ws 18,
    autoHunt := wordAt ws 19 == 1, tariffGuard := wordAt ws 20 == 1,
    alarmModes :=
      { strayLight := alarmModeOf (wordAt ws 21), homeDrift := alarmModeOf (wordAt ws 22),
        homeLost := alarmModeOf (wordAt ws 23), creditLow := alarmModeOf (wordAt ws 24),
        creditExhausted := alarmModeOf (wordAt ws 25), rogueFound := alarmModeOf (wordAt ws 26),
        huntEnded := alarmModeOf (wordAt ws 27), duplicateSerial := alarmModeOf (wordAt ws 28) } }

/-- The admission floor of an image (R81). -/
def admissionFloor (img : Image) : Nat :=
  Config.cycleWords - (img.wDisc + Config.guardWords) - 2 * (Config.rangeWords + Config.guardWords) -
    (img.qLen + Config.guardWords)

end Sys2Proof.Machine
end

