-- ==== Sys2Proof/Machine/Accounts.lean ====
section
/-! DEFINITION. What happens inside one account: debits, rating, the final charge, the forming, merging and carrying of snapshots (chapters 8 and 9). -/

namespace Sys2Proof.Machine

/-- A period counter saturates at 2^64 − 1 (R143). -/
def countAdd (a b : Nat) : Nat := satAdd Config.counterMax a b

/-- adjusted saturates at −2^65 and 2^65 − 1 (R143). -/
def adjustAdd (a b : Int) : Int := clampInt (-(2 ^ 65)) (2 ^ 65 - 1) (a + b)

/-- The quota state recomputed (R146). -/
def Account.requota (a : Account) : Account := { a with quota := quotaOf a.mode a.credit a.lowWater }

/-- A debit of x millis (R155). -/
def Account.debit (a : Account) (x : Nat) : Account :=
  Account.requota
    { a with
      credit := a.credit - x
      counters := { a.counters with
        charged := countAdd a.counters.charged x
        overdraw := countAdd a.counters.overdraw (x - a.credit) } }

/-- A debit is applied when it is above 0 (R154, R159). -/
def Account.debitIf (a : Account) (x : Nat) : Account := if x = 0 then a else a.debit x

/-- A charged upstream packet of b bytes, rated at a price (R154). -/
def Account.rateUp (a : Account) (b price : Nat) : Account :=
  if metered a.mode then
    Account.debitIf { a with residueUp := (a.residueUp + b) % Config.blockBytes }
      ((a.residueUp + b) / Config.blockBytes * price)
  else a

/-- A charged downstream packet of b bytes, rated at a price (R154). -/
def Account.rateDown (a : Account) (b price : Nat) : Account :=
  if metered a.mode then
    Account.debitIf { a with residueDown := (a.residueDown + b) % Config.blockBytes }
      ((a.residueDown + b) / Config.blockBytes * price)
  else a

/-- A counted upstream packet (R152). -/
def Account.countUp (a : Account) (free : Bool) (bytes price : Nat) : Account :=
  if free then { a with counters := { a.counters with upFree := countAdd a.counters.upFree bytes } }
  else
    Account.rateUp { a with counters := { a.counters with upCharged := countAdd a.counters.upCharged bytes } } bytes price

/-- A forwarded downstream packet (R153). -/
def Account.countDown (a : Account) (free : Bool) (bytes price : Nat) : Account :=
  if free then { a with counters := { a.counters with downFree := countAdd a.counters.downFree bytes } }
  else
    Account.rateDown { a with counters := { a.counters with downCharged := countAdd a.counters.downCharged bytes } } bytes price

/-- The final charge: each direction pro rata, upstream first, then both residues 0 (R159). -/
def Account.finalCharge (a : Account) (b : Band) : Account :=
  let up := if metered a.mode then a.debitIf (b.priceUp * a.residueUp / Config.blockBytes) else a
  let down := if metered a.mode then up.debitIf (b.priceDown * a.residueDown / Config.blockBytes) else up
  { down with residueUp := 0, residueDown := 0 }

/-- The account at the moment it opens (R143, R144). -/
def Account.opening (mode : Mode) (period : Nat) : Account :=
  { mode := mode, credit := 0, base := 0, lowWater := 0, quota := quotaOf mode 0 0, residueUp := 0, residueDown := 0,
    counters := Counters.zero, creditOpen := 0, adjusted := 0, periodFirst := period, snapshot := none }

/-- The account an ACCOUNT notice installs (R133). R133 gives credit_open and adjusted no value before the entry is ACTIVE (R134): both are free within the ranges of R143 until then (log entry 13). -/
def Account.install (mode : Mode) (credit base lowWater residueUp residueDown period : Nat) : Account :=
  { mode := mode, credit := credit, base := base, lowWater := lowWater, quota := quotaOf mode credit lowWater,
    residueUp := residueUp, residueDown := residueDown, counters := Counters.zero,
    creditOpen := min Config.millisMax (Config.installedCreditOpen credit),
    adjusted := adjustAdd 0 (Config.installedAdjusted credit), periodFirst := period, snapshot := none }

/-- The fresh period of an installed account whose entry enters ACTIVE (R134). -/
def Account.freshPeriod (a : Account) : Account :=
  { a with counters := Counters.zero, creditOpen := a.credit, adjusted := 0 }

/-- The six counters of one list of counts added to another's, saturating (R163). -/
def Counters.add (x y : Counters) : Counters :=
  { upCharged := countAdd x.upCharged y.upCharged, downCharged := countAdd x.downCharged y.downCharged,
    upFree := countAdd x.upFree y.upFree, downFree := countAdd x.downFree y.downFree,
    charged := countAdd x.charged y.charged, overdraw := countAdd x.overdraw y.overdraw }

/-- What is left of a counter once a carried value is taken out: a saturated counter stays saturated (R169). -/
def countLess (a carried : Nat) : Nat := if a = Config.counterMax then a else a - carried

/-- What is left of the counters once the carried ones are taken out (R169). -/
def Counters.less (x y : Counters) : Counters :=
  { upCharged := countLess x.upCharged y.upCharged, downCharged := countLess x.downCharged y.downCharged,
    upFree := countLess x.upFree y.upFree, downFree := countLess x.downFree y.downFree,
    charged := countLess x.charged y.charged, overdraw := countLess x.overdraw y.overdraw }

/-- A new snapshot through period p (R162, R166). -/
def Account.formSnapshot (a : Account) (kind : RecordKind) (p : Nat) : Snapshot :=
  { kind := kind, firstPeriod := min a.periodFirst p, lastPeriod := p, mode := a.mode, opening := a.creditOpen,
    closing := a.credit, counters := a.counters, adjusted := a.adjusted, rolled := 0 }

/-- The account's period merged into a waiting snapshot (R163). -/
def Account.mergeSnapshot (a : Account) (sn : Snapshot) (p : Nat) : Snapshot :=
  { sn with
    counters := sn.counters.add a.counters
    adjusted := sn.adjusted + a.adjusted
    rolled := sn.rolled + ((a.creditOpen : Int) - (sn.closing : Int))
    closing := a.credit
    lastPeriod := p
    mode := a.mode }

/-- The snapshot after a close or a final record through period p: formed where absent, merged otherwise, with the kind a final record gives it (R162, R163, R166). -/
def Account.snapshotThrough (a : Account) (final : Option RecordKind) (p : Nat) : Snapshot :=
  match a.snapshot with
  | none => a.formSnapshot (final.getD .period) p
  | some sn => { a.mergeSnapshot sn p with kind := final.getD sn.kind }

/-- The account at a period close (R162 to R164). -/
def Account.closePeriod (a : Account) (p : Nat) : Account :=
  let credit := if a.mode = .refill then a.base else a.credit
  Account.requota
    { a with snapshot := some (a.snapshotThrough none p), counters := Counters.zero, adjusted := 0,
             periodFirst := p + 1, credit := credit, creditOpen := credit }

/-- The account once its final snapshot is formed in the open period p: its counters stand at zero (R166). -/
def Account.closeFinal (a : Account) (kind : RecordKind) (p : Nat) : Account :=
  { a with snapshot := some (a.snapshotThrough (some kind) p), counters := Counters.zero, adjusted := 0 }

/-- What remains of a snapshot once a record offered from it is carried: nothing when nothing was merged since, otherwise the remainder (R169). -/
def Snapshot.afterCarriage (sn carried : Snapshot) : Option Snapshot :=
  if sn = carried then none
  else
    some { sn with
      firstPeriod := carried.lastPeriod + 1
      opening := carried.closing
      counters := sn.counters.less carried.counters
      adjusted := sn.adjusted - carried.adjusted
      rolled := sn.rolled - carried.rolled }

/-- REFILL adds at most what the credit's range leaves (R157). -/
def Account.refillAmount (a : Account) (amount : Nat) : Nat := min amount (Config.millisMax - a.credit)

/-- The account after a REFILL (R157). -/
def Account.refill (a : Account) (amount : Nat) : Account :=
  Account.requota
    { a with credit := a.credit + a.refillAmount amount, adjusted := adjustAdd a.adjusted (a.refillAmount amount) }

/-- The account after a SET_ACCOUNT (R158). -/
def Account.setTo (a : Account) (mode : Mode) (base lowWater credit : Nat) : Account :=
  Account.requota
    { a with mode := mode, base := base, lowWater := lowWater, credit := credit,
             adjusted := adjustAdd a.adjusted ((credit : Int) - (a.credit : Int)) }

end Sys2Proof.Machine
end

