-- ==== Sys2Proof/Machine/Ops.lean ====
section
/-! DEFINITION. The shared operations: writing the tables, the offer slots and queues, alarms and events, the mailbox, and the state changes of an entry that several chapters ask the roster for. -/

namespace Sys2Proof.Machine

/-! ### Writing the tables -/

/-- Write the entry at a handle. -/
def State.setEntry (s : State) (h : Nat) (e : Entry) : State := { s with roster := tableSet s.roster h e }

/-- Write the account at a handle. -/
def State.setAcct (s : State) (h : Nat) (a : Option Account) : State :=
  { s with um := { s.um with accounts := tableSet s.um.accounts h a } }

/-- Write the drift data at a handle. -/
def State.setDrift (s : State) (h : Nat) (d : Drift) : State :=
  { s with lw := { s.lw with drift := tableSet s.lw.drift h d } }

/-- Write the re-range phase at a handle. -/
def State.setPhase (s : State) (h : Nat) (p : Phase) : State := s.setDrift h { s.drift h with phase := p }

/-! ### Producer queues and offer slots (R176, R177) -/

/-- The queue of a producer, oldest first. -/
def LinePort.queue (p : LinePort) (who : Producer) : List Notice := p.queued.filter fun n => n.producer = who

/-- Queue a notice with its producer, behind those queued before it (R54, R103, R125, R191). -/
def State.queueNotice (s : State) (n : Notice) : State := { s with slp := { s.slp with queued := s.slp.queued ++ [n] } }

/-- Withdraw the notices a test picks out: removed at once, or marked when in transmission (R177). -/
def LinePort.withdraw (p : LinePort) (test : Notice → Bool) : LinePort :=
  { p with
    queued := p.queued.filter fun n => !test n
    presented := p.presented.filter fun n => !test n
    noticeSlot :=
      match p.noticeSlot with
      | none => none
      | some x =>
        if test x.notice then
          if p.transmitting = some .notice then some { x with withdrawn := true } else none
        else some x }

/-- Withdraw the notices a test picks out (R177). -/
def State.withdraw (s : State) (test : Notice → Bool) : State := { s with slp := s.slp.withdraw test }

/-- The Enrolment Engine's queue waits while the port is DETACHED (R59; log entry 40). -/
def LinePort.holdsBack (p : LinePort) (who : Producer) : Bool := who = .enrolment ∧ p.lineState = .detached

/-- One producer presents the oldest notice of its queue when none of its notices is with the port (R176) and it is not held back (R59). -/
def LinePort.presentOne (p : LinePort) (who : Producer) : LinePort :=
  if p.holds who || p.holdsBack who then p
  else
    match p.queued.find? fun n => n.producer = who with
    | none => p
    | some n => { p with queued := p.queued.eraseP fun n => n.producer = who, presented := p.presented ++ [n] }

/-- The notice slot takes the presented notice that waits longest (R176). -/
def LinePort.fillNotice (p : LinePort) : LinePort :=
  match p.noticeSlot, p.presented with
  | none, n :: rest => { p with noticeSlot := some { notice := n, withdrawn := false }, presented := rest }
  | none, [] => p
  | some _, _ => p

/-- All producers present, and the notice slot is filled (R176). -/
def LinePort.presentAll (p : LinePort) : LinePort :=
  ((((p.presentOne .enrolment).presentOne .transfer).presentOne .hunt).presentOne .loader).fillNotice

/-! ### Alarms, events and the report slot (R182 to R184) -/

/-- A report merged into a place: the new content, one raising more (R183). R183 does not say which repeat marker a place keeps when a raising and a repeat report merge; the model keeps the newest report's, a DESIGN CHOICE (log entry 45). -/
def AlarmPlace.merge (p : AlarmPlace) (content : AlarmContent) (repeated : Bool) : AlarmPlace :=
  { p with content := content, repeated := repeated, count := satAdd 255 p.count 1 }

/-- A place that has just become pending (R183). -/
def AlarmPlace.new (source : AlarmSource) (content : AlarmContent) (repeated : Bool) : AlarmPlace :=
  { source := source, content := content, repeated := repeated, count := 1, age := .fresh }

/-- The source's place is in the report slot (R183). -/
def LinePort.alarmInSlot (p : LinePort) (source : AlarmSource) : Bool :=
  match p.reportSlot with
  | none => false
  | some f =>
    match f.body with
    | .alarm place _ => place.source = source
    | .event _ _ => false

/-- The later report recorded behind the alarm in the slot (R183). -/
def LinePort.recordLater (p : LinePort) (source : AlarmSource) (content : AlarmContent) (repeated : Bool) : LinePort :=
  match p.reportSlot with
  | none => p
  | some f =>
    match f.body with
    | .event _ _ => p
    | .alarm place none => { p with reportSlot := some { f with body := .alarm place (some (AlarmPlace.new source content repeated)) } }
    | .alarm place (some l) => { p with reportSlot := some { f with body := .alarm place (some (l.merge content repeated)) } }

/-- A report placed at an alarm source: recorded behind the slot, merged into the pending place, or a new pending place (R183). -/
def State.placeReport (s : State) (source : AlarmSource) (content : AlarmContent) (repeated : Bool) : State :=
  if s.slp.alarmInSlot source then { s with slp := s.slp.recordLater source content repeated }
  else if s.rq.alarms.any fun p => p.source = source then
    { s with rq := { s.rq with
        alarms := s.rq.alarms.map fun p => if p.source = source then p.merge content repeated else p } }
  else { s with rq := { s.rq with alarms := s.rq.alarms ++ [AlarmPlace.new source content repeated] } }

/-- Stop the repeat timer of a condition that has ended (R182). -/
def State.endCondition (s : State) (source : AlarmSource) : State :=
  { s with rq := { s.rq with repeats := s.rq.repeats.filter fun r => r.source ≠ source } }

/-- Start the repeat timer of a condition (R182). -/
def State.startRepeat (s : State) (source : AlarmSource) (content : AlarmContent) : State :=
  { s with rq := { s.rq with
      repeats := (s.rq.repeats.filter fun r => r.source ≠ source) ++
        [{ source := source, remaining := Config.repeatCycles, content := content }] } }

/-- An alarm raised by its owning block, acted on by its kind's mode (R182). -/
def State.raiseAlarm (s : State) (source : AlarmSource) (content : AlarmContent) : State :=
  match s.img.alarmModes.get source.kind with
  | .off => s
  | .edge => s.placeReport source content false
  | .level =>
    let t := s.placeReport source content false
    if lastingKind source.kind then t.startRepeat source content else t

/-- An event raised: queued, or dropped with the dropped flag set when 16 are queued (R184). -/
def State.pushEvent (s : State) (e : Event) : State :=
  if s.rq.events.length < Config.eventPlaces then { s with rq := { s.rq with events := s.rq.events ++ [e] } }
  else { s with rq := { s.rq with dropped := true } }

/-- The places that became pending in this command form one group: the first leads, the others are tied to it (R183). -/
def ageAlarms : List AlarmPlace → Bool → List AlarmPlace
  | [], _ => []
  | p :: ps, seen =>
    if p.age = .fresh then { p with age := if seen then .tied else .lead } :: ageAlarms ps true
    else p :: ageAlarms ps seen

/-- The pending places that became pending at the earliest moment, less the first (R183). -/
def tiedPlaces (rest : List AlarmPlace) : List AlarmPlace := rest.takeWhile fun p => p.age = .tied

/-- The empty report slot takes the pending alarm place that became pending earliest (a free choice among those of one moment), and an event only when no place is pending (R183, R184). -/
def State.fillReport (s : State) : State :=
  match s.slp.reportSlot with
  | some _ => s
  | none =>
    match s.rq.alarms with
    | p :: rest =>
      if (tiedPlaces rest).isEmpty then
        { s with
          slp := { s.slp with reportSlot := some { number := s.rq.reportNumber, body := .alarm p none } }
          rq := { s.rq with alarms := rest, reportNumber := s.rq.reportNumber + 1 } }
      else
        let k := Config.choice s.choices % ((tiedPlaces rest).length + 1)
        { s with
          slp := { s.slp with
            reportSlot := some { number := s.rq.reportNumber, body := .alarm (((p :: rest)[k]?).getD p) none } }
          rq := { s.rq with alarms := (p :: rest).eraseIdx k, reportNumber := s.rq.reportNumber + 1 }
          choices := s.choices + 1 }
    | [] =>
      match s.rq.events with
      | [] => s
      | e :: _ =>
        { s with
          slp := { s.slp with reportSlot := some { number := s.rq.reportNumber, body := .event e s.rq.dropped } }
          rq := { s.rq with reportNumber := s.rq.reportNumber + 1 } }

/-! ### The usage slot (R168) -/

/-- The lowest handle whose account holds a snapshot (R168). -/
def State.nextRecord (s : State) : Option (Nat × Snapshot) :=
  handles.findSome? fun h => ((s.acct h).bind Account.snapshot).map fun sn => (h, sn)

/-- The empty usage slot takes the record of the pending snapshot at the lowest handle (R168). -/
def State.fillUsage (s : State) : State :=
  match s.slp.usageSlot with
  | some _ => s
  | none =>
    match s.nextRecord with
    | none => s
    | some (h, sn) =>
      { s with
        slp := { s.slp with
          usageSlot := some { handle := h, serial := (s.entry h).serial, channel := s.channel, content := sn,
                              number := s.rq.recordNumber, part := .first } }
        rq := { s.rq with recordNumber := s.rq.recordNumber + 1 } }

/-- The producers that are about to present a notice at this moment (R176). -/
def LinePort.presenters (p : LinePort) : List Producer :=
  [Producer.enrolment, .transfer, .hunt, .loader].filter fun who =>
    !p.holds who && !p.holdsBack who && !(p.queue who).isEmpty

/-- Where two producers or more present at one moment, which goes first is a free choice (R176; log entry 6). -/
def State.choosePresenter (s : State) : State :=
  match s.slp.presenters with
  | a :: b :: rest =>
    { s with
      slp := s.slp.presentOne (((a :: b :: rest)[Config.choice s.choices % (rest.length + 2)]?).getD a)
      choices := s.choices + 1 }
  | [_] => s
  | [] => s

/-- The order of the producers that present at one moment: three choices order four (R176; log entry 6). -/
def State.orderPresenters (s : State) : State :=
  if 2 ≤ s.slp.presenters.length then s.choosePresenter.choosePresenter.choosePresenter else s

/-- The notices that are left to present, and the age of the alarm places of this command (R176, R183). -/
def State.presentNotices (s : State) : State :=
  { s with slp := s.slp.presentAll, rq := { s.rq with alarms := ageAlarms s.rq.alarms false } }

/-- What every command ends with: notices are presented and the offer slots filled (R176, R183, R168; log entry 6). -/
def State.settle (s : State) : State := s.orderPresenters.presentNotices.fillReport.fillUsage

/-! ### The mailbox (R30 to R34) -/

/-- A message posted to an entry: taken, replacing one of equal or lower rank, or refused by a higher one (R31). -/
def Entry.post (e : Entry) (kind : MsgKind) : Entry :=
  match e.mailbox with
  | none =>
    { e with mailbox := some { kind := kind, seqBit := !e.seqBit, carried := 0, firstMap := none }, seqBit := !e.seqBit }
  | some m =>
    if kind.rank < m.kind.rank then e
    else if m.carried = 0 then
      { e with mailbox := some { kind := kind, seqBit := m.seqBit, carried := 0, firstMap := none } }
    else
      { e with mailbox := some { kind := kind, seqBit := !e.seqBit, carried := 0, firstMap := none }, seqBit := !e.seqBit }

/-- A message posted to the entry at a handle (R31). -/
def State.post (s : State) (h : Nat) (kind : MsgKind) : State := s.setEntry h ((s.entry h).post kind)

/-- An equalisation delay stored: clamped to the reach, and R set to T − E (R24). -/
def Entry.storeDelay (e : Entry) (img : Image) (d : Int) : Entry :=
  { e with eqDelay := some (clampDelay img d), roundTrip := some (Config.targetDelay - clampDelay img d) }

/-! ### Credit alarms (R147) -/

/-- Both credit conditions of a handle end (R147). -/
def State.endCredit (s : State) (h : Nat) : State :=
  (s.endCondition { kind := .creditLow, handle := h }).endCondition { kind := .creditExhausted, handle := h }

/-- The condition of the account's quota state starts, with its alarm (R147). -/
def State.startCredit (s : State) (h : Nat) : State :=
  match s.acct h with
  | none => s
  | some a =>
    match a.quota with
    | .opened => s
    | .low => s.raiseAlarm { kind := .creditLow, handle := h } (.credit (s.entry h).serial h a.credit a.lowWater)
    | .exhausted => s.raiseAlarm { kind := .creditExhausted, handle := h } (.credit (s.entry h).serial h a.credit a.lowWater)

/-- An open account changed: a change of its quota state ends the old condition and starts the new one (R146, R147). -/
def State.changeAcct (s : State) (h : Nat) (a : Account) : State :=
  let t := s.setAcct h (some a)
  if (s.acct h).map Account.quota = some a.quota then t else (t.endCredit h).startCredit h

/-! ### State changes of an entry -/

/-- A home's drift and loss conditions and its credit conditions end (R102, R38, R147). -/
def State.endConditions (s : State) (h : Nat) : State :=
  ((s.endCondition { kind := .homeDrift, handle := h }).endCondition { kind := .homeLost, handle := h }).endCredit h

/-- The booked sum loses the entry's term (R82). -/
def State.unbook (s : State) (h : Nat) : State :=
  { s with ua := { s.ua with booked := s.ua.booked - (s.entry h).bookedTerm } }

/-- A position whose handle is this one is dead from now on (R104). -/
def State.markDead (s : State) (h : Nat) : State :=
  { s with hu := { s.hu with
      frozen := s.hu.frozen.map fun p => if p.home.handle = h then { p with dead := true } else p } }

/-- An entry enters FREE: every field cleared, the account emptied, the drift data cleared, its conditions ended, its term unbooked, its hunt position dead (R45, R82, R87, R104). -/
def State.freeEntry (s : State) (h : Nat) : State :=
  (((((s.unbook h).setEntry h Entry.free).setAcct h none).setDrift h Drift.clear).markDead h).endConditions h

/-- The entry's fields on entering ACTIVE (R26). -/
def Entry.toActive (e : Entry) : Entry :=
  { e with
    state := .active, missed := 0, rangeAttempts := 0, recontact := 0, idle := 0, lostTimer := none, handover := none,
    holds := if e.state = .lost then { e.holds with drift := false } else e.holds }

/-- The entry's fields on entering LOST (R38). -/
def Entry.toLost (e : Entry) (lostTime : Nat) : Entry :=
  { e with
    state := .lost, losses := satAdd 255 e.losses 1, holds := { e.holds with drift := false }, mailbox := none,
    missed := 0, misplaced := 0, rangeAttempts := 0, recontact := 0, reRangeIdle := 0, reportQ := 0,
    lostTimer := some lostTime, handover := none }

/-- An entry enters LOST (R38): its re-range ends (R96) and HOME_LOST is raised. -/
def State.enterLost (s : State) (h : Nat) : State :=
  (((s.setEntry h ((s.entry h).toLost s.img.lostTime)).setPhase h .off).endCondition
      { kind := .homeDrift, handle := h }).raiseAlarm { kind := .homeLost, handle := h } (.homeLost (s.entry h).serial)

/-- The entry's fields on entering CLOSING (R43, R44), RELEASE posted where the cause has one. -/
def Entry.toClosing (e : Entry) (release : Bool) : Entry :=
  let c := { e with state := .closing, lostTimer := none, handover := none }
  if release then c.post .release else c

/-- The account of an entry entering CLOSING: the final charge where the record kind carries one, then the final snapshot (R159, R166). -/
def Account.finish (a : Account) (kind : RecordKind) (b : Band) (period : Nat) : Account :=
  if kind = .handoverOut then a.closeFinal kind period else (a.finalCharge b).closeFinal kind period

/-- An entry enters CLOSING with a record of this kind (R43): final charge, final snapshot, term unbooked, re-range and conditions ended. -/
def State.enterClosing (s : State) (h : Nat) (kind : RecordKind) (release : Bool) : State :=
  ((((s.unbook h).setAcct h ((s.acct h).map fun a => a.finish kind (s.bandAt s.um.band) s.um.period)).setEntry h
      ((s.entry h).toClosing release)).setPhase h .off).endConditions h

/-- An entry enters CLOSING with a RELEASED record and its event (R43). -/
def State.release (s : State) (h : Nat) (reason : ReleaseReason) (release : Bool) : State :=
  (s.enterClosing h (.released reason) release).pushEvent (.homeReleased (s.entry h).serial h reason)

/-- While DRAINING, an entry that has entered ACTIVE or LOST enters CLOSING in the same change, with a RESTART record and a RELEASE (R192). -/
def State.drainClose (s : State) (h : Nat) : State :=
  if s.draining ∧ ((s.entry h).state = .active ∨ (s.entry h).state = .lost) then s.enterClosing h .restart true else s

/-- An entry enters LOST, and closes at once while DRAINING (R38, R192). -/
def State.loseHome (s : State) (h : Nat) : State := (s.enterLost h).drainClose h

/-- The DRIFT hold set on an ACTIVE entry: SEEKING, attempts 0, HOME_DRIFT raised with the offset of the burst that made the count 3 (R93). The idle count of the re-range starts from the entry's (R95; log entry 42). -/
def State.setDriftHold (s : State) (h : Nat) : State :=
  let e := s.entry h
  ((s.setEntry h { e with holds := { e.holds with drift := true }, rangeAttempts := 0, reRangeIdle := e.idle }).setPhase h .seeking).raiseAlarm
    { kind := .homeDrift, handle := h } (.homeDrift e.serial h ((s.drift h).tripOffset.getD 0))

/-- The DRIFT hold cleared by the acknowledgement of the re-range's ADJUST (R95). R95 has the idle count grown throughout the re-range, so that the entry is polled at once, and R35 has it 0 at the RANGE windows and the clean bursts, this burst's among them: idle follows R35 in the re-range and takes the grown count here. DEDUCED (log entry 42). -/
def State.clearDriftHold (s : State) (h : Nat) : State :=
  let e := s.entry h
  ((s.setEntry h { e with holds := { e.holds with drift := false }, idle := e.reRangeIdle, reRangeIdle := 0 }).setPhase
    h .off).endCondition { kind := .homeDrift, handle := h }

/-- A LEAVING or TUNING entry returns to ACTIVE (R26). With missed at 8 it enters LOST at that moment (R37), with misplaced at 3 the DRIFT hold is set (R93); where both fall together the order is free (log entry 8). While DRAINING it closes at once (R192). -/
def State.returnActive (s : State) (h : Nat) : State :=
  let e := s.entry h
  let t := s.setEntry h e.toActive
  if e.missed < Config.missedLimit then
    if e.misplaced < 3 then t.drainClose h else (t.setDriftHold h).drainClose h
  else if e.misplaced < 3 then t.loseHome h
  else if Config.choice s.choices % 2 = 0 then { t.loseHome h with choices := s.choices + 1 }
  else { (t.setDriftHold h).loseHome h with choices := s.choices + 1 }

/-- HUNT cleared from every entry (R106, R114, R119). -/
def State.clearHunt (s : State) : State :=
  { s with roster := tableMap (fun _ e => { e with holds := { e.holds with hunt := false } }) s.roster }

/-- The stray condition ends (R98, R100). -/
def State.endStray (s : State) : State :=
  { s with lw := { s.lw with condition := false } }.endCondition { kind := .strayLight, handle := 0 }

/-- The stray history is emptied and the stray condition ends (R100). -/
def State.emptyHistory (s : State) : State :=
  State.endStray { s with lw := { s.lw with history := [] } }

/-! ### Admission and new entries (R22, R82 to R84) -/

/-- The admission check of an entry with this assured share: the booked sum with its term is at most the floor (R83, R84). Before an image is taken the floor holds 0, a DESIGN CHOICE, and no rule admits then (R86; log entry 41). -/
def State.admits (s : State) (assured : Nat) : Bool := s.ua.booked + term assured ≤ s.ua.floor

/-- The roster gives the FREE entry at a handle to a new holder, and its term is booked (R22, R82). -/
def State.takeEntry (s : State) (h : Nat) (e : Entry) : State :=
  { s.setEntry h e with ua := { s.ua with booked := s.ua.booked + term e.prof.assured } }

/-! ### Which notices a withdrawal names (R56, R127, R135 to R137) -/

/-- The CLAIM of a serial. -/
def isClaimOf (serial : Serial) : Notice → Bool
  | .claim sr _ => sr = serial
  | _ => false

/-- The OFFER of a serial. -/
def isOfferOf (serial : Serial) : Notice → Bool
  | .offer sr _ _ _ _ _ _ => sr = serial
  | _ => false

/-- The ACCEPT or TAKEN of a serial. -/
def isTargetNoticeOf (serial : Serial) : Notice → Bool
  | .accept sr _ _ => sr = serial
  | .taken sr _ => sr = serial
  | _ => false

/-- The ACCEPT of a serial. -/
def isAcceptOf (serial : Serial) : Notice → Bool
  | .accept sr _ _ => sr = serial
  | _ => false

/-- The ACCOUNT of a serial. -/
def isAccountOf (serial : Serial) : Notice → Bool
  | .account sr _ _ _ _ _ _ _ _ => sr = serial
  | _ => false

/-- The ACCOUNT or RECLAIM of a serial. -/
def isOldNoticeOf (serial : Serial) : Notice → Bool
  | .account sr _ _ _ _ _ _ _ _ => sr = serial
  | .reclaim sr _ => sr = serial
  | _ => false

/-- Any HUNT_READY. -/
def isReady : Notice → Bool
  | .huntReady _ _ _ _ => true
  | _ => false

/-- Any HUNT_OPEN. -/
def isOpen : Notice → Bool
  | .huntOpen _ => true
  | _ => false

/-! ### Resets -/

/-- Every block takes its power-on reset value and the straps are read (R187, R193). The queue of waiting commands and the model's own counter are not the part's. -/
def State.powerOn (s : State) (straps : Station) : State :=
  { State.reset with slp := LinePort.reset straps, choices := s.choices, pending := s.pending }

end Sys2Proof.Machine
end

