-- ==== Sys2Proof/Machine/Line.lean ====
section
/-! DEFINITION. The shelf line (chapter 10): carriage of own and other frames, contention, voids, detachment; and the delivery of usage records (chapter 9). -/

namespace Sys2Proof.Machine

/-! ### Carriage -/

/-- A frame of another station reached its void flag and this terminator did not drive it. -/
def State.lineHeard (s : State) : State := { s with ports := { s.ports with voidDriven := false } }

/-- An own frame is carried: the transmission ends, the void count becomes 0, and a detachment not yet reported is reported (R178), ahead of any event the frame itself raises, a DESIGN CHOICE: R184 gives no order (log entry 46). -/
def State.ownCarried (s : State) : State :=
  let t := { s with
    slp := { s.slp with transmitting := none, voidCount := 0, detachSpan := none }
    ports := { s.ports with voidDriven := false } }
  match s.slp.detachSpan with
  | none => t
  | some cycles => t.pushEvent (.lineDetached cycles)

/-- The own notice in transmission is this one (R174). -/
def State.sending (s : State) (n : Notice) : Bool :=
  s.slp.transmitting = some .notice && (s.slp.noticeSlot.any fun x => x.notice = n)

/-- The own notice is carried: its slot is emptied (R174). LINE_DETACHED is queued before the blocks act on the notice (log entry 46). -/
def State.noticeCarried (s : State) : State :=
  State.ownCarried { s with slp := { s.slp with noticeSlot := none } }

/-- The own notice's producer had withdrawn it before it was carried (R177). -/
def State.slotWithdrawn (s : State) : Bool := s.slp.noticeSlot.any SlotNotice.withdrawn

/-- A carried notice: an own one empties its slot, then the blocks act on it (R174). An own carriage that is not of the frame in transmission is no event of the part (log entry 1). -/
def hearNotice (src : Source) (n : Notice) (act : State → State) (s : State) : Host.Outcome State Fault Refusal :=
  if s.resetHeld then .next s
  else
    match src with
    | .own => if s.sending n then .next (act s.noticeCarried).settle else .next s
    | .other _ => .next (act s.lineHeard).settle

/-- CARRIED_IGNORED_FRAME (R173): heard and ignored by every block. -/
def execCarriedIgnoredFrame (_cls : BitVec 3) (_sender : Station) (_kind : BitVec 4) (s : State) :
    Host.Outcome State Fault Refusal :=
  if s.resetHeld then .next s else .next s.lineHeard

/-- FRAME_CHECK_FAILED (R174): the terminator drives the void flag while ATTACHED, and no block acts on the frame (R178). A frame that passes its check is not this event (log entry 1). -/
def execFrameCheckFailed (f : RawFrame) (s : State) : Host.Outcome State Fault Refusal :=
  if s.resetHeld then .next s
  else if frameGood f then .next s
  else .next { s with ports := { s.ports with voidDriven := s.slp.lineState = .attached } }

/-! ### Contention (R172, R176) -/

/-- The place of a notice's kind in the list of R175. -/
def Notice.kindIndex : Notice → Nat
  | .claim _ _ => 0
  | .held _ _ => 1
  | .offer _ _ _ _ _ _ _ => 2
  | .accept _ _ _ => 3
  | .refuse _ _ _ => 4
  | .account _ _ _ _ _ _ _ _ _ => 5
  | .taken _ _ => 6
  | .reclaim _ _ => 7
  | .huntOpen _ => 8
  | .huntJoin _ _ _ => 9
  | .huntStep _ _ _ => 10
  | .huntReady _ _ _ _ => 11
  | .huntClose _ _ => 12
  | .present _ _ => 13

/-- The place of a request's kind in the table of R180. -/
def RequestKind.kindIndex : RequestKind → Nat
  | .setProfile => 0
  | .setAccount => 1
  | .refill => 2
  | .move => 3
  | .remove => 4
  | .hold => 5
  | .queryHome => 6
  | .listHomes => 7
  | .setTariff => 8
  | .fixTariff => 9
  | .setDiscovery => 10
  | .startHunt => 11
  | .restart => 12
  | .band => 13
  | .closePeriod => 14
  | .setFreeLabels => 15

/-- The place of a report's kind among the eight alarms, the six events and the fault report (R175). -/
def ReportBody.kindIndex : ReportBody → Nat
  | .alarm p _ =>
    match p.source.kind with
    | .strayLight => 0
    | .homeDrift => 1
    | .homeLost => 2
    | .creditLow => 3
    | .creditExhausted => 4
    | .rogueFound => 5
    | .huntEnded => 6
    | .duplicateSerial => 7
  | .event e _ =>
    match e with
    | .homeActive _ _ _ => 8
    | .homeMoved _ _ _ _ _ => 9
    | .homeReleased _ _ _ => 10
    | .outOfReach _ _ _ => 11
    | .rosterFull _ _ => 12
    | .lineDetached _ => 13
    | .faultReport _ _ => 14

/-- The class of a slot's frames (R173). -/
def Slot.cls : Slot → Nat
  | .notice => 0
  | .result => 2
  | .report => 3
  | .usage => 4

/-- The kind code of the frame in a slot: 1 and 2 for the parts of a record, a free value otherwise (R175; log entry 9). -/
def State.kindCode (s : State) : Slot → BitVec 4
  | .notice =>
    match s.slp.noticeSlot with
    | none => 0
    | some x => Config.kindCode 0 x.notice.kindIndex
  | .result =>
    match s.rq.results with
    | [] => 0
    | r :: _ => Config.kindCode 1 r.kind.kindIndex
  | .report =>
    match s.slp.reportSlot with
    | none => 0
    | some f => Config.kindCode 3 f.body.kindIndex
  | .usage =>
    match s.slp.usageSlot with
    | none => 0
    | some f =>
      match f.part with
      | .first => 1
      | .second => 2

/-- What a report frame carries (R183, R184). A later report recorded behind an alarm is no part of its frame. -/
def ReportBody.sent : ReportBody → FrameData
  | .alarm p _ => .alarm p.source.kind p.content p.repeated p.count
  | .event e dropped => .event e dropped

/-- The fields of the usage frame now in the slot (R175). -/
def UsageFrame.fields (f : UsageFrame) : UsageFields :=
  match f.part with
  | .first =>
    .first f.content.kind f.serial f.channel f.content.mode f.content.firstPeriod f.content.lastPeriod f.content.opening
      f.content.closing f.content.adjusted f.content.rolled
  | .second => .second f.content.counters

/-- Destination 0xFF: all terminators (R173). -/
def toAll : Byte := 0xFF

/-- What stands in a slot, as the frame that is sent: a notice goes to all with tag 0, a result to its requester with the request's tag, a report and a record to all with their number (R175). -/
def State.frameAt (s : State) (slot : Slot) : Option LineFrame :=
  let frame (dest tag : Byte) (data : FrameData) : LineFrame :=
    { cls := slot.cls, sender := s.slp.station, kind := s.kindCode slot, dest := dest, tag := tag, data := data }
  match slot with
  | .notice => s.slp.noticeSlot.map fun x => frame toAll 0 (.notice x.notice)
  | .result => s.rq.results.head?.map fun r => frame (r.requester.setWidth 8) r.tag (.result r.code r.data)
  | .report => s.slp.reportSlot.map fun f => frame toAll f.number f.body.sent
  | .usage => s.slp.usageSlot.map fun f => frame toAll f.number (.usage f.fields)

/-- The frame this terminator is sending on the line (R172, R175). -/
def State.lineOut (s : State) : Option LineFrame := s.slp.transmitting.bind s.frameAt

/-- Class and sender of an identifier as one number, class first (R173). -/
def classSender (cls : Nat) (station : Station) : Nat := cls * 16 + station.toNat

/-- The port completes its identifier without losing: the lowest identifier wins, class, then sender, then kind (R172, R173). Equal identifiers, of stations strapped alike, both go on. -/
def State.wins (s : State) (slot : Slot) (rival : BitVec 11) : Bool :=
  let own := classSender slot.cls s.slp.station
  let other := rival.toNat / 16
  if own = other then s.kindCode slot ≤ BitVec.ofNat 4 rival.toNat else own < other

/-- LINE_IDLE_CONTEND (R176): the port contends with its strongest frame, and begins transmission or loses (R172). -/
def execLineIdleContend (rival : Option (BitVec 11)) (s : State) : Host.Outcome State Fault Refusal :=
  if s.resetHeld then .next s
  else if s.sends = true ∧ s.slp.transmitting = none then
    match s.strongestSlot with
    | none => .next s
    | some slot =>
      if (rival.all fun r => s.wins slot r) = true then .next { s with slp := { s.slp with transmitting := some slot } }
      else .next s
  else .next s

/-! ### Voids and detachment (R177, R178) -/

/-- A claim is dropped (R56): its entry FREE, its place freed, its notice removed or withdrawn. -/
def State.dropClaim (s : State) (serial : Serial) (h : Nat) : State :=
  let t := s.freeEntry h
  State.withdraw
    { t with ee := { t.ee with
        captures := t.ee.captures.map fun c =>
          match c with
          | none => none
          | some k => if (k.claim.any fun p => p.handle = h) = true then none else some k } }
    (isClaimOf serial)

/-- Every claim whose CLAIM is not yet carried is dropped (R59). -/
def State.dropUncarried (s : State) : State :=
  s.ee.captures.foldl (fun t c =>
    match c with
    | none => t
    | some k =>
      match k.claim with
      | none => t
      | some p => if p.carried then t else t.dropClaim k.serial p.handle) s

/-- The port enters DETACHED at the 32nd void in a row: the detach timer starts, the span not yet reported runs from its first entry, and the Enrolment Engine drops its uncarried claims (R178, R59). -/
def State.detachIfDue (s : State) : State :=
  if s.slp.voidCount < Config.voidLimit then s
  else
    State.dropUncarried { s with slp := { s.slp with
      lineState := .detached, detachTimer := some Config.detachCycles,
      detachSpan := some (s.slp.detachSpan.getD 0) } }

/-- A withdrawn notice whose transmission ended void is removed; a TAKEN withdrawn at the start of draining then frees its TAKING entry (R177, R140). -/
def State.removeWithdrawn (s : State) : State :=
  match s.slp.noticeSlot with
  | none => s
  | some x =>
    if x.withdrawn then
      let t := { s with slp := { s.slp with noticeSlot := none } }
      match x.notice with
      | .taken serial _ =>
        match s.find serial with
        | none => t
        | some h => if s.draining ∧ (s.entry h).state = .taking then t.freeEntry h else t
      | _ => t
    else s

/-- OWN_FRAME_VOIDED (R178): the void count advances, the frame stands for resending unless its withdrawal was marked, and at 32 the port detaches. -/
def execOwnFrameVoided (droveVoid : Bool) (s : State) : Host.Outcome State Fault Refusal :=
  if s.resetHeld then .next s
  else
    match s.slp.transmitting with
    | none => .next s
    | some slot =>
      let t := { s with
        slp := { s.slp with transmitting := none, voidCount := satAdd Config.voidLimit s.slp.voidCount 1 }
        ports := { s.ports with voidDriven := droveVoid } }
      .next (State.detachIfDue (if slot = .notice then t.removeWithdrawn else t)).settle

/-- DETACH_TIMER_EXPIRY (R178): ATTACHED again with the void count 0; the notices that waited for it are presented (R59). -/
def execDetachTimerExpiry (s : State) : Host.Outcome State Fault Refusal :=
  if s.resetHeld then .next s
  else if s.slp.lineState = .detached ∧ dueTimer s.slp.detachTimer = true then
    .next (State.settle { s with slp := { s.slp with lineState := .attached, voidCount := 0, detachTimer := none } })
  else .next s

/-! ### Reports and usage records -/

/-- The report frame leaves the slot: an alarm's place becomes idle, or pending with its later report; an event leaves the queue, and a marked one clears the dropped flag (R183, R184). -/
def State.reportGone (s : State) (f : ReportFrame) : State :=
  let t := { s with slp := { s.slp with reportSlot := none } }
  match f.body with
  | .alarm _ none => t
  | .alarm _ (some l) => { t with rq := { t.rq with alarms := t.rq.alarms ++ [{ l with age := .fresh }] } }
  | .event _ marked =>
    { t with rq := { t.rq with events := t.rq.events.tail, dropped := if marked then false else t.rq.dropped } }

/-- REPORT_CARRIED (R183, R184). An event in the slot frees its place of the 16, and a marked one clears the dropped flag, before a detachment not yet reported queues LINE_DETACHED (R178): a DESIGN CHOICE, since the spec gives no order between the two (log entry 46). -/
def execReportCarried (s : State) : Host.Outcome State Fault Refusal :=
  if s.resetHeld then .next s
  else
    match s.slp.transmitting, s.slp.reportSlot with
    | some .report, some f => .next (s.reportGone f).ownCarried.settle
    | _, _ => .next s

/-- USAGE_FIRST_PART_CARRIED (R176): the second part takes the slot. -/
def execUsageFirstPartCarried (s : State) : Host.Outcome State Fault Refusal :=
  if s.resetHeld then .next s
  else
    match s.slp.transmitting, s.slp.usageSlot with
    | some .usage, some f =>
      match f.part with
      | .first =>
        .next (State.ownCarried { s with slp := { s.slp with usageSlot := some { f with part := .second } } }).settle
      | .second => .next s
    | _, _ => .next s

/-- The Usage Meter hears its record carried: the carried content leaves the snapshot, and a CLOSING entry whose final record is done becomes FREE (R169, R44). -/
def State.recordCarried (s : State) (f : UsageFrame) : State :=
  let t := { s with slp := { s.slp with usageSlot := none } }
  match s.acct f.handle with
  | none => t
  | some a =>
    match a.snapshot with
    | none => t
    | some sn =>
      let left := sn.afterCarriage f.content
      let u := t.setAcct f.handle (some { a with snapshot := left })
      if left = none ∧ f.content.kind ≠ .period ∧ (s.entry f.handle).state = .closing then u.freeEntry f.handle else u

/-- USAGE_RECORD_CARRIED (R169): the second part of a record is carried. -/
def execUsageRecordCarried (s : State) : Host.Outcome State Fault Refusal :=
  if s.resetHeld then .next s
  else
    match s.slp.transmitting, s.slp.usageSlot with
    | some .usage, some f =>
      match f.part with
      | .second => .next (s.recordCarried f).ownCarried.settle
      | .first => .next s
    | _, _ => .next s

end Sys2Proof.Machine
end

