-- ==== Sys2Proof/Machine/Allocation.lean ====
section
/-! DEFINITION. Upstream allocation (chapter 4), the RANGE arbiter and the layout of the window list (chapter 1), as functions of the state when the build begins. -/

namespace Sys2Proof.Machine

/-! ### What the ring tells (R12) -/

/-- The windows of the ring, each with its map's number. -/
def State.ringWindows (s : State) : List Window := s.cb.ring.flatMap MapRecord.windows

/-- The window is outstanding for the entry at its handle (R12). -/
def State.outstandingFor (s : State) (h : Nat) (w : Window) : Bool :=
  w.outstanding && w.handle = h && (w.serial.isSome && w.serial = (s.entry h).serial)

/-- out_h: the payload words of the DATA windows outstanding for the entry (R12, R69). -/
def State.outstandingGrant (s : State) (h : Nat) : Nat :=
  ((s.ringWindows.filter fun w => w.kind = .data ∧ s.outstandingFor h w = true).map
    fun w => w.length - Config.overheadWords).sum

/-- A RANGE window is outstanding for the entry (R20). -/
def State.rangeOutstanding (s : State) (h : Nat) : Bool :=
  s.ringWindows.any fun w => w.kind = .range ∧ s.outstandingFor h w = true

/-! ### Fixed windows (R3, R19, R20, R48, R71) -/

/-- The DISCOVER window is due in map n (R48). -/
def State.discoverDue (s : State) (n : CycleNo) : Bool :=
  s.ee.discoveryEnable && s.img.pDisc ≠ 0 && n.toNat % s.img.pDisc = 0 && !s.hu.role.taken && s.operating

/-- The QUIET window is due in map n: every Q_period maps, and in every map of an owner (R3). -/
def State.quietDue (s : State) (n : CycleNo) : Bool := n.toNat % s.img.qPeriod = 0 || s.hu.role.isOwner

/-- The requester class of the entry at a handle, whose re-contact count has been advanced for this map (R19, R39). -/
def State.requesterClass (s : State) (h : Nat) : Option Nat :=
  let e := s.entry h
  if e.state = .arriving ∧ (e.handover.all fun c => c.burstInHand = false) then some 1
  else if e.state = .confirming then some 2
  else if e.holds.drift = true ∧ (s.drift h).phase ≠ .off then some 3
  else if e.state = .lost ∧ e.recontact = Config.recontactMaps then some 4
  else none

/-- The entry is a requester of this class: no RANGE window outstanding, and no hold but DRIFT (R20). -/
def State.requester (s : State) (cls h : Nat) : Bool :=
  s.requesterClass h = some cls && !s.rangeOutstanding h && !(s.entry h).holds.darken

/-- The requesters served: class by class, ascending within a class, two at most (R19). -/
def State.rangeServed (s : State) : List Nat :=
  ([1, 2, 3, 4].flatMap fun cls => handles.filter fun h => s.requester cls h).take 2

/-- A window before it is laid out: kind, handle, length. -/
abbrev Planned := WindowKind × Nat × Nat

/-- The fixed windows of map n, in the order of the layout (R7, R71). -/
def State.fixedWindows (s : State) (n : CycleNo) : List Planned :=
  (if s.discoverDue n then [(.discover, 0, s.img.wDisc)] else []) ++
  (if s.quietDue n then [(.quiet, 0, s.img.qLen)] else []) ++
  s.rangeServed.map fun h => (.range, h, Config.rangeWords)

/-- The cost of planned windows: their lengths and guards. -/
def planCost (ws : List Planned) : Nat := (ws.map fun w => w.2.2 + Config.guardWords).sum

/-- C_data: the capacity for data of map n (R71). -/
def State.dataCapacity (s : State) (n : CycleNo) : Nat := Config.cycleWords - planCost (s.fixedWindows n)

/-! ### Stages 1 and 2 (R67 to R78) -/

/-- What the computation reads of an eligible entry that is not starved (R67). -/
structure AllocIn where
  handle : Nat
  weight : Nat
  demand : Nat
  idle : Nat
  assuredCap : Nat
  peakCap : Nat
  deriving DecidableEq, Repr

/-- An entry with its grants so far: stage 1, pass A, pass B. -/
structure Grant where
  input : AllocIn
  g : Nat
  x : Nat
  y : Nat
  deriving DecidableEq, Repr

/-- The quota state the allocation reads (R70). -/
def State.exhausted (s : State) (h : Nat) : Bool := (s.acct h).map Account.quota = some .exhausted

/-- The entry is starved: EXHAUSTED while L is below 4 (R70). -/
def State.starved (s : State) (h : Nat) : Bool := s.exhausted h && s.img.lifeline < Config.minPayload

/-- The effective assured A′ (R70). -/
def State.assuredCap (s : State) (h : Nat) : Nat :=
  if s.exhausted h then min (s.entry h).prof.assured s.img.lifeline else (s.entry h).prof.assured

/-- The effective peak P′ (R70). -/
def State.peakCap (s : State) (h : Nat) : Nat := if s.exhausted h then s.img.lifeline else (s.entry h).prof.peak

/-- D_h: the reported backlog less what is outstanding (R69). -/
def State.demand (s : State) (h : Nat) : Nat := (s.entry h).reportQ - s.outstandingGrant h

/-- The eligible entries that are not starved, in ascending handle order (R68, R70). -/
def State.allocInputs (s : State) : List AllocIn :=
  (handles.filter fun h => (s.entry h).eligible = true ∧ s.starved h = false).map fun h =>
    { handle := h, weight := (s.entry h).prof.weight, demand := s.demand h, idle := (s.entry h).idle,
      assuredCap := s.assuredCap h, peakCap := s.peakCap h }

/-- The stage-1 grant: the assured share of the demand, 4 words at least, or a poll (R72, R73). -/
def stage1 (kPoll : Nat) (i : AllocIn) : Nat :=
  let g := min i.demand i.assuredCap
  if g = 0 then (if kPoll ≤ i.idle + 1 then Config.minPayload else 0)
  else if g < Config.minPayload then Config.minPayload
  else g

/-- The cost of opening or extending a window by `grant` words on top of `before` (R72, R77, R78). -/
def grantCost (before grant : Nat) : Nat :=
  if grant = 0 then 0 else if before = 0 then grant + Config.dataCost else grant

/-- u_h, the remaining need after stage 1 (R75). -/
def Grant.need (r : Grant) : Nat := min r.input.demand r.input.peakCap - r.g

/-- The order of stage 2: from the smallest candidate handle above ρ, ascending, wrapping (R76). -/
def rotate (rho : Nat) (cs : List Grant) : List Grant :=
  (cs.filter fun r => rho < r.input.handle) ++ (cs.filter fun r => r.input.handle ≤ rho)

/-- The pass-A grant of a candidate (R77). -/
def passA (s0 weight : Nat) (r : Grant) : Nat :=
  let share := s0 * r.input.weight / weight
  if r.g = 0 then
    let x := min r.need (share - Config.dataCost)
    if x < Config.minPayload then 0 else x
  else min r.need share

/-- The pass-B grant of a candidate with S1 words left (R78). -/
def passB (s1 : Nat) (r : Grant) : Nat :=
  let rest := r.need - r.x
  if r.g + r.x = 0 then
    if s1 < 20 then 0
    else
      let y := min rest (s1 - Config.dataCost)
      if y < Config.minPayload then 0 else y
  else min rest s1

/-- Pass B over the candidates in order, S1 falling by each cost (R78). -/
def runPassB : Nat → List Grant → List Grant
  | _, [] => []
  | s1, r :: rs =>
    let y := passB s1 r
    { r with y := y } :: runPassB (s1 - grantCost (r.g + r.x) y) rs

/-- Stage 2 over the ordered candidates (R75 to R78). -/
def stage2 (s0 : Nat) (order : List Grant) : List Grant :=
  let weight := (order.map fun r => r.input.weight).sum
  let withA := order.map fun r => { r with x := passA s0 weight r }
  let costA := (withA.map fun r => grantCost r.g r.x).sum
  runPassB (s0 - costA) withA

/-- The grants of a map: the total payload of each handle granted, and the new ρ (R72 to R79). -/
def allocate (kPoll rho capacity : Nat) (inputs : List AllocIn) : List (Nat × Nat) × Nat :=
  let grants := inputs.map fun i => { input := i, g := stage1 kPoll i, x := 0, y := 0 : Grant }
  let s0 := capacity - (grants.map fun r => grantCost 0 r.g).sum
  let order := rotate rho (grants.filter fun r => 0 < r.need)
  let final :=
    if s0 < 20 then grants
    else (grants.filter fun r => r.need = 0) ++ stage2 s0 order
  let rho' :=
    if s0 < 20 then rho
    else match order with
      | [] => rho
      | r :: _ => r.input.handle
  let total (h : Nat) : Nat := ((final.filter fun r => r.input.handle = h).map fun r => r.g + r.x + r.y).sum
  (((handles.map fun h => (h, total h)).filter fun p => 0 < p.2), rho')

/-- The allocation of map n (R67). -/
def State.allocation (s : State) (n : CycleNo) : List (Nat × Nat) × Nat :=
  allocate s.img.kPoll s.ua.rho (s.dataCapacity n) s.allocInputs

/-! ### Layout (R7, R79) -/

/-- The planned windows of map n: the fixed windows, then one DATA window for each grant (R7, R79). -/
def State.planned (s : State) (n : CycleNo) : List Planned :=
  s.fixedWindows n ++ (s.allocation n).1.map fun p => (.data, p.1, p.2 + Config.overheadWords)

/-- The windows laid out from a word on, each followed by its guard (R7), with the serial recorded (R10). -/
def layOut (serialOf : Nat → Option Serial) : Nat → List Planned → List Window
  | _, [] => []
  | p, (kind, h, len) :: rest =>
    { kind := kind, handle := h, start := p, length := len, serial := serialOf h, outstanding := true } ::
      layOut serialOf (p + len + Config.guardWords) rest

/-- The window list of map n (R6). -/
def State.windowList (s : State) (n : CycleNo) : List Window :=
  layOut (fun h => (s.entry h).serial) 0 (s.planned n)

end Sys2Proof.Machine
end

