-- ==== Sys2Proof/Machine/Upstream.lean ====
section
/-! DEFINITION. The upstream path of a DATA or RANGE observation (R17): the Cycle Builder, the Light Watch (chapter 5), the roster (chapter 2), the engines that own the entry's state (chapters 3 and 7), the Usage Meter (chapter 8); and the downstream gate (R153). -/

namespace Sys2Proof.Machine

/-! ### The window an observation names (R13) -/

/-- The window is the one named. -/
def Window.isRef (w : Window) (r : WindowRef) : Bool := w.kind = r.kind && w.handle = r.handle && w.start = r.start

/-- The outstanding window an observation names, in a map of the ring (R12, R13). -/
def State.findWindow (s : State) (r : WindowRef) : Option Window :=
  (s.cb.ring.find? fun m => m.number = r.map).bind fun m => m.windows.find? fun w => w.isRef r && w.outstanding

/-- The map reached its upstream cycle: it governs the present cycle, or the one that has just ended (R11, R13; log entry 29). -/
def State.observable (s : State) (r : WindowRef) : Bool :=
  cyclesSince s.cb.cycle r.map = 2 || cyclesSince s.cb.cycle r.map = 3

/-- An arrival point the window can take: its delimiter ends between the window's start and its close (R13). -/
def Window.spans (w : Window) (d : Int) : Bool :=
  -(8 * (Config.overheadWords : Int)) ≤ d ∧ d < 8 * ((w.length : Int) + Config.guardWords - Config.overheadWords)

/-- An observation of a DATA or RANGE window that its span allows (R13). -/
def BurstObs.inSpan (w : Window) : BurstObs → Bool
  | .clean d _ _ _ _ => w.spans d
  | .garbled => true
  | .dark => true

/-- An observation of a DISCOVER window that its span allows (R13). -/
def DiscoverObs.inSpan (w : Window) : DiscoverObs → Bool
  | .clean rs => rs.all fun r => w.spans r.arrival
  | .garbled => true
  | .dark => true

/-- The outstanding flag of the window is cleared (R13). -/
def State.clearOutstanding (s : State) (r : WindowRef) : State :=
  { s with cb := { s.cb with
      ring := s.cb.ring.map fun m =>
        if m.number = r.map then
          { m with windows := m.windows.map fun w => if w.isRef r then { w with outstanding := false } else w }
        else m } }

/-! ### Classification (R88) -/

/-- The classification handed on (R88). -/
inductive Classified where
  | clean (offset : Int) (ack : Bool) (report : Nat) (packets : List UpPacket)
  | garbled
  | dark
  deriving DecidableEq, Repr

/-- A burst whose header names another handle is NONE for the window's owner (R88, R89). -/
def classify (h : Nat) : BurstObs → Classified
  | .clean d header ack q ps => if header = h then .clean d ack q ps else .dark
  | .garbled => .garbled
  | .dark => .dark

/-! ### The roster's part (R32, R35, R37) -/

/-- A clean burst acknowledges the pending message (R32): carried, not RELEASE, in a window of its first map carried or a later one, with its sequence bit. -/
def Entry.acknowledges (e : Entry) (map : CycleNo) (ack : Bool) : Option MsgKind :=
  match e.mailbox with
  | none => none
  | some m =>
    match m.firstMap with
    | none => none
    | some f =>
      if m.kind ≠ .release ∧ 1 ≤ m.carried ∧ cyclesSince map f < 2 ^ 31 ∧ ack = m.seqBit then some m.kind else none

/-- What a clean burst of the home leaves in the entry: the report, idle 0, missed 0 in a served state (R35, R37; log entry 18). -/
def Entry.heard (e : Entry) (report : Nat) : Entry :=
  { e with reportQ := report, idle := 0, missed := if e.state.served then 0 else e.missed }

/-- The effect of an acknowledgement on the entry: the mailbox is emptied, and an ADJUST's argument is stored (R32). -/
def Entry.takeAck (e : Entry) (img : Image) : Option MsgKind → Entry
  | none => e
  | some (.adjust d) => { e with mailbox := none }.storeDelay img d
  | some (.assign _ _ _) => { e with mailbox := none }
  | some (.tune _ _) => { e with mailbox := none }
  | some .release => e

/-! ### Confirmation (R60, R61) -/

/-- An open account at the handle, with its alarm condition if it opens EXHAUSTED (R144, R147). -/
def State.openAccount (s : State) (h : Nat) : State :=
  (s.setAcct h (some (Account.opening s.img.defaultMode s.um.period))).startCredit h

/-- A success: ACTIVE, E − d stored, ADJUST posted where it differs from the ASSIGN's E, the account opened, HOME_ACTIVE raised; closed at once while DRAINING (R61, R64). -/
def State.confirmed (s : State) (h : Nat) (d : Int) : State :=
  let e := s.entry h
  let e' := e.toActive.storeDelay s.img ((e.eqDelay.getD 0 : Nat) - d)
  let e'' := if e'.eqDelay = e.eqDelay then e' else e'.post (.adjust (e'.eqDelay.getD 0))
  ((State.openAccount (s.setEntry h e'') h).pushEvent (.homeActive e.serial h (e'.eqDelay.getD 0))).drainClose h

/-- A window without success: one attempt more, and FREE at the third (R60). -/
def State.confirmAttempt (s : State) (h : Nat) : State :=
  let e := s.entry h
  if e.rangeAttempts + 1 < Config.confirmAttempts then s.setEntry h { e with rangeAttempts := e.rangeAttempts + 1 }
  else s.freeEntry h

/-- A clean RANGE burst of a CONFIRMING entry (R60): a success needs |d| ≤ 24 and the ASSIGN acknowledged, that is, out of the mailbox. -/
def State.confirmBurst (s : State) (h : Nat) (d : Int) : State :=
  if d.natAbs ≤ 24 ∧ (s.entry h).mailbox = none then s.confirmed h d else s.confirmAttempt h

/-! ### Arrival (R132, R133) -/

/-- With burst and account both in hand the entry enters TAKING, the inbound timer stops and TAKEN is queued (R133). -/
def State.tryTaking (s : State) (h : Nat) : State :=
  let e := s.entry h
  match e.handover, e.serial with
  | some c, some serial =>
    if c.burstInHand ∧ c.accountInHand then
      (s.setEntry h { e with state := .taking, handover := some { c with timer := none } }).queueNotice
        (.taken serial s.channel)
    else s
  | some _, none => s
  | none, _ => s

/-- A clean RANGE burst of an ARRIVING entry, judged when no ADJUST is pending (R132). -/
def State.arrivalBurst (s : State) (h : Nat) (d : Int) : State :=
  let e := s.entry h
  if (e.mailbox.any Message.isAdjust) = true then s
  else
    let target := clampDelay s.img ((e.eqDelay.getD 0 : Nat) - d)
    if d.natAbs ≤ 24 then
      let stored := e.storeDelay s.img ((e.eqDelay.getD 0 : Nat) - d)
      let posted := if stored.eqDelay = e.eqDelay then stored else stored.post (.adjust target)
      (s.setEntry h { posted with handover := posted.handover.map fun c => { c with burstInHand := true } }).tryTaking h
    else s.setEntry h (e.post (.adjust target))

/-! ### Re-contact (R40) -/

/-- A clean burst in a re-contact window: ACTIVE, the HOME_LOST condition ended (R40); closed at once while DRAINING (R192). -/
def State.recontacted (s : State) (h : Nat) : State :=
  ((s.setEntry h (s.entry h).toActive).endCondition { kind := .homeLost, handle := h }).drainClose h

/-! ### Packets (R152) -/

/-- One upstream packet counted at an account, rated at the band in force (R152, R154). -/
def State.countUpPacket (s : State) (h : Nat) (p : UpPacket) : State :=
  match s.acct h with
  | none => s
  | some a => s.changeAcct h (a.countUp (freeUp s.um.freeLabels p.label) p.bytes (s.bandAt s.um.band).priceUp)

/-- The packets of a clean DATA burst: those that pass their own check are counted and passed on in a served state, and discarded otherwise (R18, R152). -/
def State.takePackets (s : State) (h : Nat) (ps : List UpPacket) : State :=
  if (s.entry h).state.served then
    let good := ps.filter UpPacket.intact
    let t := good.foldl (fun t p => t.countUpPacket h p) s
    { t with ports := { t.ports with trafficOut := good } }
  else s

/-! ### TUNE acknowledged (R130) -/

/-- The entry becomes HANDED, its account is frozen, ACCOUNT is queued (R130, R147). -/
def State.handOver (s : State) (h : Nat) : State :=
  let e := s.entry h
  let t := (s.setEntry h { e with state := .handed }).endCredit h
  match s.acct h, e.serial with
  | some a, some serial =>
    t.queueNotice (.account serial s.channel a.mode a.credit a.base a.lowWater a.residueUp a.residueDown a.periodFirst)
  | some _, none => t
  | none, _ => t

/-! ### The Light Watch's judgement (R90 to R95) -/

/-- A clean burst's offset, and the trip offset where it makes the misplaced count 3 (R88, R93). -/
def State.noteOffset (s : State) (h : Nat) (d : Int) : State :=
  s.setDrift h { s.drift h with lastOffset := some d }

/-- An offset of 5 to 24 steps is corrected by an ADJUST, unless one is pending or the argument is the stored E (R92). -/
def Entry.correct (e : Entry) (img : Image) (d : Int) : Entry :=
  let target := clampDelay img ((e.eqDelay.getD 0 : Nat) - d)
  if (e.mailbox.any Message.isAdjust) = true ∨ e.eqDelay = some target then e else e.post (.adjust target)

/-- Judgement by offset (R91), with the DRIFT hold at the third misplaced burst of an ACTIVE entry (R93). -/
def State.judgeOffset (s : State) (h : Nat) (d : Int) : State :=
  let e := s.entry h
  if d.natAbs ≤ 4 then s.setEntry h { e with misplaced := 0 }
  else if d.natAbs ≤ 24 then s.setEntry h ({ e with misplaced := 0 }.correct s.img d)
  else
    let m := min 3 (e.misplaced + 1)
    let t := s.setEntry h { e with misplaced := m }
    let u := if e.misplaced = 2 then t.setDrift h { t.drift h with tripOffset := some d } else t
    if m = 3 ∧ e.state = .active then u.setDriftHold h else u

/-- The measurement of a re-range: ADJUST(clamp(E − d)) posted whatever is pending, SETTLING, misplaced 0 (R94). -/
def State.measureDrift (s : State) (h : Nat) (d : Int) : State :=
  let e := s.entry h
  (s.setEntry h ({ e with misplaced := 0 }.post (.adjust (clampDelay s.img ((e.eqDelay.getD 0 : Nat) - d))))).setPhase h
    .settling

/-- The message acknowledged is an ADJUST. -/
def ackIsAdjust : Option MsgKind → Bool
  | some (.adjust _) => true
  | some (.assign _ _ _) => false
  | some (.tune _ _) => false
  | some .release => false
  | none => false

/-- The timing judgement of a clean burst, by the state the entry came from and the one it now holds (R90, R94, R95). -/
def State.judge (s : State) (h : Nat) (before : HomeState) (kind : WindowKind) (acked : Option MsgKind) (d : Int) : State :=
  let e := s.entry h
  match e.state with
  | .active =>
    if before = .confirming then s.setEntry h { e with misplaced := 0 }
    else
      match (s.drift h).phase with
      | .off => s.judgeOffset h d
      | .seeking => if kind = .range then s.measureDrift h d else s
      | .settling => if ackIsAdjust acked then (s.clearDriftHold h).judgeOffset h d else s
  | .leaving => s.judgeOffset h d
  | .tuning => s.judgeOffset h d
  | .free => s
  | .claiming => s
  | .confirming => s
  | .handed => s
  | .arriving => s
  | .taking => s
  | .lost => s
  | .closing => s

/-! ### The whole path (R17) -/

/-- What a RANGE burst brings the entry's state (R36). -/
def State.rangeBurst (s : State) (h : Nat) (d : Int) : State :=
  match (s.entry h).state with
  | .confirming => s.confirmBurst h d
  | .arriving => s.arrivalBurst h d
  | .lost => s.recontacted h
  | .active => s
  | .leaving => s
  | .tuning => s
  | .free => s
  | .claiming => s
  | .handed => s
  | .taking => s
  | .closing => s

/-- A clean burst of the entry's home, stage by stage: last offset, roster, state change, packets, TUNE, judgement (R17, R88, R90, R130). -/
def State.cleanBurst (s : State) (h : Nat) (map : CycleNo) (kind : WindowKind) (d : Int) (ack : Bool) (report : Nat)
    (ps : List UpPacket) : State :=
  let e := s.entry h
  let acked := e.acknowledges map ack
  let t := (s.noteOffset h d).setEntry h ((e.heard report).takeAck s.img acked)
  let u : State := if kind = .range then t.rangeBurst h d else t.takePackets h ps
  let v : State :=
    match acked with
    | some (.tune _ _) => if (u.entry h).state = .tuning then u.handOver h else u
    | some (.adjust _) => u
    | some (.assign _ _ _) => u
    | some .release => u
    | none => u
  v.judge h e.state kind acked d

/-- A RANGE window without a clean burst: an attempt of a confirmation or of a re-range (R23, R60, R94, R95). -/
def State.rangeMissed (s : State) (h : Nat) : State :=
  let e := s.entry h
  if e.state = .confirming then s.confirmAttempt h
  else if e.state = .active ∧ (s.drift h).phase ≠ .off then
    let t := s.setEntry h { e with rangeAttempts := min Config.rerangeAttempts (e.rangeAttempts + 1) }
    if e.rangeAttempts + 1 < Config.rerangeAttempts then t else t.loseHome h
  else s

/-- A DATA window without a clean burst advances the watchdog in a served state; at 8 an ACTIVE entry enters LOST (R37). -/
def State.dataMissed (s : State) (h : Nat) : State :=
  let e := s.entry h
  if e.state.served then
    let t := s.setEntry h { e with missed := min Config.missedLimit (e.missed + 1) }
    if e.state = .active ∧ Config.missedLimit ≤ e.missed + 1 then t.loseHome h else t
  else s

/-- The observation is stale: the entry at the handle is FREE or holds another serial (R17). -/
def State.stale (s : State) (h : Nat) (w : Window) : Bool :=
  (s.entry h).state = .free || (s.entry h).serial ≠ w.serial

/-- The later stages of an observation whose outstanding flag has been cleared (R17). -/
def State.observeBurst (s : State) (r : WindowRef) (w : Window) (o : BurstObs) : State :=
  if s.stale r.handle w then s
  else
    match classify r.handle o with
    | .clean d ack report ps => s.cleanBurst r.handle r.map r.kind d ack report ps
    | .garbled => if r.kind = .range then s.rangeMissed r.handle else s.dataMissed r.handle
    | .dark => if r.kind = .range then s.rangeMissed r.handle else s.dataMissed r.handle

/-- DATA_RANGE_OBSERVATION (R17). A burst outside the span of its window is no observation of it (R13; log entry 1). -/
def execDataRangeObservation (r : WindowRef) (o : BurstObs) (s : State) : Host.Outcome State Fault Refusal :=
  if s.resetHeld then .next s
  else if s.observable r ∧ (r.kind = .data ∨ r.kind = .range) then
    match s.findWindow r with
    | none => .next s
    | some w =>
      if BurstObs.inSpan w o then
        let t := s.clearOutstanding r
        .next (State.observeBurst { t with ports := { t.ports with trafficOut := [] } } r w o).settle
      else .next s
  else .next s

/-! ### The downstream gate (R153) -/

/-- The gate forwards a packet: the entry is served, and its account is not EXHAUSTED or the label is free downstream (R153). -/
def State.gateOpen (s : State) (h label : Nat) : Bool :=
  (s.entry h).state.served && (s.acct h).isSome &&
    (!s.exhausted h || freeDown s.um.freeLabels label)

/-- DOWNSTREAM_PACKET (R153): forwarded and counted at the gate, or discarded uncounted. -/
def execDownstreamPacket (h label bytes : Nat) (s : State) : Host.Outcome State Fault Refusal :=
  if s.resetHeld then .next s
  else
    match s.acct h with
    | none => .next { s with ports := { s.ports with opticalOut := none } }
    | some a =>
      if s.gateOpen h label then
        let t := s.changeAcct h (a.countDown (freeDown s.um.freeLabels label) bytes (s.bandAt s.um.band).priceDown)
        let p : DownPacket := { handle := h, label := label, bytes := bytes }
        .next (State.settle { t with ports := { t.ports with
          opticalOut := some p, downstream := t.ports.downstream ++ [.packet p] } })
      else .next { s with ports := { s.ports with opticalOut := none } }

end Sys2Proof.Machine
end

