-- ==== Sys2Proof/Machine/Enrolment.lean ====
section
/-! DEFINITION. Enrolment (chapter 3): captures from a DISCOVER observation, the claim on the line, the end of the claim hold. -/

namespace Sys2Proof.Machine

/-! ### Captures (R50 to R53) -/

/-- The place of the capture list is replaced. -/
def State.setPlace (s : State) (i : Nat) (c : Option Capture) : State :=
  { s with ee := { s.ee with captures := s.ee.captures.set i c } }

/-- The capture a reply makes (R50). -/
def captureOf (r : Reply) : Capture :=
  { serial := r.serial, arrival := r.arrival, delayIndex := r.delayIndex, claim := none }

/-- The free places, in order. -/
def freePlaces (places : List (Option Capture)) : List Nat :=
  (List.range places.length).filter fun i => (places[i]?).getD none = none

/-- The round trip a capture gives: R_low + a − 512 × k (R52). -/
def replyRoundTrip (r : Reply) (rLow : Nat) : Int := (rLow : Int) + r.arrival - 512 * (r.delayIndex : Int)

/-- The entry a claim starts with (R53): CLAIMING, the capture's serial, R and E, the image's default profile. -/
def claimEntry (img : Image) (serial : Serial) (roundTrip : Int) : Entry :=
  { Entry.free.storeDelay img (Config.targetDelay - roundTrip) with
    state := .claiming, serial := some serial, profile := some img.defaultProfile }

/-- The claim start of a capture in reach: the three conditions in order (R53). -/
def State.startClaim (s : State) (i : Nat) (r : Reply) : State :=
  if (s.find r.serial).isSome then s.setPlace i none
  else
    match s.freeHandle with
    | none => (s.setPlace i none).pushEvent (.rosterFull r.serial .noEntry)
    | some h =>
      if s.admits s.img.defaultProfile.assured then
        ((s.takeEntry h (claimEntry s.img r.serial (replyRoundTrip r s.img.rLow))).setPlace i
            (some { captureOf r with claim := some { handle := h, carried := false, holdTimer := none } })).queueNotice
          (.claim r.serial s.channel)
      else (s.setPlace i none).pushEvent (.rosterFull r.serial .overbook)

/-- A capture is judged: the reach check, then the claim start (R52, R53). -/
def State.judgeCapture (s : State) (p : Nat × Reply) : State :=
  let round := replyRoundTrip p.2 s.img.rLow
  if round < s.img.rLow ∨ (s.img.rHigh : Int) < round then
    (s.setPlace p.1 none).pushEvent (.outOfReach p.2.serial p.2.delayIndex round)
  else s.startClaim p.1 p.2

/-- The four conditions under which captures are taken (R51). -/
def State.captures (s : State) : Bool :=
  s.ee.discoveryEnable && !s.hu.role.taken && s.operating && s.slp.lineState = .attached

/-- The free places are filled from the front of the reply list, then the captures taken are judged in order (R51). -/
def State.takeReplies (s : State) (replies : List Reply) : State :=
  let placed := (freePlaces s.ee.captures).zip replies
  placed.foldl State.judgeCapture (placed.foldl (fun t p => t.setPlace p.1 (some (captureOf p.2))) s)

/-- What the Enrolment Engine takes of a DISCOVER observation (R15, R51). -/
def State.discovered (s : State) (o : DiscoverObs) : State :=
  match o with
  | .clean replies => if s.captures then s.takeReplies replies else s
  | .garbled => s
  | .dark => s

/-- DISCOVER_OBSERVATION (R13, R51): the window's outstanding flag is cleared and the engine takes the replies. A reply outside the span of its window is no observation of it (R13; log entry 1). -/
def execDiscoverObservation (r : WindowRef) (o : DiscoverObs) (s : State) : Host.Outcome State Fault Refusal :=
  if s.resetHeld then .next s
  else if s.observable r ∧ r.kind = .discover then
    match s.findWindow r with
    | none => .next s
    | some w => .next (if DiscoverObs.inSpan w o then ((s.clearOutstanding r).discovered o).settle else s)
  else .next s

/-! ### The claim (R54 to R58) -/

/-- The claim part of the capture whose entry is at the handle. -/
def State.claimAt (s : State) (h : Nat) : Option ClaimPart :=
  s.ee.captures.findSome? fun c => c.bind fun k => k.claim.bind fun p => if p.handle = h then some p else none

/-- The own CLAIM is carried: the claim notice of a capture whose entry is still CLAIMING becomes CARRIED and the claim hold starts (R54). -/
def State.claimCarried (s : State) (serial : Serial) : State :=
  let mark (c : Option Capture) : Option Capture := c.map fun k =>
    match k.claim with
    | none => k
    | some p =>
      if k.serial = serial ∧ p.carried = false ∧ (s.entry p.handle).state = .claiming ∧
          (s.entry p.handle).serial = some serial then
        { k with claim := some { p with carried := true, holdTimer := some s.img.claimHold } }
      else k
  { s with ee := { s.ee with captures := s.ee.captures.map mark } }

/-- DUPLICATE_SERIAL raised for the entry at a handle, with the other channel (R65). -/
def State.raiseDuplicate (s : State) (h : Nat) (serial : Serial) (other : Nat) : State :=
  s.raiseAlarm { kind := .duplicateSerial, handle := h } (.duplicateSerial serial s.channel other (s.entry h).state)

/-- HELD answers a CLAIM for a home this terminator holds, unless a HELD for the serial already waits (R55). -/
def State.answerHeld (s : State) (h : Nat) (serial : Serial) (other : Nat) : State :=
  if s.slp.stands (.held serial s.channel) then s
  else
    ((s.setEntry h { s.entry h with duplicates := satAdd 255 (s.entry h).duplicates 1 }).queueNotice
        (.held serial s.channel)).raiseDuplicate h serial other

/-- Another station's CLAIM, answered by the state of the entry for the serial (R55). -/
def State.claimHeard (s : State) (serial : Serial) (other : Nat) : State :=
  match s.find serial with
  | none => s
  | some h =>
    match (s.entry h).state with
    | .claiming => if (s.claimAt h).any ClaimPart.carried then s else s.dropClaim serial h
    | .confirming => s.answerHeld h serial other
    | .active => s.answerHeld h serial other
    | .leaving => s.answerHeld h serial other
    | .tuning => s.answerHeld h serial other
    | .handed => s.answerHeld h serial other
    | .arriving => s.answerHeld h serial other
    | .taking => s.answerHeld h serial other
    | .lost => s.release h .claimedElsewhere false
    | .closing => s
    | .free => s

/-- CLAIM carried (R54, R55). -/
def execClaim (src : Source) (serial : Serial) (channel : Nat) (s : State) : Host.Outcome State Fault Refusal :=
  hearNotice src (.claim serial channel)
    (fun t => match src with
      | .own => t.claimCarried serial
      | .other _ => t.claimHeard serial channel) s

/-- Another station's HELD, taken by the state of the entry for the serial (R57). -/
def State.heldHeard (s : State) (serial : Serial) (holder : Nat) : State :=
  match s.find serial with
  | none => s
  | some h =>
    match (s.entry h).state with
    | .claiming => s.dropClaim serial h
    | .confirming => s.freeEntry h
    | .active => s.raiseDuplicate h serial holder
    | .leaving => s.raiseDuplicate h serial holder
    | .tuning => s.raiseDuplicate h serial holder
    | .handed => s.raiseDuplicate h serial holder
    | .arriving => s.raiseDuplicate h serial holder
    | .taking => s.raiseDuplicate h serial holder
    | .lost => s.raiseDuplicate h serial holder
    | .closing => s
    | .free => s

/-- HELD carried (R57): the engine ignores its own. -/
def execHeld (src : Source) (serial : Serial) (channel : Nat) (s : State) : Host.Outcome State Fault Refusal :=
  hearNotice src (.held serial channel)
    (fun t => match src with
      | .own => t
      | .other _ => t.heldHeard serial channel) s

/-- The capture's place of the claim at a handle is freed. -/
def State.freePlaceOf (s : State) (h : Nat) : State :=
  { s with ee := { s.ee with
      captures := s.ee.captures.map fun c =>
        if (c.any fun k => k.claim.any fun p => p.handle = h) then none else c } }

/-- The entry enters CONFIRMING and ASSIGN is posted (R58). -/
def Entry.toConfirming (e : Entry) (serial : Serial) (h : Nat) : Entry :=
  Entry.post { e with state := .confirming, rangeAttempts := 0 } (.assign serial h (e.eqDelay.getD 0))

/-- The claim hold is over (R58); while DRAINING the entry returns to FREE instead (R64). -/
def State.claimHeldOut (s : State) (h : Nat) (serial : Serial) : State :=
  let t := s.freePlaceOf h
  if s.draining then t.freeEntry h else t.setEntry h ((s.entry h).toConfirming serial h)

/-- CLAIM_HOLD_EXPIRY (R58) of the claim at a handle. -/
def execClaimHoldExpiry (h : Nat) (s : State) : Host.Outcome State Fault Refusal :=
  if s.resetHeld then .next s
  else
    match s.claimAt h, (s.entry h).serial with
    | some p, some serial =>
      if dueTimer p.holdTimer = true ∧ (s.entry h).state = .claiming then .next (s.claimHeldOut h serial).settle
      else .next s
    | some _, none => .next s
    | none, _ => .next s

end Sys2Proof.Machine
end

