-- ==== Sys2Proof/Machine/Cycle.lean ====
section
/-! DEFINITION. The start of a cycle (chapter 1): the count, the timers, the map that reaches its cycle, the build of the map; and the failure and dropping of mailbox messages (R33). -/

namespace Sys2Proof.Machine

/-! ### The timers (R1) -/

/-- One cycle start on the timers of an entry. -/
def Entry.tick (e : Entry) : Entry :=
  { e with lostTimer := tickTimer e.lostTimer, handover := e.handover.map fun c => { c with timer := tickTimer c.timer } }

/-- One cycle start on the claim hold timer of a capture. -/
def Capture.tick (c : Capture) : Capture :=
  { c with claim := c.claim.map fun p => { p with holdTimer := tickTimer p.holdTimer } }

/-- One cycle start on the owner's timers. -/
def Role.tick : Role → Role
  | .owner o => .owner { o with joinTimer := tickTimer o.joinTimer, readyTimer := tickTimer o.readyTimer }
  | .noRole => .noRole
  | .participant => .participant

/-- Every timer of the part counts the start of a cycle, and the cycle number advances modulo 2^32 (R1). -/
def State.tick (s : State) : State :=
  { s with
    cb := { s.cb with cycle := s.cb.cycle + 1 }
    roster := tableMap (fun _ e => e.tick) s.roster
    ee := { s.ee with captures := s.ee.captures.map fun c => c.map Capture.tick }
    hu := { s.hu with guardTimer := tickTimer s.hu.guardTimer, role := s.hu.role.tick }
    slp := { s.slp with detachTimer := tickTimer s.slp.detachTimer, detachSpan := s.slp.detachSpan.map (· + 1) }
    rq := { s.rq with repeats := s.rq.repeats.map fun r => { r with remaining := r.remaining - 1 } }
    il := { s.il with drainTimer := tickTimer s.il.drainTimer, listenTimer := tickTimer s.il.listenTimer } }

/-! ### The map that reaches its cycle (R11, R115) -/

/-- The map of this number is in the ring. -/
def State.inRing (s : State) (n : CycleNo) : Bool := s.cb.ring.any fun m => m.number = n

/-- Map m − 2 reaches its upstream cycle at the start of cycle m (R11); the READY that waits for it is queued (R115). -/
def State.reachMap (s : State) : State :=
  let n := s.cb.cycle - 2
  if s.inRing n then
    let t := { s with cb := { s.cb with reached := some n } }
    match s.hu.awaiting, s.hu.huntId with
    | some w, some id =>
      if w.map = n then
        State.queueNotice { t with hu := { t.hu with awaiting := none } } (.huntReady id s.channel w.step w.named)
      else t
    | some _, none => t
    | none, _ => t
  else { s with cb := { s.cb with reached := none } }

/-! ### The build (R5 to R10, R33, R35, R39) -/

/-- The re-contact count of a LOST entry advances first, stopping at 16 (R39). -/
def Entry.advanceRecontact (e : Entry) : Entry :=
  if e.state = .lost then { e with recontact := satAdd Config.recontactMaps e.recontact 1 } else e

/-- The re-contact counts of the roster advance (R39). -/
def State.advanceRecontacts (s : State) : State :=
  { s with roster := tableMap (fun _ e => e.advanceRecontact) s.roster }

/-- The dark list: the darkened handles, ascending (R8). -/
def State.darkList (s : State) : List Nat := handles.filter fun h => (s.entry h).dark

/-- The control message an entry's mailbox puts in a map built now: an ASSIGN is addressed by serial (R9, R33). -/
def State.carriedMessage (s : State) (h : Nat) : Option CarriedMsg :=
  match (s.entry h).mailbox with
  | none => none
  | some m =>
    if m.carriedNow then
      some { handle := h,
             bySerial := match m.kind with
               | .assign serial _ _ => some serial
               | .adjust _ => none
               | .tune _ _ => none
               | .release => none,
             kind := m.kind, seqBit := m.seqBit }
    else none

/-- Map n, as the state stands when the build begins (R5, R6). -/
def State.mapFor (s : State) (n : CycleNo) : MapRecord :=
  { number := n, windows := s.windowList n, dark := s.darkList, messages := handles.filterMap s.carriedMessage,
    preDelay := if s.discoverDue n then some (Config.targetDelay - s.img.rLow) else none }

/-- A carried message has one more map behind it; its first map is recorded (R33). -/
def Message.advance (m : Message) (n : CycleNo) : Message :=
  if m.carriedNow then { m with carried := m.carried + 1, firstMap := some (m.firstMap.getD n) } else m

/-- What the build of map n changes in an entry: its mailbox (R33), its idle count (R35), the count of its re-range (R28, R95; log entry 42), its re-contact count when served (R39). -/
def Entry.afterBuild (e : Entry) (n : CycleNo) (granted served : Bool) : Entry :=
  if e.state = .free then e
  else
    { e with
      mailbox := e.mailbox.map fun m => m.advance n
      idle := if granted then 0 else satAdd 255 e.idle 1
      reRangeIdle := if e.reRanging then satAdd 255 e.reRangeIdle 1 else e.reRangeIdle
      recontact := if served && e.state = .lost then 0 else e.recontact }

/-- The ring takes a map and keeps the four most recent (R10). -/
def ringPush (ring : List MapRecord) (m : MapRecord) : List MapRecord :=
  (ring ++ [m]).drop (ring.length + 1 - 4)

/-- The window as it is sent (R6). -/
def Window.sent (w : Window) : SentWindow := { kind := w.kind, handle := w.handle, start := w.start, length := w.length }

/-- The map as it is sent (R6). -/
def MapRecord.sent (m : MapRecord) : SentMap :=
  { number := m.number, windows := m.windows.map Window.sent, dark := m.dark, messages := m.messages, preDelay := m.preDelay }

/-- Map n is built: transmitted downstream ahead of the packets of its cycle, and placed in the ring (R5, R6). -/
def State.buildMap (s : State) (n : CycleNo) : State :=
  let t := s.advanceRecontacts
  let m := t.mapFor n
  { t with
    cb := { t.cb with ring := ringPush t.cb.ring m }
    ports := { t.ports with downstream := [.map m.sent] }
    ua := { t.ua with rho := (t.allocation n).2 }
    roster := tableMap (fun h e => e.afterBuild n (m.windows.any fun w => w.handle = h) (t.rangeServed.contains h)) t.roster }

/-- A cycle begins with nothing sent downstream in it (R6; log entry 31). -/
def State.emptyDownstream (s : State) : State := { s with ports := { s.ports with downstream := [] } }

/-- Maps are built in OPERATING and DRAINING (R5). -/
def State.builds (s : State) : Bool := s.operating || s.draining

/-- CYCLE_START (R1): the count and the timers, the map that reaches its cycle, and the build. -/
def execCycleStart (s : State) : Host.Outcome State Fault Refusal :=
  if s.resetHeld then .next s
  else
    let t := s.tick.reachMap.emptyDownstream
    .next (if t.builds then t.buildMap t.cb.cycle else t).settle

/-! ### Messages (R33) -/

/-- The message fails at the start of the third cycle after its sixteenth map; carried in every map from its first, that map is the first and 15 more (R33; log entries 2 and 30). -/
def Message.failureDue (m : Message) (now : CycleNo) : Bool :=
  match m.firstMap with
  | none => false
  | some f => m.kind ≠ .release && m.carried = Config.messageMaps && 17 ≤ cyclesSince now f

/-- The poster of a failed message acts (R33): ADJUST returns a SETTLING re-range to SEEKING (R95), ASSIGN frees the entry (R62), TUNE queues RECLAIM and stops the timer (R131). -/
def State.messageFailed (s : State) (h : Nat) (kind : MsgKind) : State :=
  let e := s.entry h
  let t := s.setEntry h { e with mailbox := none }
  match kind with
  | .adjust _ => if (s.drift h).phase = .settling then t.setPhase h .seeking else t
  | .assign _ _ _ => if e.state = .confirming then t.freeEntry h else t
  | .tune _ _ =>
    match e.state, e.handover, e.serial with
    | .tuning, some c, some serial =>
      (t.setEntry h { e with mailbox := none, handover := some { c with timer := none, reclaim := some .tuneFailed } }).queueNotice
        (.reclaim serial s.channel)
    | _, _, _ => t
  | .release => t

/-- MESSAGE_FAILURE (R33) at a handle. -/
def execMessageFailure (h : Nat) (s : State) : Host.Outcome State Fault Refusal :=
  if s.resetHeld then .next s
  else
    match (s.entry h).mailbox with
    | none => .next s
    | some m => .next (if m.failureDue s.cb.cycle then (s.messageFailed h m.kind).settle else s)

/-- RELEASE_DROPPED (R33): the fourth map to carry it has been built. -/
def execReleaseDropped (h : Nat) (s : State) : Host.Outcome State Fault Refusal :=
  if s.resetHeld then .next s
  else
    match (s.entry h).mailbox with
    | none => .next s
    | some m =>
      .next (if m.kind = .release ∧ Config.releaseMaps ≤ m.carried then
        (s.setEntry h { s.entry h with mailbox := none }).settle else s)

end Sys2Proof.Machine
end

