-- ==== Sys2Proof/Machine/HuntUnit.lean ====
section
/-! DEFINITION. The stray history (chapter 5) and the rogue hunt (chapter 6): the flag and its guard, opening, joining, the steps, the owner's strategy, closing. -/

namespace Sys2Proof.Machine

/-! ### Opening (R107, R109, R110) -/

/-- HUNT_OPEN is offered when a suspicion, a request or a re-test asks for it and the four conditions hold (R107). -/
def State.openHunt (s : State) : State :=
  if s.hu.role = .noRole ∧ s.hu.flag = none ∧ s.hu.opening = false ∧ s.operating = true then
    State.queueNotice { s with hu := { s.hu with opening := true, openCount := s.hu.openCount + 1 } }
      (.huntOpen { station := s.slp.station, count := s.hu.openCount })
  else s

/-- A suspicion handed on by the Light Watch with the role NONE: held back while another hunt runs, or an opening (R107). -/
def State.suspect (s : State) : State :=
  if s.hu.flag.isSome then { s with hu := { s.hu with deferred := true } } else s.openHunt

/-- The re-test of the stray history (R99). -/
def State.retest (s : State) : Bool := s.img.sThr ≤ lightCount s.lw.history

/-- A deferred suspicion is taken up when the flag has cleared (R110). -/
def State.takeDeferred (s : State) : State :=
  if s.hu.deferred then
    let t := { s with hu := { s.hu with deferred := false } }
    if s.retest then t.openHunt else t
  else s

/-- The own offer is withdrawn and the suspicion deferred, because another hunt was heard of first (R108). -/
def State.yieldOpening (s : State) : State :=
  if s.hu.opening then
    State.withdraw { s with hu := { s.hu with opening := false, deferred := true } } isOpen
  else s

/-- The flag is set with a hunt id and the guard starts (R105). -/
def State.setFlag (s : State) (id : HuntId) : State :=
  { s with hu := { s.hu with flag := some id, guardTimer := some Config.guardCycles } }

/-! ### Joining (R111) -/

/-- The states whose entries are frozen into a candidate list (R111). -/
def HomeState.frozen : HomeState → Bool
  | .active => true
  | .leaving => true
  | .tuning => true
  | .lost => true
  | .free => false
  | .claiming => false
  | .confirming => false
  | .handed => false
  | .arriving => false
  | .taking => false
  | .closing => false

/-- The candidate list as it is frozen now: every position live (R104, R111). -/
def State.candidates (s : State) : List Position :=
  (handles.filter fun h => (s.entry h).state.frozen).map fun h =>
    { home := { handle := h, serial := (s.entry h).serial.getD 0 }, dead := false }

/-- The owner's part at the opening of its hunt (R108). -/
def OwnerPart.opening : OwnerPart :=
  { phase := .collecting, participants := [], joinTimer := some Config.joinCycles, readyTimer := none, step := 0,
    selector := .noChannel, tally := 0, lightSeen := false, guiltyChannel := none, guiltyPart := none, found := none,
    stepsCarried := 0 }

/-- Joining a hunt in a role: the list is frozen, the stray condition ends, HUNT_JOIN is queued (R98, R111). -/
def State.join (s : State) (id : HuntId) (role : Role) : State :=
  (State.endStray
      { s with hu := { s.hu with role := role, huntId := some id, frozen := s.candidates } }).queueNotice
    (.huntJoin id s.channel s.candidates.length)

/-- The own HUNT_OPEN is carried while the flag is clear: OWNER, and it joins its own hunt (R108). A terminator that is DRAINING by then becomes OWNER and does not join (R111; log entry 19). -/
def State.ownOpen (s : State) (id : HuntId) : State :=
  let t := s.setFlag id
  let u := { t with hu := { t.hu with opening := false } }
  if s.hu.role = .noRole then
    if s.operating then u.join id (.owner OwnerPart.opening)
    else State.endStray { u with hu := { u.hu with role := .owner OwnerPart.opening, huntId := some id } }
  else u

/-- Another station's HUNT_OPEN is carried while the flag is clear: the own offer yields, and an OPERATING terminator joins (R105, R108, R111). -/
def State.otherOpen (s : State) (id : HuntId) : State :=
  let t := (s.setFlag id).yieldOpening
  if s.operating = true ∧ s.hu.role = .noRole then t.join id .participant else t

/-- HUNT_OPEN carried (R105, R108, R111). -/
def execHuntOpen (src : Source) (id : HuntId) (s : State) : Host.Outcome State Fault Refusal :=
  hearNotice src (.huntOpen id)
    (fun t =>
      if t.hu.flag.isSome then t
      else match src with
        | .own => t.ownOpen id
        | .other _ => t.otherOpen id) s

/-! ### Collecting joins (R112) -/

/-- Replace the owner's part. -/
def State.setOwner (s : State) (o : OwnerPart) : State := { s with hu := { s.hu with role := .owner o } }

/-- The owner records a join of its hunt (R112): while COLLECTING, a channel once, four at most. -/
def OwnerPart.record (o : OwnerPart) (channel count : Nat) : OwnerPart :=
  if o.phase = .collecting ∧ o.joinTimer.isSome = true ∧ o.participants.length < 4 ∧
      (o.participants.any fun p => p.channel = channel) = false then
    { o with participants := o.participants ++ [{ channel := channel, count := count, ready := false }] }
  else o

/-- A HUNT_JOIN of the owner's hunt (R112). -/
def State.joinHeard (s : State) (id : HuntId) (channel count : Nat) : State :=
  match s.hu.role with
  | .owner o => if s.hu.flag = some id then s.setOwner (o.record channel count) else s
  | .noRole => s
  | .participant => s

/-- HUNT_JOIN carried (R112). -/
def execHuntJoin (src : Source) (id : HuntId) (channel count : Nat) (s : State) : Host.Outcome State Fault Refusal :=
  hearNotice src (.huntJoin id channel count) (fun t => t.joinHeard id channel count) s

/-- The owner queues a HUNT_STEP with the next step number (R118). -/
def State.queueStep (s : State) (id : HuntId) (o : OwnerPart) (sel : Selector) : State :=
  (s.setOwner { o with phase := .stepping, step := o.step + 1, selector := sel }).queueNotice
    (.huntStep id (o.step + 1) sel)

/-- The owner queues a HUNT_CLOSE (R118). -/
def State.queueClose (s : State) (id : HuntId) (o : OwnerPart) (outcome : HuntOutcome) : State :=
  (s.setOwner { o with phase := .closing }).queueNotice (.huntClose id outcome)

/-- The join timer has expired (R112): the baseline step, or an ABANDONED close where none joined. An owner that is DRAINING queues nothing (R122; log entry 21). -/
def State.joinsOver (s : State) (id : HuntId) (o : OwnerPart) : State :=
  let stopped := { o with joinTimer := none }
  if s.draining then s.setOwner stopped
  else if o.participants.isEmpty then s.queueClose id stopped .abandoned
  else s.queueStep id stopped .noChannel

/-- JOIN_TIMER_EXPIRY (R112). -/
def execJoinTimerExpiry (s : State) : Host.Outcome State Fault Refusal :=
  if s.resetHeld then .next s
  else
    match s.hu.role, s.hu.huntId with
    | .owner o, some id =>
      .next (if o.phase = .collecting ∧ dueTimer o.joinTimer = true then (s.joinsOver id o).settle else s)
    | .owner _, none => .next s
    | .noRole, _ => .next s
    | .participant, _ => .next s

/-! ### Steps (R113 to R115) -/

/-- The handles a selector darkens here: the live positions of the named part of the frozen list, on the own channel only (R114). -/
def State.darkened (s : State) (sel : Selector) : List Nat :=
  match sel with
  | .noChannel => []
  | .part c level index =>
    if c = s.channel then
      ((partOf s.hu.frozen level index).filter fun p => !p.dead).map fun p => p.home.handle
    else []

/-- HUNT is set on these handles and cleared from every other (R114). -/
def State.setHunt (s : State) (hs : List Nat) : State :=
  { s with roster := tableMap (fun h e => { e with holds := { e.holds with hunt := hs.contains h } }) s.roster }

/-- The home the READY of this step names: the one position of a part of size 1 of the own channel (R115). -/
def State.namedHome (s : State) (sel : Selector) : Option HomeRef :=
  match sel with
  | .noChannel => none
  | .part c level index =>
    if c = s.channel ∧ partSize s.hu.frozen.length level index = 1 then
      (s.hu.frozen[partStart s.hu.frozen.length level index]?).map Position.home
    else none

/-- A participant applies a step at once: the holds, the READY of an earlier step withdrawn, the next map awaited (R114). -/
def State.applyStep (s : State) (k : Nat) (sel : Selector) : State :=
  let t := (s.setHunt (s.darkened sel)).withdraw isReady
  { t with hu := { t.hu with awaiting := some { step := k, map := s.cb.cycle + 1, named := s.namedHome sel } } }

/-- The owner hears its own step carried: the ready flags clear, the READY timer runs, WAITING (R116). -/
def OwnerPart.stepCarried (o : OwnerPart) : OwnerPart :=
  { o with phase := .waiting, readyTimer := some Config.readyCycles, stepsCarried := o.stepsCarried + 1,
           participants := o.participants.map fun p => { p with ready := false } }

/-- The owner's own step (R116). -/
def State.ownStep (s : State) (src : Source) : State :=
  match src, s.hu.role with
  | .own, .owner o => s.setOwner o.stepCarried
  | .own, .noRole => s
  | .own, .participant => s
  | .other _, _ => s

/-- A HUNT_STEP of the flag's hunt: the guard restarts, except at a participant in DRAINING, and whoever takes part applies it, except in DRAINING (R105, R114, R122). -/
def State.stepHeard (s : State) (src : Source) (k : Nat) (sel : Selector) : State :=
  let t :=
    if s.hu.role = .participant ∧ s.draining = true then s
    else { s with hu := { s.hu with guardTimer := some Config.guardCycles } }
  let u := t.ownStep src
  if s.hu.role.taken = true ∧ s.draining = false then u.applyStep k sel else u

/-- HUNT_STEP carried (R105, R108, R114, R116). -/
def execHuntStep (src : Source) (id : HuntId) (step : Nat) (selector : Selector) (s : State) :
    Host.Outcome State Fault Refusal :=
  hearNotice src (.huntStep id step selector)
    (fun t => match t.hu.flag with
      | none => (t.setFlag id).yieldOpening
      | some f => if f = id then t.stepHeard src step selector else t) s

/-! ### READYs (R116) -/

/-- The owner counts a READY of the current step from a recorded channel, and with the last of them begins to measure (R116). -/
def OwnerPart.countReady (o : OwnerPart) (channel step : Nat) (named : Option HomeRef) : OwnerPart :=
  if o.phase = .waiting ∧ o.readyTimer.isSome = true ∧ step = o.step ∧
      (o.participants.any fun p => p.channel = channel) = true then
    let ps := o.participants.map fun p => if p.channel = channel then { p with ready := true } else p
    let found :=
      match named, o.selector with
      | some r, .part c _ _ => if c = channel then some r else o.found
      | some _, .noChannel => o.found
      | none, _ => o.found
    if ps.all Participant.ready then
      { o with participants := ps, found := found, readyTimer := none, tally := 0, lightSeen := false, phase := .measuring }
    else { o with participants := ps, found := found }
  else o

/-- A HUNT_READY of the owner's hunt (R116). -/
def State.readyHeard (s : State) (id : HuntId) (channel step : Nat) (named : Option HomeRef) : State :=
  match s.hu.role with
  | .owner o => if s.hu.flag = some id then s.setOwner (o.countReady channel step named) else s
  | .noRole => s
  | .participant => s

/-- HUNT_READY carried (R116). -/
def execHuntReady (src : Source) (id : HuntId) (channel step : Nat) (named : Option HomeRef) (s : State) :
    Host.Outcome State Fault Refusal :=
  hearNotice src (.huntReady id channel step named) (fun t => t.readyHeard id channel step named) s

/-- READY_TIMER_EXPIRY (R116): an ABANDONED close; an owner that is DRAINING queues nothing (R122). -/
def execReadyTimerExpiry (s : State) : Host.Outcome State Fault Refusal :=
  if s.resetHeld then .next s
  else
    match s.hu.role, s.hu.huntId with
    | .owner o, some id =>
      .next (if o.phase = .waiting ∧ dueTimer o.readyTimer = true then
        (if s.draining then s.setOwner { o with readyTimer := none }
         else s.queueClose id { o with readyTimer := none } .abandoned).settle
      else s)
    | .owner _, none => .next s
    | .noRole, _ => .next s
    | .participant, _ => .next s

/-! ### The owner's strategy (R117, R118) -/

/-- The lowest recorded channel of at least `least` that has candidates (R118). -/
def OwnerPart.nextChannel (o : OwnerPart) (least : Nat) : Option Nat :=
  [0, 1, 2, 3].find? fun c => least ≤ c ∧ (o.participants.any fun p => p.channel = c ∧ 1 ≤ p.count) = true

/-- The candidate count recorded for a channel. -/
def OwnerPart.countOf (o : OwnerPart) (channel : Nat) : Nat :=
  ((o.participants.find? fun p => p.channel = channel).map Participant.count).getD 0

/-- Continuing from a guilty part of a list of n: the guilty part as it stands after children of size 0 are passed over, and the part the next step darkens, which is the guilty part itself for the verify step (R118). -/
def continueFrom (n : Nat) : Nat → Nat × Nat → (Nat × Nat) × (Nat × Nat)
  | 0, p => (p, p)
  | fuel + 1, (level, index) =>
    if partSize n level index ≤ 1 then ((level, index), (level, index))
    else if partSize n (level + 1) (2 * index) = 0 then continueFrom n fuel (level + 1, 2 * index + 1)
    else if partSize n (level + 1) (2 * index + 1) = 0 then continueFrom n fuel (level + 1, 2 * index)
    else ((level, index), (level + 1, 2 * index))

/-- What a measurement leads to (R118). -/
inductive Decision where
  | step (guilty : Option (Nat × Nat × Nat)) (selector : Selector)
  | close (outcome : HuntOutcome)
  deriving DecidableEq, Repr

/-- A step for the next channel at or above this one, or NOT_FOUND (R118). -/
def OwnerPart.channelStep (o : OwnerPart) (least : Nat) : Decision :=
  match o.nextChannel least with
  | some c => .step none (.part c 0 0)
  | none => .close .notFound

/-- The next step from a guilty part of a channel (R118). -/
def OwnerPart.continueStep (o : OwnerPart) (c : Nat) (part : Nat × Nat) : Decision :=
  let r := continueFrom (o.countOf c) 7 part
  .step (some (c, r.1.1, r.1.2)) (.part c r.2.1 r.2.2)

/-- The home a FOUND close names (R118): the one the verify step's READY carried, or a free value where it carried none (log entry 14). -/
def OwnerPart.foundHome (o : OwnerPart) (c : Nat) : HomeRef :=
  o.found.getD { handle := (Config.unnamedHome c).1, serial := (Config.unnamedHome c).2 }

/-- The decision at the end of a measurement, by the step measured (R118). -/
def OwnerPart.decide (o : OwnerPart) (present : Bool) : Decision :=
  match o.selector, o.guiltyChannel, o.guiltyPart with
  | .noChannel, _, _ => if present then o.channelStep 0 else .close .inconclusive
  | .part c level index, some g, some part =>
    if (level, index) = part then
      if present then .close .inconclusive else .close (.found g (o.foundHome g))
    else
      o.continueStep c (if present then (level, index + 1) else (level, index))
  | .part c level index, none, _ => if present then o.channelStep (c + 1) else o.continueStep c (level, index)
  | .part c level index, some _, none => if present then o.channelStep (c + 1) else o.continueStep c (level, index)

/-- The owner acts on a decision (R118). -/
def State.actOn (s : State) (id : HuntId) (o : OwnerPart) (d : Decision) : State :=
  match d with
  | .step none sel => s.queueStep id o sel
  | .step (some (c, level, index)) sel =>
    s.queueStep id { o with guiltyChannel := some c, guiltyPart := some (level, index) } sel
  | .close outcome => s.queueClose id o outcome

/-- A quiet observation counted in a measurement (R117). -/
def OwnerPart.tallied (o : OwnerPart) (light : Bool) : OwnerPart :=
  { o with tally := o.tally + 1, lightSeen := o.lightSeen || light }

/-- A quiet observation routed to the owner (R117): the fourth ends the measurement; a DRAINING owner then decides nothing (R122). -/
def State.measure (s : State) (o : OwnerPart) (light : Bool) : State :=
  if o.phase = .measuring ∧ o.tally < Config.measureWindows then
    let m := o.tallied light
    if m.tally < Config.measureWindows then s.setOwner m
    else if s.draining then s.setOwner m
    else
      match s.hu.huntId with
      | none => s.setOwner m
      | some id => s.actOn id m (m.decide m.lightSeen)
  else s

/-! ### The stray history (R97 to R99) -/

/-- An outcome entered as the newest of at most 8 (R97). -/
def enterOutcome (history : List Bool) (light : Bool) : List Bool := (history ++ [light]).drop (history.length + 1 - 8)

/-- A suspicion is handed on with auto-hunt set and the Image Loader OPERATING (R99). -/
def State.handOn (s : State) : State := if s.img.autoHunt = true ∧ s.operating = true then s.suspect else s

/-- An outcome entered in the history, then tested (R97 to R99). -/
def State.strayEntry (s : State) (light : Bool) : State :=
  let t := { s with lw := { s.lw with history := enterOutcome s.lw.history light } }
  if t.retest then
    let u := { t with lw := { t.lw with condition := true } }
    State.handOn
      (if s.lw.condition then u
       else u.raiseAlarm { kind := .strayLight, handle := 0 } (.strayLight (lightCount t.lw.history) s.img.sThr))
  else if s.lw.condition then t.endStray
  else t

/-- A QUIET observation routed by the role (R97). -/
def State.quietTaken (s : State) (light : Bool) : State :=
  match s.hu.role with
  | .noRole => s.strayEntry light
  | .owner o => s.measure o light
  | .participant => s

/-- QUIET_OBSERVATION (R16, R97). -/
def execQuietObservation (r : WindowRef) (light : Bool) (s : State) : Host.Outcome State Fault Refusal :=
  if s.resetHeld then .next s
  else if s.observable r ∧ r.kind = .quiet then
    match s.findWindow r with
    | none => .next s
    | some _ => .next ((s.clearOutstanding r).quietTaken light).settle
  else .next s

/-! ### Closing (R106, R119, R120) -/

/-- Who took part leaves the hunt: HUNT cleared, role NONE, list emptied, awaiting cleared, its notices withdrawn (R106, R119). -/
def State.leaveHunt (s : State) : State :=
  let t := s.clearHunt.withdraw fun n => n.producer = .hunt
  { t with hu := { t.hu with role := .noRole, huntId := none, opening := false, frozen := [], awaiting := none } }

/-- The hunt ends here with an outcome: a participant leaves it, an owner also raises HUNT_ENDED and empties its history (R106, R119). -/
def State.endHunt (s : State) (outcome : HuntOutcome) : State :=
  match s.hu.role with
  | .noRole => s
  | .participant => s.leaveHunt
  | .owner o =>
    (s.leaveHunt.raiseAlarm { kind := .huntEnded, handle := 0 } (.huntEnded s.hu.huntId outcome o.stepsCarried)).emptyHistory

/-- The flag is cleared and the guard stops (R105). -/
def State.clearFlag (s : State) : State := { s with hu := { s.hu with flag := none, guardTimer := none } }

/-- The named entry is not FREE and holds the named serial (R120). -/
def State.isHome (s : State) (r : HomeRef) : Bool :=
  (s.entry r.handle).state ≠ .free && (s.entry r.handle).serial = some r.serial

/-- ROGUE set on the named entry if it still holds the home, and ROGUE_FOUND raised in either case (R120); a serial not held takes the source of handle 0 (R183). -/
def State.foundHere (s : State) (id : HuntId) (r : HomeRef) : State :=
  let e := s.entry r.handle
  let t := if s.isHome r then s.setEntry r.handle { e with holds := { e.holds with rogue := true } } else s
  t.raiseAlarm { kind := .rogueFound, handle := if s.isHome r then r.handle else 0 } (.rogueFound r.serial r.handle id (s.isHome r))

/-- What a FOUND close brings the terminator it names, in the states whose roster holds entries (R120; log entry 20). -/
def State.takeFound (s : State) (id : HuntId) (outcome : HuntOutcome) : State :=
  match outcome with
  | .found c r => if c = s.channel ∧ s.builds = true then s.foundHere id r else s
  | .notFound => s
  | .inconclusive => s
  | .abandoned => s

/-- A HUNT_CLOSE of the flag's hunt (R119), with the check of R120; with the flag clear only that check is made, and the close of another hunt is ignored (R105; log entry 20). -/
def State.closeHeard (s : State) (id : HuntId) (outcome : HuntOutcome) : State :=
  match s.hu.flag with
  | none => s.takeFound id outcome
  | some f =>
    if f = id then ((s.clearFlag.endHunt outcome).takeFound id outcome).takeDeferred else s

/-- HUNT_CLOSE carried (R119, R120). -/
def execHuntClose (src : Source) (id : HuntId) (outcome : HuntOutcome) (s : State) : Host.Outcome State Fault Refusal :=
  hearNotice src (.huntClose id outcome) (fun t => t.closeHeard id outcome) s

/-- GUARD_EXPIRY (R106). -/
def execGuardExpiry (s : State) : Host.Outcome State Fault Refusal :=
  if s.resetHeld then .next s
  else
    .next (if s.hu.flag.isSome = true ∧ dueTimer s.hu.guardTimer = true then
      ((s.clearFlag.endHunt .abandoned).takeDeferred).settle else s)

end Sys2Proof.Machine
end

