-- ==== Sys2Proof/Machine/Handover.lean ====
section
/-! DEFINITION. Moving homes between channels (chapter 7): the notices of a handover, its timers, and the lost timer (R41). -/

namespace Sys2Proof.Machine

/-! ### Contexts (R124, R125) -/

/-- The entry holds an OUT context whose peer is this channel. -/
def Entry.outTo (e : Entry) (channel : Nat) : Bool :=
  e.handover.any fun c => c.direction = .outbound ∧ c.peer = channel

/-- The entry holds an IN context whose peer is this channel. -/
def Entry.inFrom (e : Entry) (channel : Nat) : Bool :=
  e.handover.any fun c => c.direction = .inbound ∧ c.peer = channel

/-- The peer channel of the entry's context. -/
def Entry.peer (e : Entry) : Nat := (e.handover.map Handover.peer).getD 0

/-- The new handle of the entry's context. -/
def Entry.newHandle (e : Entry) : Option Nat := e.handover.bind Handover.newHandle

/-- HOME_MOVED at the old terminator, for the entry as it stood before the outcome (R141). -/
def State.movedOut (s : State) (e : Entry) (serial : Serial) (o : MoveOutcome) : State :=
  s.pushEvent (.homeMoved serial s.channel e.peer e.newHandle o)

/-- The new context of a move taken here (R126). -/
def Handover.out (target time : Nat) : Handover :=
  { direction := .outbound, peer := target, timer := some time, newHandle := none, reclaim := none,
    burstInHand := false, accountInHand := false }

/-- The new context of an OFFER taken (R128). -/
def Handover.into (source time h : Nat) : Handover :=
  { direction := .inbound, peer := source, timer := some time, newHandle := some h, reclaim := none,
    burstInHand := false, accountInHand := false }

/-! ### The target's answer (R128) -/

/-- The entry an OFFER makes (R128). -/
def arrivingEntry (img : Image) (serial : Serial) (source : Nat) (p : Profile) (eqDelay h : Nat) : Entry :=
  { Entry.free.storeDelay img eqDelay with
    state := .arriving, serial := some serial, profile := some p, handover := some (Handover.into source img.handoverTime h) }

/-- Steps 4 to 7 of the answer to an OFFER, in OPERATING (R128). -/
def State.considerOffer (s : State) (serial : Serial) (source : Nat) (p : Profile) (eqDelay : Nat) : State :=
  if (s.find serial).isSome then s.queueNotice (.refuse serial s.channel .duplicate)
  else
    match s.freeHandle with
    | none => s.queueNotice (.refuse serial s.channel .rosterFull)
    | some h =>
      if s.admits p.assured then
        (s.takeEntry h (arrivingEntry s.img serial source p eqDelay h)).queueNotice (.accept serial s.channel h)
      else s.queueNotice (.refuse serial s.channel .overbook)

/-- An OFFER heard, answered in order by the start-up state, the line state and the roster (R128). -/
def State.offerHeard (s : State) (serial : Serial) (source target : Nat) (p : Profile) (eqDelay : Nat) : State :=
  match s.il.startup with
  | .loading => s
  | .listening => s
  | .configFault =>
    if s.il.usableChannel = some target ∧ s.slp.lineState = .attached then
      s.queueNotice (.refuse serial target .busy)
    else s
  | .draining =>
    if target = s.channel ∧ s.slp.lineState = .attached then s.queueNotice (.refuse serial s.channel .busy) else s
  | .operating =>
    if target = s.channel ∧ s.slp.lineState = .attached then s.considerOffer serial source p eqDelay else s

/-- OFFER carried (R128). -/
def execOffer (src : Source) (serial : Serial) (source target assured peak weight eqDelay : Nat) (s : State) :
    Host.Outcome State Fault Refusal :=
  hearNotice src (.offer serial source target assured peak weight eqDelay)
    (fun t => match src with
      | .own => t
      | .other _ => t.offerHeard serial source target { assured := assured, peak := peak, weight := weight } eqDelay) s

/-! ### The old terminator's moves (R127, R131, R135) -/

/-- An ACCEPT for a LEAVING entry: the new handle is recorded, TUNE posted, the entry TUNING (R127). -/
def Entry.toTuning (e : Entry) (channel newHandle : Nat) : Entry :=
  Entry.post { e with state := .tuning, handover := e.handover.map fun c => { c with newHandle := some newHandle } }
    (.tune channel newHandle)

/-- An ACCEPT heard (R127). -/
def State.acceptHeard (s : State) (serial : Serial) (channel newHandle : Nat) : State :=
  match s.find serial with
  | none => s
  | some h =>
    if (s.entry h).state = .leaving ∧ (s.entry h).outTo channel = true then
      s.setEntry h ((s.entry h).toTuning channel newHandle)
    else s

/-- ACCEPT carried (R127). -/
def execAccept (src : Source) (serial : Serial) (channel newHandle : Nat) (s : State) : Host.Outcome State Fault Refusal :=
  hearNotice src (.accept serial channel newHandle)
    (fun t => match src with
      | .own => t
      | .other _ => t.acceptHeard serial channel newHandle) s

/-- A REFUSE heard: the LEAVING entry returns to ACTIVE (R127). -/
def State.refuseHeard (s : State) (serial : Serial) (channel : Nat) (reason : RefuseReason) : State :=
  match s.find serial with
  | none => s
  | some h =>
    if (s.entry h).state = .leaving ∧ (s.entry h).outTo channel = true then
      (s.returnActive h).movedOut (s.entry h) serial (.returnedRefused reason)
    else s

/-- REFUSE carried (R127). -/
def execRefuse (src : Source) (serial : Serial) (channel : Nat) (reason : RefuseReason) (s : State) :
    Host.Outcome State Fault Refusal :=
  hearNotice src (.refuse serial channel reason)
    (fun t => match src with
      | .own => t
      | .other _ => t.refuseHeard serial channel reason) s

/-! ### The account and the outcome (R133 to R136) -/

/-- An ACCOUNT heard for an ARRIVING entry whose account is not in hand is installed (R133). -/
def State.accountHeard (s : State) (serial : Serial) (source : Nat) (a : Account) : State :=
  match s.find serial with
  | none => s
  | some h =>
    if (s.entry h).state = .arriving ∧ (s.entry h).inFrom source = true ∧
        ((s.entry h).handover.any fun c => c.accountInHand = false) = true then
      State.tryTaking
        ((s.setAcct h (some a)).setEntry h
          { s.entry h with handover := (s.entry h).handover.map fun c => { c with accountInHand := true } }) h
    else s

/-- ACCOUNT carried (R133). -/
def execAccount (src : Source) (serial : Serial) (source : Nat) (mode : Mode)
    (credit base lowWater residueUp residueDown period : Nat) (s : State) : Host.Outcome State Fault Refusal :=
  hearNotice src (.account serial source mode credit base lowWater residueUp residueDown period)
    (fun t => match src with
      | .own => t
      | .other _ => t.accountHeard serial source (Account.install mode credit base lowWater residueUp residueDown period)) s

/-- The own TAKEN is carried: the TAKING entry is ACTIVE, its account begins a fresh period, HOME_MOVED is raised (R134); closed at once while DRAINING (R192). -/
def State.takenCarried (s : State) (serial : Serial) : State :=
  match s.find serial with
  | none => s
  | some h =>
    if (s.entry h).state = .taking then
      let e := s.entry h
      let t := (s.setEntry h e.toActive).setAcct h ((s.acct h).map Account.freshPeriod)
      ((t.startCredit h).pushEvent (.homeMoved serial e.peer s.channel (some h) .arrived)).drainClose h
    else s

/-- Another's TAKEN: the HANDED entry closes with a HANDOVER_OUT record (R135). -/
def State.takenHeard (s : State) (serial : Serial) (channel : Nat) : State :=
  match s.find serial with
  | none => s
  | some h =>
    if (s.entry h).state = .handed ∧ (s.entry h).outTo channel = true then
      ((s.enterClosing h .handoverOut false).withdraw (isOldNoticeOf serial)).movedOut (s.entry h) serial .done
    else s

/-- TAKEN carried (R134, R135). -/
def execTaken (src : Source) (serial : Serial) (channel : Nat) (s : State) : Host.Outcome State Fault Refusal :=
  hearNotice src (.taken serial channel)
    (fun t => match src with
      | .own => t.takenCarried serial
      | .other _ => t.takenHeard serial channel) s

/-- How a move whose RECLAIM had this cause ends (R131). -/
def ReclaimCause.outcome : ReclaimCause → MoveOutcome
  | .tuneFailed => .returnedTuneFailed
  | .timeout => .returnedTimeout

/-- The own RECLAIM is carried: a TUNING entry returns to ACTIVE (R131), a HANDED one enters LOST with its account reinstated (R135). -/
def State.reclaimCarried (s : State) (serial : Serial) : State :=
  match s.find serial with
  | none => s
  | some h =>
    let e := s.entry h
    match e.state, e.handover.bind Handover.reclaim with
    | .tuning, some cause => (s.returnActive h).movedOut e serial cause.outcome
    | .handed, _ => (((s.enterLost h).startCredit h).movedOut e serial .lost).drainClose h
    | _, _ => s

/-- Another's RECLAIM: the ARRIVING or TAKING entry is freed and its notice withdrawn (R136). -/
def State.reclaimHeard (s : State) (serial : Serial) (source : Nat) : State :=
  match s.find serial with
  | none => s
  | some h =>
    if ((s.entry h).state = .arriving ∨ (s.entry h).state = .taking) ∧ (s.entry h).inFrom source = true then
      (s.freeEntry h).withdraw (isTargetNoticeOf serial)
    else s

/-- RECLAIM carried (R131, R135, R136). -/
def execReclaim (src : Source) (serial : Serial) (source : Nat) (s : State) : Host.Outcome State Fault Refusal :=
  hearNotice src (.reclaim serial source)
    (fun t => match src with
      | .own => t.reclaimCarried serial
      | .other _ => t.reclaimHeard serial source) s

/-! ### The timers -/

/-- RECLAIM is queued for the entry and its timer stops (R131, R135). -/
def State.queueReclaim (s : State) (h : Nat) (serial : Serial) (cause : ReclaimCause) : State :=
  (s.setEntry h
      { s.entry h with handover := (s.entry h).handover.map fun c => { c with timer := none, reclaim := some cause } }).queueNotice
    (.reclaim serial s.channel)

/-- The message is a TUNE. -/
def MsgKind.isTune : MsgKind → Bool
  | .tune _ _ => true
  | .adjust _ => false
  | .assign _ _ _ => false
  | .release => false

/-- A pending TUNE is removed from the mailbox (R131). -/
def Entry.dropTune (e : Entry) : Entry :=
  { e with mailbox := if (e.mailbox.any fun m => m.kind.isTune) then none else e.mailbox }

/-- The handover timer has expired (R127, R131, R135). -/
def State.handoverExpired (s : State) (h : Nat) (serial : Serial) : State :=
  let e := s.entry h
  match e.state with
  | .leaving => ((s.returnActive h).withdraw (isOfferOf serial)).movedOut e serial .returnedTimeout
  | .tuning => (s.setEntry h e.dropTune).queueReclaim h serial .timeout
  | .handed => (s.withdraw (isAccountOf serial)).queueReclaim h serial .timeout
  | .free => s
  | .claiming => s
  | .confirming => s
  | .active => s
  | .arriving => s
  | .taking => s
  | .lost => s
  | .closing => s

/-- The timer of the entry's context, of this direction, is due. -/
def Entry.handoverDue (e : Entry) (d : Direction) : Bool :=
  e.handover.any fun c => c.direction = d ∧ dueTimer c.timer = true

/-- HANDOVER_TIMER_EXPIRY (R127, R131, R135) of the entry at a handle. -/
def execHandoverTimerExpiry (h : Nat) (s : State) : Host.Outcome State Fault Refusal :=
  if s.resetHeld then .next s
  else
    match (s.entry h).serial with
    | none => .next s
    | some serial => .next (if (s.entry h).handoverDue .outbound then (s.handoverExpired h serial).settle else s)

/-- INBOUND_TIMER_EXPIRY (R137) of the entry at a handle: the ARRIVING entry is freed and its ACCEPT withdrawn. -/
def execInboundTimerExpiry (h : Nat) (s : State) : Host.Outcome State Fault Refusal :=
  if s.resetHeld then .next s
  else
    match (s.entry h).serial with
    | none => .next s
    | some serial =>
      .next (if (s.entry h).handoverDue .inbound = true ∧ (s.entry h).state = .arriving then
        ((s.freeEntry h).withdraw (isAcceptOf serial)).settle else s)

/-- LOST_TIMER_EXPIRY (R41): the LOST entry closes with a RELEASED record, reason LOST_TIMEOUT, and a RELEASE. -/
def execLostTimerExpiry (h : Nat) (s : State) : Host.Outcome State Fault Refusal :=
  if s.resetHeld then .next s
  else
    .next (if (s.entry h).state = .lost ∧ dueTimer (s.entry h).lostTimer = true then
      (s.release h .lostTimeout true).settle else s)

end Sys2Proof.Machine
end

