-- ==== Sys2Proof/Machine/Startup.lean ====
section
/-! DEFINITION. Start-up, image and restart (chapter 11): the resets, the load, listening and the channel clash, draining; the carriage of a result, which brings a RESTART about (R192); and the repeat timers (R182). -/

namespace Sys2Proof.Machine

/-! ### The reset pin (R186, R187) -/

/-- POWER_ON_RESET (R187): every block takes its reset value and the straps are read. -/
def execPowerOnReset (straps : Station) (s : State) : Host.Outcome State Fault Refusal := .next (s.powerOn straps)

/-- RESET_ASSERTED (R186): the part drives nothing and takes nothing while the pin is held low. -/
def execResetAsserted (s : State) : Host.Outcome State Fault Refusal :=
  .next { s with resetHeld := true, slp := { s.slp with transmitting := none }, ports := Ports.reset }

/-! ### Loading (R188 to R190) -/

/-- CONFIG_FAULT is entered with a reason: one fault report enters the event queue (R190). -/
def State.enterFault (s : State) (reason : FaultReason) (usable : Option Nat) (clash : Option (Nat × Station)) : State :=
  State.pushEvent
    { s with il := { s.il with startup := .configFault, fault := some reason, usableChannel := usable,
                               drainTimer := none, listenTimer := none } }
    (.faultReport reason clash)

/-- The usable channel of an image with a bad field: its channel when that field passed (R190). -/
def usableOf (ws : List ImageWord) (field : ImageField) : Option Nat :=
  if field = .channel then none else some (wordAt ws 0)

/-- A good image is taken: the discovery flag, the admission floor, LISTENING, and PRESENT queued (R47, R81, R189, R191). -/
def State.takeImage (s : State) (img : Image) : State :=
  State.queueNotice
    { s with
      il := { s.il with startup := .listening, image := some img }
      ee := { s.ee with discoveryEnable := img.pDisc ≠ 0 }
      ua := { s.ua with floor := admissionFloor img } }
    (.present img.channel false)

/-- The outcome of a complete read (R188). -/
def State.loaded (s : State) (ws : List ImageWord) : State :=
  if imageSum ws = (ws[29]?).getD 0 then
    match firstBadField ws with
    | some f => s.enterFault (.badField f) (usableOf ws f) none
    | none => s.takeImage (readImage ws)
  else s.enterFault .badSum none none

/-- IMAGE_LOAD_COMPLETE (R188): in LOADING, before the start of cycle 16, with the whole image of 30 words. -/
def execImageLoadComplete (ws : List ImageWord) (s : State) : Host.Outcome State Fault Refusal :=
  if s.resetHeld then .next s
  else if s.il.startup = .loading ∧ s.cb.cycle.toNat < Config.loadLimit ∧ ws.length = 30 then .next (s.loaded ws).settle
  else .next s

/-- NO_IMAGE (R188): the read is not complete by the start of cycle 16 (log entry 2 on the order with that start). -/
def execNoImage (s : State) : Host.Outcome State Fault Refusal :=
  if s.resetHeld then .next s
  else if s.il.startup = .loading ∧ Config.loadLimit ≤ s.cb.cycle.toNat + 1 then
    .next (s.enterFault .noImage none none).settle
  else .next s

/-! ### Listening (R191) -/

/-- PRESENT marked incumbent is queued, unless one already waits (R191). -/
def State.answerPresent (s : State) : State :=
  if s.slp.stands (.present s.channel true) then s else s.queueNotice (.present s.channel true)

/-- The listener faults with CHANNEL_CLASH (R190, R191). -/
def State.clash (s : State) (station : Station) : State :=
  s.enterFault .channelClash (some s.channel) (some (s.channel, station))

/-- Any PRESENT not marked incumbent. -/
def isNewcomer : Notice → Bool
  | .present _ incumbent => !incumbent
  | _ => false

/-- Another station's PRESENT for the own channel, by the hearer's state (R191). -/
def State.presentHeard (s : State) (station : Station) (incumbent : Bool) : State :=
  match s.il.startup with
  | .loading => s
  | .configFault => s
  | .listening =>
    if s.il.listenTimer = none then (s.clash station).withdraw isNewcomer
    else if incumbent then s.clash station
    else s.answerPresent
  | .operating => if incumbent then s else s.answerPresent
  | .draining => if incumbent then s else s.answerPresent

/-- The own PRESENT is carried: the listening timer starts (R191). -/
def State.presentCarried (s : State) (incumbent : Bool) : State :=
  if s.il.startup = .listening ∧ incumbent = false then
    { s with il := { s.il with listenTimer := some Config.listenCycles } }
  else s

/-- PRESENT carried (R191). -/
def execPresent (src : Source) (channel : Nat) (incumbent : Bool) (s : State) : Host.Outcome State Fault Refusal :=
  hearNotice src (.present channel incumbent)
    (fun t => match src with
      | .own => t.presentCarried incumbent
      | .other station => if channel = t.channel then t.presentHeard station incumbent else t) s

/-- LISTENING_TIMER_EXPIRY (R191): OPERATING. -/
def execListeningTimerExpiry (s : State) : Host.Outcome State Fault Refusal :=
  if s.resetHeld then .next s
  else if s.il.startup = .listening ∧ dueTimer s.il.listenTimer = true then
    .next { s with il := { s.il with startup := .operating, listenTimer := none } }
  else .next s

/-! ### Draining (R140, R192, R193) -/

/-- An OFFER of the serial is queued or offered and not yet carried (R140). -/
def LinePort.offerWaits (p : LinePort) (serial : Serial) : Bool :=
  p.queued.any (isOfferOf serial) || p.presented.any (isOfferOf serial) ||
    (p.noticeSlot.any fun x => isOfferOf serial x.notice)

/-- The own TAKEN of the serial is in transmission (R140). -/
def LinePort.takenSending (p : LinePort) (serial : Serial) : Bool :=
  p.transmitting = some .notice && (p.noticeSlot.any fun x => isTargetNoticeOf serial x.notice)

/-- What the start of draining does to the entry at a handle (R43, R140, R192). -/
def State.drainEntry (s : State) (h : Nat) : State :=
  let e := s.entry h
  let serial := e.serial.getD 0
  let closed := s.enterClosing h .restart true
  match e.state with
  | .active => closed
  | .lost => closed
  | .leaving =>
    if s.slp.offerWaits serial then closed.withdraw (isOfferOf serial)
    else closed.queueNotice (.reclaim serial s.channel)
  | .tuning =>
    if (e.handover.bind Handover.reclaim).isSome then closed else closed.queueNotice (.reclaim serial s.channel)
  | .arriving => (s.freeEntry h).withdraw (isTargetNoticeOf serial)
  | .taking =>
    if s.slp.takenSending serial then s.withdraw (isTargetNoticeOf serial)
    else (s.freeEntry h).withdraw (isTargetNoticeOf serial)
  | .free => s
  | .claiming => s
  | .confirming => s
  | .handed => s
  | .closing => s

/-- DRAINING is entered: the drain timer starts and the roster is drained (R192). The entries are taken, and their RECLAIMs queued, in ascending handle order, a DESIGN CHOICE: R125, R140 and R192 give no order (log entry 43). -/
def State.enterDraining (s : State) : State :=
  handles.foldl State.drainEntry
    { s with il := { s.il with startup := .draining, drainTimer := some Config.drainCycles } }

/-- The carriage of a RESTART's OK (R192): a reset in LISTENING and CONFIG_FAULT, draining in OPERATING. -/
def State.restarted (s : State) (straps : Station) : State :=
  match s.il.startup with
  | .listening => s.powerOn straps
  | .configFault => s.powerOn straps
  | .operating => s.enterDraining
  | .draining => s
  | .loading => s

/-- The result is the OK of a RESTART. Only such a result makes a later RESTART BUSY, a DESIGN CHOICE: R180 says "the result of an earlier RESTART" (log entry 44). -/
def Result.isRestart (r : Result) : Bool := r.kind = .restart && r.code = .ok

/-- RESULT_CARRIED (R179, R192): the oldest result leaves the queue, and a RESTART's OK is acted on. -/
def execResultCarried (straps : Station) (s : State) : Host.Outcome State Fault Refusal :=
  if s.resetHeld then .next s
  else
    match s.slp.transmitting, s.rq.results with
    | some .result, r :: rest =>
      let t := State.ownCarried { s with rq := { s.rq with results := rest } }
      .next (if r.isRestart then t.restarted straps else t).settle
    | _, _ => .next s

/-- No account holds a snapshot and no entry is HANDED (R193). -/
def State.drained (s : State) : Bool :=
  handles.all fun h => ((s.acct h).bind Account.snapshot).isNone && (s.entry h).state ≠ .handed

/-- DRAIN_COMPLETE (R193): draining ends and the part takes its reset values (log entry 27). -/
def execDrainComplete (straps : Station) (s : State) : Host.Outcome State Fault Refusal :=
  if s.resetHeld then .next s
  else if s.draining = true ∧ s.drained = true then .next (s.powerOn straps)
  else .next s

/-- DRAIN_TIMER_EXPIRY (R193): draining ends whatever still waits. -/
def execDrainTimerExpiry (straps : Station) (s : State) : Host.Outcome State Fault Refusal :=
  if s.resetHeld then .next s
  else if s.draining = true ∧ dueTimer s.il.drainTimer = true then .next (s.powerOn straps)
  else .next s

/-! ### Repeat timers (R182) -/

/-- The repeat timer of a source. -/
def State.repeatOf (s : State) (a : AlarmSource) : Option RepeatTimer := s.rq.repeats.find? fun r => r.source = a

/-- A repeat timer has expired: a repeat report with the values as they now stand, and the timer again, while the condition holds; otherwise the timer stops (R182). -/
def State.repeated (s : State) (r : RepeatTimer) : State :=
  if s.conditionHolds r.source then
    (s.placeReport r.source (s.conditionContent r.content) true).startRepeat r.source r.content
  else s.endCondition r.source

/-- REPEAT_TIMER_EXPIRY (R182) of a source. -/
def execRepeatTimerExpiry (a : AlarmSource) (s : State) : Host.Outcome State Fault Refusal :=
  if s.resetHeld then .next s
  else
    match s.repeatOf a with
    | none => .next s
    | some r => .next (if r.remaining ≤ 1 then (s.repeated r).settle else s)

end Sys2Proof.Machine
end

