-- ==== Sys2Proof/Machine/Requests.lean ====
section
/-! DEFINITION. The requests (R180): how a request is taken or voided, and the seventeen rows with the rules of the blocks that own them. -/

namespace Sys2Proof.Machine

/-! ### Taking a request (R179, R180) -/

/-- The request is addressed to this terminator (R180). -/
def State.addressed (s : State) (hd : RequestHeader) : Bool :=
  hd.dest.toNat = s.slp.station.toNat || hd.dest = 0xFF

/-- The terminator drives the void flag of a frame it cannot take, unless it is DETACHED (R174, R178). -/
def State.voidRequest (s : State) : State :=
  { s with ports := { s.ports with voidDriven := s.slp.lineState = .attached } }

/-- A request with a result cannot be taken: LOADING, or no result place is free (R180). -/
def State.cannotAnswer (s : State) : Bool :=
  s.il.startup = .loading || Config.resultPlaces ≤ s.rq.results.length

/-- What the block that owns a request answers: the state after it, the result code and its data. -/
abbrev Answer := State × ResultCode × ResultData

/-- An answer that changes nothing and carries nothing. -/
def State.refusedWith (s : State) (code : ResultCode) : Answer := (s, code, .nothing)

/-- An OK that carries nothing. -/
def State.done (s : State) : Answer := (s, .ok, .nothing)

/-- The result enters the result queue (R179). -/
def queueResult (kind : RequestKind) (hd : RequestHeader) (a : Answer) : State :=
  { a.1 with rq := { a.1.rq with
      results := a.1.rq.results ++
        [{ kind := kind, requester := hd.requester, tag := hd.tag, code := a.2.1, data := a.2.2 }] } }

/-- The answer to a request that is taken: FAULTED in CONFIG_FAULT unless it is RESTART (log entry 22), RANGE for a bad form, otherwise the owner's (R180). -/
def State.answer {α : Type} (s : State) (kind : RequestKind) (args : Option α) (act : α → State → Answer) : Answer :=
  if s.il.startup = .configFault ∧ kind ≠ .restart then s.refusedWith .faulted
  else
    match args with
    | none => s.refusedWith .range
    | some x => act x s

/-- A request with a result, as the line brings it: not addressed, voided, or taken and answered (R180). -/
def request {α : Type} (kind : RequestKind) (hd : RequestHeader) (args : Option α) (act : α → State → Answer)
    (s : State) : Host.Outcome State Fault Refusal :=
  if s.resetHeld then .next s
  else if s.addressed hd then
    if s.cannotAnswer then .next s.voidRequest
    else if hd.voidedByOther then .next s.lineHeard
    else .next (queueResult kind hd (s.lineHeard.answer kind args act)).settle
  else .next s.lineHeard

/-- A broadcast: voided in LOADING, ignored in CONFIG_FAULT or when malformed, otherwise passed on (R180). -/
def broadcast {α : Type} (hd : RequestHeader) (args : Option α) (act : α → State → State) (s : State) :
    Host.Outcome State Fault Refusal :=
  if s.resetHeld then .next s
  else if s.addressed hd then
    if s.il.startup = .loading then .next s.voidRequest
    else if hd.voidedByOther then .next s.lineHeard
    else if s.il.startup = .configFault then .next s.lineHeard
    else
      match args with
      | none => .next s.lineHeard
      | some x => .next (act x s.lineHeard).settle
  else .next s.lineHeard

/-! ### Requests on a home -/

/-- A request that names a serial: UNKNOWN_HOME, or the answer for its handle. -/
def State.onHome (s : State) (serial : Serial) (act : Nat → Answer) : Answer :=
  match s.find serial with
  | none => s.refusedWith .unknownHome
  | some h => act h

/-- ACTIVE or LOST: the states in which a home's profile and account may be set, and it may be removed (R42, R85, R157, R158). -/
def HomeState.settable : HomeState → Bool
  | .active => true
  | .lost => true
  | .free => false
  | .claiming => false
  | .confirming => false
  | .leaving => false
  | .tuning => false
  | .handed => false
  | .arriving => false
  | .taking => false
  | .closing => false

/-- A profile clamped (R85). -/
def clampProfile (p : Profile) : Profile :=
  { assured := min 2000 p.assured, peak := min 8000 p.peak, weight := min 15 (max 1 p.weight) }

/-- The admission check of a change of term (R83): a change that does not raise the booked sum always passes. -/
def State.admitsChange (s : State) (old new : Nat) : Bool :=
  new ≤ old || s.ua.booked + (new - old) ≤ s.ua.floor

/-- SET_PROFILE at a handle (R85). -/
def State.setProfileAt (s : State) (p : Profile) (h : Nat) : Answer :=
  let e := s.entry h
  let c := clampProfile p
  if e.state.settable then
    if c.peak < c.assured then s.refusedWith .inconsistent
    else if s.admitsChange (term e.prof.assured) (term c.assured) then
      ({ s.setEntry h { e with profile := some c } with
          ua := { s.ua with booked := s.ua.booked - term e.prof.assured + term c.assured } }, .ok, .profile c)
    else s.refusedWith .overbook
  else s.refusedWith .busy

/-- SET_PROFILE (R85). -/
def execSetProfile (hd : RequestHeader) (d : List Byte) (s : State) : Host.Outcome State Fault Refusal :=
  request .setProfile hd (readProfile d) (fun a t => t.onHome a.1 (t.setProfileAt a.2)) s

/-- SET_ACCOUNT at a handle (R158). -/
def State.setAccountAt (s : State) (a : AccountArgs) (h : Nat) : Answer :=
  if (s.entry h).state.settable then
    match modeOf a.modeCode, s.acct h with
    | none, _ => s.refusedWith .range
    | some mode, some acct => (s.changeAcct h (acct.setTo mode a.base a.lowWater a.credit)).done
    | some _, none => s.done
  else s.refusedWith .busy

/-- SET_ACCOUNT (R158). -/
def execSetAccount (hd : RequestHeader) (d : List Byte) (s : State) : Host.Outcome State Fault Refusal :=
  request .setAccount hd (readAccount d) (fun a t => t.onHome a.serial (t.setAccountAt a)) s

/-- REFILL at a handle (R157). -/
def State.refillAt (s : State) (amount h : Nat) : Answer :=
  if (s.entry h).state.settable then
    match s.acct h with
    | some a =>
      (s.changeAcct h (a.refill amount), .ok,
        .refill (a.refillAmount amount) (a.refill amount).credit (a.refillAmount amount < amount))
    | none => s.done
  else s.refusedWith .busy

/-- REFILL (R157). -/
def execRefill (hd : RequestHeader) (d : List Byte) (s : State) : Host.Outcome State Fault Refusal :=
  request .refill hd (readRefill d) (fun a t => t.onHome a.1 (t.refillAt a.2)) s

/-- The move is taken: LEAVING, an OUT context, the timer, and OFFER queued (R126). -/
def State.startMove (s : State) (h : Nat) (serial : Serial) (target : Nat) : State :=
  let e := s.entry h
  (s.setEntry h { e with state := .leaving, handover := some (Handover.out target s.img.handoverTime) }).queueNotice
    (.offer serial s.channel target e.prof.assured e.prof.peak e.prof.weight (e.eqDelay.getD 0))

/-- Steps 4 to 8 of MOVE at a handle (R126). -/
def State.moveAt (s : State) (serial : Serial) (target h : Nat) : Answer :=
  if target = s.channel then s.refusedWith .notHere
  else if s.hu.role.taken then s.refusedWith .huntActive
  else if (s.entry h).state ≠ .active ∨ (s.entry h).holds.any = true then s.refusedWith .busy
  else if s.slp.lineState = .detached then s.refusedWith .busy
  else (s.startMove h serial target).done

/-- MOVE (R126). -/
def execMove (hd : RequestHeader) (d : List Byte) (s : State) : Host.Outcome State Fault Refusal :=
  request .move hd (readSerialByte d)
    (fun a t =>
      if t.draining then t.refusedWith .busy
      else if 3 < a.2 then t.refusedWith .range
      else t.onHome a.1 (t.moveAt a.1 a.2)) s

/-- REMOVE (R42). -/
def execRemove (hd : RequestHeader) (d : List Byte) (s : State) : Host.Outcome State Fault Refusal :=
  request .remove hd (readSerial d)
    (fun serial t => t.onHome serial fun h =>
      if (t.entry h).state.settable then (t.release h .removed true).done else t.refusedWith .busy) s

/-! ### HOLD and CLEAR_HOLD (R29) -/

/-- The hold request names a change it may make: MANAGER set, ROGUE or MANAGER cleared (R29, R180). -/
def holdAllowed (code : Nat) : Config.FlagReading → Bool
  | .set => code = 3
  | .clear => code = 1 || code = 3
  | .refuse => false

/-- The holds after an allowed hold request (R29). -/
def Holds.change (x : Holds) (code : Nat) (set : Bool) : Holds :=
  if code = 1 then { x with rogue := set } else { x with manager := set }

/-- A hold request that is allowed, at a handle (R29). -/
def State.holdAt (s : State) (code : Nat) (set : Bool) (h : Nat) : Answer :=
  (s.setEntry h { s.entry h with holds := (s.entry h).holds.change code set }).done

/-- The answer to the shared request kind of HOLD and CLEAR_HOLD (R29). Which of RANGE and UNKNOWN_HOME answers where both apply is free (log entry 12). -/
def State.holdRequest (s : State) (serial : Serial) (code : Nat) (flag : Byte) : Answer :=
  if holdAllowed code (readFlag flag) then s.onHome serial (s.holdAt code (readFlag flag = .set))
  else if Config.rangeFirst false then s.refusedWith .range
  else s.onHome serial fun _ => s.refusedWith .range

/-- HOLD (R29). -/
def execHold (hd : RequestHeader) (d : List Byte) (s : State) : Host.Outcome State Fault Refusal :=
  request .hold hd (readHold d) (fun a t => t.holdRequest a.1 a.2.1 a.2.2) s

/-- CLEAR_HOLD (R29): the same request kind on the line. -/
def execClearHold (hd : RequestHeader) (d : List Byte) (s : State) : Host.Outcome State Fault Refusal :=
  request .hold hd (readHold d) (fun a t => t.holdRequest a.1 a.2.1 a.2.2) s

/-! ### QUERY_HOME and LIST_HOMES (R181) -/

/-- The kind of a message without its arguments (R30). -/
def MsgKind.bare : MsgKind → MailboxKind
  | .adjust _ => .adjust
  | .assign _ _ _ => .assign
  | .tune _ _ => .tune
  | .release => .release

/-- The kind of a record without the reason of a RELEASED one (R167). -/
def RecordKind.bare : RecordKind → SnapshotKind
  | .period => .period
  | .handoverOut => .handoverOut
  | .released _ => .released
  | .restart => .restart

/-- What part 1 tells of a handover context (R124, R181). -/
def Handover.told (c : Handover) : QueryHandover :=
  { direction := c.direction, peer := c.peer, newHandle := c.newHandle, remaining := c.timer,
    reclaimQueued := c.reclaim.isSome, burstInHand := c.burstInHand, accountInHand := c.accountInHand }

/-- Part 0 of QUERY_HOME. -/
def State.queryEntry (s : State) (h : Nat) : QueryEntry :=
  let e := s.entry h
  { handle := h, state := e.state, holds := e.holds, roundTrip := e.roundTrip, eqDelay := e.eqDelay, profile := e.profile,
    reportQ := e.reportQ, idle := e.idle, missed := e.missed, losses := e.losses, misplaced := e.misplaced,
    duplicates := e.duplicates, rangeAttempts := e.rangeAttempts, recontact := e.recontact, lostTimer := e.lostTimer,
    lastOffset := (s.drift h).lastOffset, mailbox := e.mailbox.map fun m => (m.kind.bare, m.carried) }

/-- What part 1 tells of an account with content. -/
def State.queryAccount (s : State) (h : Nat) (a : Account) : QueryAccount :=
  { mode := a.mode, quota := a.quota, credit := a.credit, base := a.base, lowWater := a.lowWater,
    residueUp := a.residueUp, residueDown := a.residueDown, snapshot := s.snapshotCondition h,
    snapshotSpan := a.snapshot.map fun sn => (sn.kind.bare, sn.firstPeriod, sn.lastPeriod) }

/-- One part of the entry and account at a handle (R181). -/
def State.queryPart (s : State) (part h : Nat) : ResultData :=
  match part with
  | 0 => .queryEntry (s.queryEntry h)
  | 1 =>
    .queryAccount ((s.entry h).handover.map Handover.told) (accountCondition (s.entry h).state (s.acct h))
      ((s.acct h).map fun a => s.queryAccount h a)
  | 2 =>
    .queryBytes ((s.acct h).map fun a =>
      (a.counters.upCharged, a.counters.downCharged, a.counters.upFree, a.counters.downFree))
  | _ =>
    .queryMillis ((s.acct h).map fun a =>
      (a.counters.charged, a.counters.overdraw, a.creditOpen, a.adjusted, a.periodFirst))

/-- QUERY_HOME (R181). Which of RANGE and UNKNOWN_HOME answers where both apply is free (log entry 12). -/
def execQueryHome (hd : RequestHeader) (d : List Byte) (s : State) : Host.Outcome State Fault Refusal :=
  request .queryHome hd (readSerialByte d)
    (fun a t =>
      if a.2 < 4 then t.onHome a.1 fun h => (t, .ok, t.queryPart a.2 h)
      else if Config.rangeFirst true then t.refusedWith .range
      else t.onHome a.1 fun _ => t.refusedWith .range) s

/-- The entries in any state but FREE at or beyond a handle, ascending (R181). -/
def State.homesFrom (s : State) (start : Nat) : List Nat :=
  handles.filter fun h => start ≤ h ∧ (s.entry h).state ≠ .free

/-- What LIST_HOMES lists: the first five, and the handle after the last listed, or 0 when none lies beyond it (R181). -/
def State.homeList (s : State) (start : Nat) : ResultData :=
  let listed := (s.homesFrom start).take 5
  let beyond := (s.homesFrom start).drop 5
  .homes (listed.map fun h => ((s.entry h).serial, (s.entry h).state))
    (if beyond.isEmpty then 0 else listed.getLastD 0 + 1)

/-- LIST_HOMES (R181). -/
def execListHomes (hd : RequestHeader) (d : List Byte) (s : State) : Host.Outcome State Fault Refusal :=
  request .listHomes hd (readByte d)
    (fun b t => if 64 < b.toNat then t.refusedWith .range else (t, .ok, t.homeList (max 1 b.toNat))) s

/-! ### Tariffs (R149 to R151) -/

/-- The tariff guard forbids a change: its enable is set and the pin is low (R149). -/
def State.guarded (s : State) (guardPin : Bool) : Bool := s.img.tariffGuard && !guardPin

/-- Write a band of the tariff table. -/
def State.setBand (s : State) (b : Nat) (x : Band) : State :=
  { s with um := { s.um with tariff := s.um.tariff.setIfInBounds b x } }

/-- SET_TARIFF (R149). -/
def execSetTariff (hd : RequestHeader) (d : List Byte) (guardPin : Bool) (s : State) : Host.Outcome State Fault Refusal :=
  request .setTariff hd (readTariff d)
    (fun a t =>
      if 7 < a.1 then t.refusedWith .range
      else if t.guarded guardPin then t.refusedWith .locked
      else if (t.bandAt a.1).fixed then t.refusedWith .locked
      else (t.setBand a.1 { priceUp := a.2.1, priceDown := a.2.2, fixed := false }).done) s

/-- FIX_TARIFF (R150). -/
def execFixTariff (hd : RequestHeader) (d : List Byte) (guardPin : Bool) (s : State) : Host.Outcome State Fault Refusal :=
  request .fixTariff hd (readByte d)
    (fun b t =>
      if 7 < b.toNat then t.refusedWith .range
      else if t.guarded guardPin then t.refusedWith .locked
      else (t.setBand b.toNat { t.bandAt b.toNat with fixed := true }).done) s

/-- BAND (R151): a value outside 0 to 7 is ignored. -/
def execBand (hd : RequestHeader) (d : List Byte) (s : State) : Host.Outcome State Fault Refusal :=
  broadcast hd (readByte d)
    (fun b t => if 7 < b.toNat then t else { t with um := { t.um with band := b.toNat } }) s

/-! ### CLOSE_PERIOD and SET_FREE_LABELS (R148, R161) -/

/-- The account at a handle is closed with period p when its entry is ACTIVE, LEAVING, TUNING or LOST (R161, R162). -/
def State.closeAccount (p : Nat) (s : State) (h : Nat) : State :=
  match s.acct h with
  | none => s
  | some a => if (s.entry h).state.accountOpen then s.changeAcct h (a.closePeriod p) else s

/-- Period p closes: the open accounts, then every fixed flag cleared, then the period number (R161). -/
def State.closePeriods (s : State) (p : Nat) : State :=
  let t := handles.foldl (State.closeAccount p) s
  { t with um := { t.um with tariff := t.um.tariff.map fun b => { b with fixed := false }, period := p + 1 } }

/-- CLOSE_PERIOD (R161): ignored below the period number and at 4,294,967,295. -/
def execClosePeriod (hd : RequestHeader) (d : List Byte) (s : State) : Host.Outcome State Fault Refusal :=
  broadcast hd (readPeriod d)
    (fun p t => if p < t.um.period ∨ p = Config.millisMax then t else t.closePeriods p) s

/-- SET_FREE_LABELS (R148): the whole table is replaced. -/
def execSetFreeLabels (hd : RequestHeader) (d : List Byte) (s : State) : Host.Outcome State Fault Refusal :=
  broadcast hd (readFreeLabels d) (fun v t => { t with um := { t.um with freeLabels := v } }) s

/-! ### SET_DISCOVERY, START_HUNT, RESTART -/

/-- SET_DISCOVERY (R47). -/
def State.discovery (s : State) : Config.FlagReading → Answer
  | .set => if s.img.pDisc = 0 then s.refusedWith .range else { s with ee := { s.ee with discoveryEnable := true } }.done
  | .clear => { s with ee := { s.ee with discoveryEnable := false } }.done
  | .refuse => s.refusedWith .range

/-- SET_DISCOVERY (R47). -/
def execSetDiscovery (hd : RequestHeader) (d : List Byte) (s : State) : Host.Outcome State Fault Refusal :=
  request .setDiscovery hd (readByte d) (fun b t => t.discovery (readFlag b)) s

/-- START_HUNT (R109, R180). -/
def execStartHunt (hd : RequestHeader) (d : List Byte) (s : State) : Host.Outcome State Fault Refusal :=
  request .startHunt hd (readEmpty d)
    (fun _ t =>
      if t.draining = true ∨ t.il.startup = .listening then t.refusedWith .busy
      else if t.hu.flag.isSome then t.refusedWith .huntActive
      else if t.hu.opening then t.done
      else t.openHunt.done) s

/-- RESTART (R180): BUSY in DRAINING and while an earlier RESTART's OK waits to be carried. -/
def execRestart (hd : RequestHeader) (d : List Byte) (s : State) : Host.Outcome State Fault Refusal :=
  request .restart hd (readEmpty d)
    (fun _ t => if t.draining = true ∨ (t.rq.results.any Result.isRestart) = true then t.refusedWith .busy else t.done) s

end Sys2Proof.Machine
end

