-- ==== Sys2Proof/Machine/Dispatch.lean ====
section
/-! DEFINITION. One arm for each command: a direct call of its meaning. -/

namespace Sys2Proof.Machine

def exec (i : Instr) (s : State) : Host.Outcome State Fault Refusal :=
  match i with
  | .powerOnReset straps => Sys2Proof.Machine.execPowerOnReset straps s
  | .resetAsserted => Sys2Proof.Machine.execResetAsserted s
  | .imageLoadComplete words => Sys2Proof.Machine.execImageLoadComplete words s
  | .noImage => Sys2Proof.Machine.execNoImage s
  | .cycleStart => Sys2Proof.Machine.execCycleStart s
  | .messageFailure handle => Sys2Proof.Machine.execMessageFailure handle s
  | .releaseDropped handle => Sys2Proof.Machine.execReleaseDropped handle s
  | .dataRangeObservation window obs => Sys2Proof.Machine.execDataRangeObservation window obs s
  | .discoverObservation window obs => Sys2Proof.Machine.execDiscoverObservation window obs s
  | .quietObservation window light => Sys2Proof.Machine.execQuietObservation window light s
  | .downstreamPacket handle label bytes => Sys2Proof.Machine.execDownstreamPacket handle label bytes s
  | .claim src serial channel => Sys2Proof.Machine.execClaim src serial channel s
  | .held src serial channel => Sys2Proof.Machine.execHeld src serial channel s
  | .offer src serial fromChannel toChannel assured peak weight eqDelay => Sys2Proof.Machine.execOffer src serial fromChannel toChannel assured peak weight eqDelay s
  | .accept src serial channel newHandle => Sys2Proof.Machine.execAccept src serial channel newHandle s
  | .refuse src serial channel reason => Sys2Proof.Machine.execRefuse src serial channel reason s
  | .account src serial fromChannel mode credit base lowWater residueUp residueDown period => Sys2Proof.Machine.execAccount src serial fromChannel mode credit base lowWater residueUp residueDown period s
  | .taken src serial channel => Sys2Proof.Machine.execTaken src serial channel s
  | .reclaim src serial fromChannel => Sys2Proof.Machine.execReclaim src serial fromChannel s
  | .huntOpen src id => Sys2Proof.Machine.execHuntOpen src id s
  | .huntJoin src id channel count => Sys2Proof.Machine.execHuntJoin src id channel count s
  | .huntStep src id step selector => Sys2Proof.Machine.execHuntStep src id step selector s
  | .huntReady src id channel step named => Sys2Proof.Machine.execHuntReady src id channel step named s
  | .huntClose src id outcome => Sys2Proof.Machine.execHuntClose src id outcome s
  | .present src channel incumbent => Sys2Proof.Machine.execPresent src channel incumbent s
  | .carriedIgnoredFrame cls sender kind => Sys2Proof.Machine.execCarriedIgnoredFrame cls sender kind s
  | .frameCheckFailed frame => Sys2Proof.Machine.execFrameCheckFailed frame s
  | .lineIdleContend rival => Sys2Proof.Machine.execLineIdleContend rival s
  | .ownFrameVoided droveVoid => Sys2Proof.Machine.execOwnFrameVoided droveVoid s
  | .detachTimerExpiry => Sys2Proof.Machine.execDetachTimerExpiry s
  | .resultCarried straps => Sys2Proof.Machine.execResultCarried straps s
  | .reportCarried => Sys2Proof.Machine.execReportCarried s
  | .usageFirstPartCarried => Sys2Proof.Machine.execUsageFirstPartCarried s
  | .usageRecordCarried => Sys2Proof.Machine.execUsageRecordCarried s
  | .drainComplete straps => Sys2Proof.Machine.execDrainComplete straps s
  | .drainTimerExpiry straps => Sys2Proof.Machine.execDrainTimerExpiry straps s
  | .claimHoldExpiry handle => Sys2Proof.Machine.execClaimHoldExpiry handle s
  | .lostTimerExpiry handle => Sys2Proof.Machine.execLostTimerExpiry handle s
  | .handoverTimerExpiry handle => Sys2Proof.Machine.execHandoverTimerExpiry handle s
  | .inboundTimerExpiry handle => Sys2Proof.Machine.execInboundTimerExpiry handle s
  | .guardExpiry => Sys2Proof.Machine.execGuardExpiry s
  | .joinTimerExpiry => Sys2Proof.Machine.execJoinTimerExpiry s
  | .readyTimerExpiry => Sys2Proof.Machine.execReadyTimerExpiry s
  | .listeningTimerExpiry => Sys2Proof.Machine.execListeningTimerExpiry s
  | .repeatTimerExpiry source => Sys2Proof.Machine.execRepeatTimerExpiry source s
  | .setProfile hd data => Sys2Proof.Machine.execSetProfile hd data s
  | .setAccount hd data => Sys2Proof.Machine.execSetAccount hd data s
  | .refill hd data => Sys2Proof.Machine.execRefill hd data s
  | .move hd data => Sys2Proof.Machine.execMove hd data s
  | .remove hd data => Sys2Proof.Machine.execRemove hd data s
  | .hold hd data => Sys2Proof.Machine.execHold hd data s
  | .clearHold hd data => Sys2Proof.Machine.execClearHold hd data s
  | .queryHome hd data => Sys2Proof.Machine.execQueryHome hd data s
  | .listHomes hd data => Sys2Proof.Machine.execListHomes hd data s
  | .setTariff hd data guardPin => Sys2Proof.Machine.execSetTariff hd data guardPin s
  | .fixTariff hd data guardPin => Sys2Proof.Machine.execFixTariff hd data guardPin s
  | .setDiscovery hd data => Sys2Proof.Machine.execSetDiscovery hd data s
  | .startHunt hd data => Sys2Proof.Machine.execStartHunt hd data s
  | .restart hd data => Sys2Proof.Machine.execRestart hd data s
  | .band hd data => Sys2Proof.Machine.execBand hd data s
  | .closePeriod hd data => Sys2Proof.Machine.execClosePeriod hd data s
  | .setFreeLabels hd data => Sys2Proof.Machine.execSetFreeLabels hd data s

end Sys2Proof.Machine
end

