-- ==== Sys2Proof/Machine/Step.lean ====
section
/-! DEFINITION. One step: the command at the front of the queue; and the placing of a command there. -/

namespace Sys2Proof.Machine

/-- The state with one command fewer waiting. -/
def State.dequeue (s : State) : State := { s with pending := s.pending.tail }

/-- One step (DESIGN CHOICE, log entry 4): the command at the front of the queue is taken and has its effect; on an empty queue the block idles. -/
def step (s : State) : Host.Outcome State Fault Refusal :=
  match s.pending with
  | [] => .next s
  | c :: _ => exec c s.dequeue

/-- The state with a command put at the front of its queue. -/
def State.putFront (s : State) (c : Instr) : State := { s with pending := c :: s.pending }

/-- The state with the command this word spells at the front of its queue; unchanged where it spells none. The table gives its rows no bits, so no word spells one (log entry 37). -/
def State.withFetchWord (s : State) (nbits w : Nat) : State :=
  match decodeTableWord nbits w with
  | none => s
  | some c => s.putFront c

end Sys2Proof.Machine
end

