-- ==== Sys2Proof/WellFormed.lean ====
section
/-! DEFINITION. Well-formed commands: the ranges the manual gives each operand. The machine is total on ill-formed ones too. -/

namespace Sys2Proof

/-- A handle of the roster is 1 to 64 (R22). -/
def handleOk (h : Nat) : Bool := 1 ≤ h && h ≤ 64

/-- A channel is 0 to 3 (00_scope.md). -/
def channelOk (c : Nat) : Bool := c < 4

/-- A 32-bit quantity of millis (R143). -/
def millisOk (x : Nat) : Bool := x < 2 ^ 32

/-- An upstream packet: a 12-bit service label (R4). -/
def UpPacket.wf (p : UpPacket) : Bool := p.label < 4096

/-- A DATA or RANGE observation: a saturating 16-bit report (R4) and well-formed packets; the arrival offset lies in the span of the longest DATA window, a payload of 8,000 words (R13, R23). -/
def BurstObs.wf : BurstObs → Bool
  | .clean d _ _ q ps => -96 ≤ d && d ≤ 64031 && q < 65536 && ps.all UpPacket.wf
  | .garbled => true
  | .dark => true

/-- A DISCOVER observation: CLEAN lists at least one reply, each with a delay index 0 to 15 and an arrival in the span of a window of 6,000 words at most (R13, R15, R49, R189). -/
def DiscoverObs.wf : DiscoverObs → Bool
  | .clean rs => !rs.isEmpty && rs.all fun r => -96 ≤ r.arrival && r.arrival ≤ 47935 && r.delayIndex < 16
  | .garbled => true
  | .dark => true

/-- The window an observation names: its kind is one the row observes, and only DATA and RANGE windows have a handle (R3). -/
def WindowRef.wf (w : WindowRef) (kinds : List WindowKind) : Bool :=
  kinds.contains w.kind && w.start < 10000 &&
    (if w.kind = .data ∨ w.kind = .range then handleOk w.handle else w.handle == 0)

/-- A selector: a channel, a level 0 to 6 and a part of that level (R113). -/
def Selector.wf : Selector → Bool
  | .noChannel => true
  | .part c l j => channelOk c && l ≤ 6 && j < 2 ^ l

/-- A home a hunt notice names (R104). -/
def HomeRef.wf (r : HomeRef) : Bool := handleOk r.handle

/-- The outcome of a HUNT_CLOSE. -/
def HuntOutcome.wf : HuntOutcome → Bool
  | .found c r => channelOk c && r.wf
  | .notFound => true
  | .inconclusive => true
  | .abandoned => true

/-- A received frame holds as many data bytes as its length says, 48 at most (R173). -/
def RawFrame.wf (f : RawFrame) : Bool := f.data.length == min 48 f.length.toNat

/-- A repeat timer belongs to one of the five lasting conditions (R182). -/
def AlarmSource.lasting (a : AlarmSource) : Bool :=
  match a.kind with
  | .strayLight => a.handle == 0
  | .homeDrift => handleOk a.handle
  | .homeLost => handleOk a.handle
  | .creditLow => handleOk a.handle
  | .creditExhausted => handleOk a.handle
  | .rogueFound => false
  | .huntEnded => false
  | .duplicateSerial => false

/-- The data field of a frame holds 0 to 48 bytes (R173). -/
def dataOk (d : List Byte) : Bool := d.length ≤ 48

/-- The profile a peer's OFFER carries lies in the ranges of R23. -/
def profileOk (a p w : Nat) : Bool := a ≤ 2000 && a ≤ p && p ≤ 8000 && 1 ≤ w && w ≤ 15

/-- Well-formed commands. -/
def Instr.wf : Instr → Bool
  | .powerOnReset _ => true
  | .resetAsserted => true
  | .imageLoadComplete words => words.length == 30
  | .noImage => true
  | .cycleStart => true
  | .messageFailure h => handleOk h
  | .releaseDropped h => handleOk h
  | .dataRangeObservation w o => w.wf [.data, .range] && o.wf
  | .discoverObservation w o => w.wf [.discover] && o.wf
  | .quietObservation w _ => w.wf [.quiet]
  | .downstreamPacket _ label _ => label < 4096
  | .claim _ _ c => channelOk c
  | .held _ _ c => channelOk c
  | .offer _ _ f t a p w e => channelOk f && channelOk t && profileOk a p w && e ≤ 160000
  | .accept _ _ c h => channelOk c && handleOk h
  | .refuse _ _ c _ => channelOk c
  | .account _ _ f _ c b l ru rd p =>
      channelOk f && millisOk c && millisOk b && millisOk l && ru < 65536 && rd < 65536 && millisOk p
  | .taken _ _ c => channelOk c
  | .reclaim _ _ f => channelOk f
  | .huntOpen _ _ => true
  | .huntJoin _ _ c n => channelOk c && n ≤ 64
  | .huntStep _ _ k sel => 1 ≤ k && k ≤ 12 && sel.wf
  | .huntReady _ _ c k named => channelOk c && 1 ≤ k && k ≤ 12 && named.all HomeRef.wf
  | .huntClose _ _ o => o.wf
  | .present _ c _ => channelOk c
  | .carriedIgnoredFrame cls _ _ => 2 ≤ cls.toNat
  | .frameCheckFailed f => f.wf
  | .lineIdleContend _ => true
  | .ownFrameVoided _ => true
  | .detachTimerExpiry => true
  | .resultCarried _ => true
  | .reportCarried => true
  | .usageFirstPartCarried => true
  | .usageRecordCarried => true
  | .drainComplete _ => true
  | .drainTimerExpiry _ => true
  | .claimHoldExpiry h => handleOk h
  | .lostTimerExpiry h => handleOk h
  | .handoverTimerExpiry h => handleOk h
  | .inboundTimerExpiry h => handleOk h
  | .guardExpiry => true
  | .joinTimerExpiry => true
  | .readyTimerExpiry => true
  | .listeningTimerExpiry => true
  | .repeatTimerExpiry src => src.lasting
  | .setProfile _ d => dataOk d
  | .setAccount _ d => dataOk d
  | .refill _ d => dataOk d
  | .move _ d => dataOk d
  | .remove _ d => dataOk d
  | .hold _ d => dataOk d
  | .clearHold _ d => dataOk d
  | .queryHome _ d => dataOk d
  | .listHomes _ d => dataOk d
  | .setTariff _ d _ => dataOk d
  | .fixTariff _ d _ => dataOk d
  | .setDiscovery _ d => dataOk d
  | .startHunt _ d => dataOk d
  | .restart _ d => dataOk d
  | .band _ d => dataOk d
  | .closePeriod _ d => dataOk d
  | .setFreeLabels _ d => dataOk d

end Sys2Proof
end

