-- ==== Sys2Proof/Safety.lean ====
section
/-! DEFINITION. The terms claims use: what offering may change, the frames, when a request is taken, and the invariants of a safe run. -/

namespace Sys2Proof.Machine

/-! ### Offering (R168, R176, R183) -/

/-- A producer's notices not yet carried, oldest first: the one in the slot, those presented, those queued (R176). -/
def State.outgoing (s : State) (who : Producer) : List Notice :=
  ((s.slp.noticeSlot.toList.map SlotNotice.notice).filter fun n => n.producer = who) ++
    (s.slp.presented.filter fun n => n.producer = who) ++ s.slp.queue who

/-- An alarm place without its age: the age only orders the places of one moment (R183). -/
def AlarmPlace.content4 (p : AlarmPlace) : AlarmSource × AlarmContent × Bool × Nat := (p.source, p.content, p.repeated, p.count)

/-- The alarm place in the report slot, if an alarm stands there. -/
def ReportFrame.alarm (f : ReportFrame) : List AlarmPlace :=
  match f.body with
  | .alarm p _ => [p]
  | .event _ _ => []

/-- The alarm places that are not idle: in the slot or pending (R183). -/
def State.places (s : State) : List (AlarmSource × AlarmContent × Bool × Nat) :=
  ((s.slp.reportSlot.toList.flatMap ReportFrame.alarm) ++ s.rq.alarms).map AlarmPlace.content4

/-- The state without what offering may change: the notices on their way, the slots, the pending places and the numbers of reports and records. -/
def State.bare (s : State) : State :=
  { s with
    slp := { s.slp with queued := [], presented := [], noticeSlot := none,
                        reportSlot := none, usageSlot := none }
    rq := { s.rq with alarms := [], reportNumber := 0, recordNumber := 0 }
    choices := 0 }

/-- The pending alarm places that became pending at the earliest moment: the first of the list and those tied to it. The places that became pending in the command that ends now are of one moment (R183). -/
def State.earliest (s : State) : List AlarmPlace :=
  match s.rq.alarms with
  | [] => []
  | p :: rest => p :: rest.takeWhile fun q => q.age = .tied || (p.age = .fresh && q.age = .fresh)

/-- The notices with the port, oldest first: the one in the slot, then those presented (R176). -/
def State.withPort (s : State) : List Notice := s.slp.noticeSlot.toList.map SlotNotice.notice ++ s.slp.presented

/-- The empty report slot has taken this frame (R175, R183, R184): it carries the report number as it stood, which then advances (log entry 15), and the frame is a pending alarm place of the earliest moment, or, with no place pending, the oldest event with the dropped mark as it stood. -/
def ReportTaken (u t : State) (f : ReportFrame) : Prop :=
  f.number = u.rq.reportNumber ∧ t.rq.reportNumber = u.rq.reportNumber + 1 ∧
    ((∃ p ∈ u.earliest, ∃ q, f.body = .alarm q none ∧ q.content4 = p.content4) ∨
      (u.rq.alarms = [] ∧ ∃ e rest, u.rq.events = e :: rest ∧ f.body = .event e u.rq.dropped))

/-- The empty usage slot has taken this frame (R168, R175): the first part of the record of the lowest handle whose account holds a snapshot, under the record number as it stood, which then advances (log entry 15). -/
def UsageTaken (u t : State) (f : UsageFrame) : Prop :=
  t.rq.recordNumber = u.rq.recordNumber + 1 ∧ f.handle ∈ handles ∧
    (∀ k ∈ handles, k < f.handle → (u.acct k).bind Account.snapshot = none) ∧
    ∃ sn, (u.acct f.handle).bind Account.snapshot = some sn ∧
      f = { handle := f.handle, serial := (u.entry f.handle).serial, channel := u.channel, content := sn,
            number := u.rq.recordNumber, part := .first }

/-- `t` is `u` with its frames offered: nothing but the offering differs, no notice or alarm place is lost, added or reordered within its producer, the notices with the port keep their order with those presented now behind them, an occupied slot keeps its frame, an empty one takes the frame its rule names or has nothing left to take, the numbers advance with the frames taken, and the Enrolment Engine's queue is kept while the port is DETACHED (R59, R168, R175, R176, R183, R184). That the slots are filled once, at the end of a command, is log entry 6, and what is held back while DETACHED is log entry 40. -/
structure Offered (u t : State) : Prop where
  rest : t.bare = u.bare
  notices : ∀ who, t.outgoing who = u.outgoing who
  places : t.places.Perm u.places
  noticeKept : ∀ x, u.slp.noticeSlot = some x → t.slp.noticeSlot = some x
  reportKept : ∀ x, u.slp.reportSlot = some x → t.slp.reportSlot = some x
  usageKept : ∀ x, u.slp.usageSlot = some x → t.slp.usageSlot = some x
  noticeOrder : ∃ later, t.withPort = u.withPort ++ later
  noticeTaken : u.slp.noticeSlot = none → ∀ x, t.slp.noticeSlot = some x → x.withdrawn = false
  noticeLeft : t.slp.noticeSlot = none → t.slp.presented = []
  reportTaken : u.slp.reportSlot = none → ∀ f, t.slp.reportSlot = some f → ReportTaken u t f
  reportNumber : u.slp.reportSlot ≠ none ∨ t.slp.reportSlot = none → t.rq.reportNumber = u.rq.reportNumber
  usageTaken : u.slp.usageSlot = none → ∀ f, t.slp.usageSlot = some f → UsageTaken u t f
  recordNumber : u.slp.usageSlot ≠ none ∨ t.slp.usageSlot = none → t.rq.recordNumber = u.rq.recordNumber
  noticeFull : t.slp.noticeSlot = none → ∀ who, t.slp.holdsBack who = false → t.outgoing who = []
  heldBack : t.slp.lineState = .detached → t.slp.queue .enrolment = u.slp.queue .enrolment
  reportFull : t.slp.reportSlot = none → t.places = [] ∧ t.rq.events = []
  usageFull : t.slp.usageSlot = none → ∀ h ∈ handles, (t.acct h).bind Account.snapshot = none

/-! ### Frames -/

/-- Every entry, account and drift datum but those at the handle is unchanged. -/
def OthersSame (s t : State) (h : Nat) : Prop :=
  ∀ k, k ≠ h → t.entry k = s.entry k ∧ t.acct k = s.acct k ∧ t.drift k = s.drift k

/-- The tariff table, the free labels, the band in force and the period number are unchanged. -/
def TablesSame (s t : State) : Prop :=
  t.um.tariff = s.um.tariff ∧ t.um.freeLabels = s.um.freeLabels ∧ t.um.band = s.um.band ∧ t.um.period = s.um.period

/-- The line state, the counts and timers of the port, and the frame in transmission are unchanged. -/
def LineSame (s t : State) : Prop :=
  t.slp.station = s.slp.station ∧ t.slp.lineState = s.slp.lineState ∧ t.slp.voidCount = s.slp.voidCount ∧
    t.slp.detachTimer = s.slp.detachTimer ∧ t.slp.detachSpan = s.slp.detachSpan ∧ t.slp.transmitting = s.slp.transmitting

/-- What no rule about one home changes: the maps, the capture list, the stray history, the image and the start-up state, the results, the commands that wait. -/
def HomeFrame (s t : State) (h : Nat) : Prop :=
  OthersSame s t h ∧ TablesSame s t ∧ LineSame s t ∧ t.cb = s.cb ∧ t.ee = s.ee ∧ t.ua.rho = s.ua.rho ∧
    t.ua.floor = s.ua.floor ∧ t.lw.history = s.lw.history ∧ t.lw.condition = s.lw.condition ∧ t.il = s.il ∧
    t.rq.results = s.rq.results ∧ t.resetHeld = s.resetHeld ∧ t.pending = s.pending

/-- The event is the newest of the queue, or was dropped because 16 were queued (R184). -/
def Raised (s t : State) (e : Event) : Prop :=
  if s.rq.events.length < 16 then t.rq.events = s.rq.events ++ [e] ∧ t.rq.dropped = s.rq.dropped
  else t.rq.events = s.rq.events ∧ t.rq.dropped = true

/-- No event is raised. -/
def NoEvent (s t : State) : Prop := t.rq.events = s.rq.events ∧ t.rq.dropped = s.rq.dropped

/-- An alarm of this source was raised with this content (R182, R183), where its kind's mode is not OFF: the source's place holds the content with the count 1, or one more where it was pending; where the place stands in the report slot, the later report behind it holds the content. That the place or the later report is left unmarked as a repeat where the raising merges into one that waits is the model's choice (log entry 45). -/
def Alarmed (s t : State) (a : AlarmSource) (c : AlarmContent) : Prop :=
  s.img.alarmModes.get a.kind ≠ .off →
    (s.slp.alarmInSlot a = false → ∃ n, (a, c, false, n) ∈ t.places ∧ ((∀ p ∈ s.places, p.1 ≠ a) → n = 1)) ∧
    (s.slp.alarmInSlot a = true → ∃ f p l, t.slp.reportSlot = some f ∧ f.body = .alarm p (some l) ∧ p.source = a ∧
      l.content = c ∧ l.repeated = false)

/-- The entry as the move's end leaves it before the checks of its counts: ACTIVE without its context (R26). -/
def Entry.back (e : Entry) : Entry :=
  { e with state := .active, missed := 0, rangeAttempts := 0, recontact := 0, idle := 0, lostTimer := none, handover := none }

/-- The entry as its loss leaves it (R38). -/
def Entry.gone (e : Entry) (lostTime : Nat) : Entry :=
  { e with
    state := .lost, losses := min 255 (e.losses + 1), holds := { e.holds with drift := false }, mailbox := none, missed := 0,
    misplaced := 0, rangeAttempts := 0, recontact := 0, reRangeIdle := 0, reportQ := 0, lostTimer := some lostTime,
    handover := none }

/-- An entry that while DRAINING enters ACTIVE or LOST as `e` closes in the same change (R43, R64, R192): CLOSING with RELEASE posted, the account finished with a RESTART record as every closing account is (R159, R166), its term unbooked, its re-range and its alarm conditions ended; nothing of another home changes. -/
def DrainClosed (s t : State) (h : Nat) (e : Entry) : Prop :=
  t.entry h = Entry.post { e with state := .closing, lostTimer := none, handover := none } .release ∧
  t.acct h = (s.enterClosing h .restart true).acct h ∧
  t.ua = { s.ua with booked := s.ua.booked - (s.entry h).bookedTerm } ∧ t.drift h = { s.drift h with phase := .off } ∧
  (∀ r ∈ t.rq.repeats, r.source ≠ { kind := .homeDrift, handle := h } ∧ r.source ≠ { kind := .homeLost, handle := h } ∧
    r.source ≠ { kind := .creditLow, handle := h } ∧ r.source ≠ { kind := .creditExhausted, handle := h }) ∧
  t.hu = s.hu ∧ OthersSame s t h

/-- The entry back from its move, as its counts say (R26, R37, R93): ACTIVE; with three misplaced bursts under the DRIFT hold; with eight missed windows LOST. -/
def Entry.backByCounts (e : Entry) (lostTime : Nat) : Entry :=
  if 8 ≤ e.missed then e.back.gone lostTime
  else if 3 ≤ e.misplaced then { e.back with holds := { e.holds with drift := true }, reRangeIdle := 0 }
  else e.back

/-- A LEAVING or TUNING entry is back from its move (R26, R37, R93, R192): ACTIVE, under the DRIFT hold or LOST as its counts say, and while DRAINING closed from there. With three misplaced bursts HOME_DRIFT is raised with the offset of the third (log entry 16), with eight missed windows HOME_LOST; the order of the two where both fall together is free, and nothing is said of HOME_DRIFT there (log entry 8). -/
def Returned (s t : State) (h : Nat) : Prop :=
  let e := s.entry h
  (s.draining = false →
    t.entry h = e.backByCounts s.img.lostTime ∧
    t.drift h = { s.drift h with
      phase := if 8 ≤ e.missed then .off else if 3 ≤ e.misplaced then .seeking else (s.drift h).phase } ∧
    t.acct h = s.acct h ∧ t.ua = s.ua ∧ t.hu = s.hu ∧ OthersSame s t h) ∧
  (s.draining = true → DrainClosed s t h (e.backByCounts s.img.lostTime)) ∧
  (e.missed < 8 → 3 ≤ e.misplaced →
    Alarmed s t { kind := .homeDrift, handle := h } (.homeDrift e.serial h ((s.drift h).tripOffset.getD 0))) ∧
  (8 ≤ e.missed → Alarmed s t { kind := .homeLost, handle := h } (.homeLost e.serial))

/-- The conditions of a changed account follow its quota state (R147): none ends or starts where the state is the same; otherwise the condition of the old state has ended and that of the new one starts with its alarm, which carries the credit and the low-water, and with its repeat timer in LEVEL. -/
def CreditFollows (s t : State) (h : Nat) (old new : Quota) (credit low : Nat) : Prop :=
  let lows : AlarmSource := { kind := .creditLow, handle := h }
  let outs : AlarmSource := { kind := .creditExhausted, handle := h }
  let told : AlarmContent := .credit (s.entry h).serial h credit low
  (new = old → t.rq.repeats = s.rq.repeats ∧ t.places.Perm s.places) ∧
  (new ≠ old →
    (new ≠ .low → ∀ r ∈ t.rq.repeats, r.source ≠ lows) ∧ (new ≠ .exhausted → ∀ r ∈ t.rq.repeats, r.source ≠ outs) ∧
    (new = .opened → t.places.Perm s.places) ∧
    (new = .low → Alarmed s t lows told ∧ (s.img.alarmModes.creditLow = .level →
      { source := lows, remaining := 4000, content := told } ∈ t.rq.repeats)) ∧
    (new = .exhausted → Alarmed s t outs told ∧ (s.img.alarmModes.creditExhausted = .level →
      { source := outs, remaining := 4000, content := told } ∈ t.rq.repeats)))

/-! ### When a command is taken -/

/-- The roster gives this entry for the serial (R22). -/
def State.holdsAt (s : State) (serial : Serial) (h : Nat) : Prop := s.find serial = some h

/-- The own notice in transmission, not withdrawn. -/
def State.transmits (s : State) (n : Notice) : Prop :=
  s.slp.transmitting = some .notice ∧ s.slp.noticeSlot = some { notice := n, withdrawn := false }

/-- A request with a result is taken (R180). -/
def State.takes (s : State) (hd : RequestHeader) : Prop :=
  s.resetHeld = false ∧ s.addressed hd = true ∧ hd.voidedByOther = false ∧ s.rq.results.length < 4 ∧
    (s.il.startup = .listening ∨ s.il.startup = .operating ∨ s.il.startup = .draining)

/-- A broadcast is taken (R180). -/
def State.takesBroadcast (s : State) (hd : RequestHeader) : Prop :=
  s.resetHeld = false ∧ s.addressed hd = true ∧ hd.voidedByOther = false ∧
    (s.il.startup = .listening ∨ s.il.startup = .operating ∨ s.il.startup = .draining)

/-- The state with a result queued and the void flag not driven (R174, R179). -/
def State.withResult (s : State) (kind : RequestKind) (hd : RequestHeader) (code : ResultCode) (data : ResultData) : State :=
  { s with
    rq := { s.rq with results := s.rq.results ++
      [{ kind := kind, requester := hd.requester, tag := hd.tag, code := code, data := data }] }
    ports := { s.ports with voidDriven := false } }

/-! ### Invariants -/

/-- The counts named here stay in the ranges their rules give (R10, R23, R50, R87, R178, R179, R184). -/
def CountsInv (s : State) : Prop :=
  s.cb.ring.length ≤ 4 ∧ s.ee.captures.length = 4 ∧ s.lw.history.length ≤ 8 ∧ s.slp.voidCount ≤ 32 ∧
    s.rq.results.length ≤ 4 ∧ s.rq.events.length ≤ 16 ∧
    ∀ h, (s.entry h).idle ≤ 255 ∧ (s.entry h).reRangeIdle ≤ 255 ∧ (s.entry h).missed ≤ 8 ∧
      (s.entry h).losses ≤ 255 ∧ (s.entry h).misplaced ≤ 3 ∧ (s.entry h).duplicates ≤ 255 ∧ (s.entry h).rangeAttempts ≤ 8 ∧ (s.entry h).recontact ≤ 16

/-- The roster law (R22 to R24, R45, R53, R104, R190): a FREE entry is cleared and has no account, every other holds a serial, no serial is held twice, every E lies in the reach of the image, a claim in the capture list names the CLAIMING entry of its serial, a live hunt position still holds its home, and the roster is all FREE before OPERATING. -/
def RosterInv (s : State) : Prop :=
  (∀ h, (s.entry h).state = .free → s.entry h = Entry.free ∧ s.acct h = none) ∧
  (∀ h, (s.entry h).state ≠ .free → (s.entry h).serial.isSome = true) ∧
  (∀ h k, (s.entry h).state ≠ .free → (s.entry k).state ≠ .free → (s.entry h).serial = (s.entry k).serial → h = k) ∧
  (s.img.rLow ≤ s.img.rHigh ∧ s.img.rHigh ≤ 160000 ∧
    ∀ h e, (s.entry h).eqDelay = some e → 160000 - s.img.rHigh ≤ e ∧ e ≤ 160000 - s.img.rLow) ∧
  (∀ c ∈ s.ee.captures, ∀ k p, c = some k → k.claim = some p →
    (s.entry p.handle).state = .claiming ∧ (s.entry p.handle).serial = some k.serial) ∧
  (∀ p ∈ s.hu.frozen, p.dead = false → s.isHome p.home = true) ∧
  (s.builds = false → ∀ h, (s.entry h).state = .free)

/-- The booked sum is the sum of the terms of the entries that count in it, and stays within the admission floor (R82, R83). -/
def BookedInv (s : State) : Prop :=
  s.ua.booked = (handles.map fun h => (s.entry h).bookedTerm).sum ∧ s.ua.booked ≤ s.ua.floor

/-- The hunt record hangs together (R103 to R106): with the role NONE no entry holds HUNT and the list is empty; with a role taken the flag is set with its hunt; the guard runs while the flag is set; the frozen list is ascending, without duplicates and at most 64 long. -/
def HuntInv (s : State) : Prop :=
  (s.hu.role = .noRole → (∀ h, (s.entry h).holds.hunt = false) ∧ s.hu.frozen = [] ∧ s.hu.awaiting = none ∧ s.hu.huntId = none) ∧
  (s.hu.role ≠ .noRole → s.hu.flag.isSome = true ∧ s.hu.huntId = s.hu.flag) ∧
  (s.hu.guardTimer.isSome = s.hu.flag.isSome) ∧
  (s.hu.frozen.map fun p => p.home.handle).Pairwise (· < ·) ∧ s.hu.frozen.length ≤ 64 ∧
  ∀ p ∈ s.hu.frozen, 1 ≤ p.home.handle ∧ p.home.handle ≤ 64

/-- An account's values stay in their ranges, and its quota state follows its mode, credit and low-water (R143, R146). -/
def Account.Good (a : Account) : Prop :=
  a.credit ≤ Config.millisMax ∧ a.base ≤ Config.millisMax ∧ a.lowWater ≤ Config.millisMax ∧ a.residueUp < Config.blockBytes ∧
    a.residueDown < Config.blockBytes ∧ a.quota = quotaOf a.mode a.credit a.lowWater ∧
    a.counters.upCharged ≤ Config.counterMax ∧ a.counters.downCharged ≤ Config.counterMax ∧
    a.counters.upFree ≤ Config.counterMax ∧ a.counters.downFree ≤ Config.counterMax ∧
    a.counters.charged ≤ Config.counterMax ∧ a.counters.overdraw ≤ Config.counterMax

/-- The law of an account (R155): overdraw is at most charged, and while charged has not saturated, credit_open and adjusted together are the credit and what was charged, less the overdraw. -/
def Account.Balanced (a : Account) : Prop :=
  a.creditOpen ≤ Config.millisMax ∧ a.counters.overdraw ≤ a.counters.charged ∧
    (a.counters.charged < Config.counterMax →
      (a.creditOpen : Int) + a.adjusted = (a.credit : Int) + a.counters.charged - a.counters.overdraw)

/-- The states whose account is open, or frozen as it was open (R144). -/
def HomeState.accountRuns : HomeState → Bool
  | .active => true
  | .leaving => true
  | .tuning => true
  | .lost => true
  | .handed => true
  | .free => false
  | .claiming => false
  | .confirming => false
  | .arriving => false
  | .taking => false
  | .closing => false

/-- Every account is good, and every open or frozen one is balanced. -/
def AccountsInv (s : State) : Prop :=
  ∀ h a, s.acct h = some a → a.Good ∧ ((s.entry h).state.accountRuns = true → a.Balanced)

/-- The states with a handover context, with its direction (R124). -/
def HomeState.direction : HomeState → Option Direction
  | .leaving => some .outbound
  | .tuning => some .outbound
  | .handed => some .outbound
  | .arriving => some .inbound
  | .taking => some .inbound
  | .free => none
  | .claiming => none
  | .confirming => none
  | .active => none
  | .lost => none
  | .closing => none

/-- What an entry's state says of its parts (R23, R27, R41, R87, R124): the handover context and its direction, the lost timer, where DRIFT may stand, and the re-range phase. -/
def PartsInv (s : State) : Prop :=
  ∀ h, (s.entry h).handover.map Handover.direction = (s.entry h).state.direction ∧
    ((s.entry h).lostTimer.isSome = true ↔ (s.entry h).state = .lost) ∧
    ((s.entry h).holds.drift = true → (s.entry h).state = .active ∨ (s.entry h).state = .closing) ∧
    ((s.drift h).phase ≠ .off ↔ (s.entry h).holds.drift = true ∧ (s.entry h).state = .active)

/-- The image lies in the ranges the checks allow, as far as the layout of a map reads it (R189). -/
def Image.Fits (img : Image) : Prop := img.wDisc ≤ 6000 ∧ img.qLen ≤ 512

/-- The image lies in the ranges its checks allow (R81, R189; W_disc at most 6,000 is log entry 47), and the admission floor is above the term of its default profile. -/
def Image.Good (img : Image) : Prop :=
  img.channel < 4 ∧ img.rLow < img.rHigh ∧ img.rHigh ≤ 160000 ∧
    (img.rHigh - img.rLow + 7) / 8 + 976 ≤ img.wDisc ∧ img.wDisc ≤ 6000 ∧
    (img.pDisc = 0 ∨ (16 ≤ img.pDisc ∧ img.pDisc ≤ 1024)) ∧ 16 ≤ img.qLen ∧ img.qLen ≤ 512 ∧
    1 ≤ img.qPeriod ∧ img.qPeriod ≤ 16 ∧ 1 ≤ img.kPoll ∧ img.kPoll ≤ 64 ∧ img.lifeline ≤ 256 ∧
    img.defaultProfile.assured ≤ 2000 ∧ img.defaultProfile.assured ≤ img.defaultProfile.peak ∧
    img.defaultProfile.peak ≤ 8000 ∧ 1 ≤ img.defaultProfile.weight ∧ img.defaultProfile.weight ≤ 15 ∧
    1 ≤ img.claimHold ∧ 1 ≤ img.handoverTime ∧ 1 ≤ img.lostTime ∧ 1 ≤ img.sThr ∧ img.sThr ≤ 8 ∧
    3344 ≤ admissionFloor img ∧ term img.defaultProfile.assured ≤ admissionFloor img

/-- A loaded image is good, and the admission floor is the one it gives (R81, R189). -/
def ImageInv (s : State) : Prop := ∀ img, s.il.image = some img → img.Good ∧ s.ua.floor = admissionFloor img

/-- The law of a snapshot (R163): while charged has not saturated, opening, adjusted and rolled together are the closing credit and what was charged, less the overdraw. -/
def Snapshot.Balanced (sn : Snapshot) : Prop :=
  sn.counters.overdraw ≤ sn.counters.charged ∧ sn.counters.charged ≤ Config.counterMax ∧
    (sn.counters.charged < Config.counterMax →
      (sn.opening : Int) + sn.adjusted + sn.rolled = (sn.closing : Int) + sn.counters.charged - sn.counters.overdraw)

/-- The snapshot still holds all that a record offered from it carries (R163, R168). -/
def Snapshot.Holds (sn offered : Snapshot) : Prop :=
  sn.opening = offered.opening ∧ offered.counters.charged ≤ sn.counters.charged ∧
    (sn.counters.charged < Config.counterMax →
      offered.counters.overdraw ≤ sn.counters.overdraw ∧
      sn.counters.overdraw + offered.counters.charged ≤ sn.counters.charged + offered.counters.overdraw)

/-- Every snapshot is balanced and stands at an account that runs or is closing, and a record in the usage slot is balanced and still held by the snapshot of its account (R163, R166, R168). -/
def SnapshotsInv (s : State) : Prop :=
  (∀ h a sn, s.acct h = some a → a.snapshot = some sn →
    sn.Balanced ∧ ((s.entry h).state.accountRuns = true ∨ (s.entry h).state = .closing)) ∧
  ∀ f, s.slp.usageSlot = some f → f.content.Balanced ∧
    ∃ a sn, s.acct f.handle = some a ∧ a.snapshot = some sn ∧ sn.Holds f.content

/-- Every command that waits is well formed. -/
def QueueWf (s : State) : Prop := ∀ c ∈ s.pending, c.wf = true

end Sys2Proof.Machine
end

