-- ==== Sys2Proof/Certificates/Slice0/Obligations.lean ====
section
/-! DEFINITION. The statements for the provers. Where a statement says `Offered u t`, the next state `t` is the state `u` once notices are presented and the offer slots filled, and nothing else (Sys2Proof/Safety.lean); that this is done once, at the end of a command, is the model's inference (log entry 6). That a timer is due with at most one cycle start to come is the model's own choice (log entry 2), and so is the command queue (log entry 4). -/

open Sys2Proof Sys2Proof.Machine

/-! ### The machine -/

/-- The command at the front of the queue is taken and has its effect with the rest of the queue; with none waiting the block idles. The queue is the model's own (log entry 4). -/
def Obligations.StepRunsFront : Prop :=
  (∀ (c : Instr) (rest : List Instr) (s : State), s.pending = c :: rest → step s = exec c { s with pending := rest }) ∧
  ∀ s : State, s.pending = [] → step s = .next s

/-- The reset pin (R186, R187): its release gives every block its reset value with the straps read; held low, the part drives nothing and takes nothing. That every field then stands as it was, and that no command but a release changes it, is the model's reading (log entry 5). The queue and the model's own counter are not the part's. -/
def Obligations.ResetPin : Prop :=
  ∀ (straps : Station) (s : State),
    exec (.powerOnReset straps) s =
      .next { State.reset with slp := LinePort.reset straps, choices := s.choices, pending := s.pending } ∧
    exec .resetAsserted s =
      .next { s with resetHeld := true, slp := { s.slp with transmitting := none }, ports := Ports.reset } ∧
    (s.resetHeld = true → ∀ c : Instr, (∀ st, c ≠ .powerOnReset st) → c ≠ .resetAsserted → exec c s = .next s)

/-- The state right after reset meets every invariant below, with every entry FREE and no account (R46, R160, R187); no image is loaded (R188), and the admission floor of 0 is the model's choice (log entry 41). -/
def Obligations.ResetMeetsInvariants : Prop :=
  CountsInv State.reset ∧ RosterInv State.reset ∧ BookedInv State.reset ∧ HuntInv State.reset ∧
    AccountsInv State.reset ∧ PartsInv State.reset ∧ ImageInv State.reset ∧ State.reset.il.image = none ∧
    ∀ h, State.reset.entry h = Entry.free ∧ State.reset.acct h = none

/-- The counts that `CountsInv` names stay in their ranges through every step: the maps of the ring, the places of the capture list, the stray history, the void count, the results and events queued, and each entry's idle, the idle count of its re-range (log entry 42), missed, losses, misplaced, duplicates, range attempts and re-contact counts (R10, R23, R50, R87, R178, R179, R184). -/
def Obligations.CountsKept : Prop := ∀ s t : State, CountsInv s → step s = .next t → CountsInv t

/-- The roster law through every step (R22 to R24, R45, R53, R104): no serial is held by two entries that are not FREE, FREE entries are cleared and have no account, every E lies in the reach, every claim in the capture list names its CLAIMING entry, live hunt positions hold their homes, and the roster is all FREE before OPERATING. An entry leaves CLOSING for FREE only when a usage record has been carried, or when the part is reset (R44, R45): by the reset pin, at the end of draining, or by the RESTART of a carried result. -/
def Obligations.RosterKept : Prop :=
  (∀ s t : State, RosterInv s → step s = .next t → RosterInv t) ∧
  ∀ (s t : State) (c : Instr) (rest : List Instr) (h : Nat), RosterInv s → s.pending = c :: rest → step s = .next t →
    (s.entry h).state = .closing → (t.entry h).state = .free →
    c = .usageRecordCarried ∨ ∃ st, c = .powerOnReset st ∨ c = .drainComplete st ∨ c = .drainTimerExpiry st ∨ c = .resultCarried st

/-- The booked sum stays the sum of the terms of the entries that count, and within the admission floor, through every step (R82, R83). A loaded image keeps the ranges of its checks, and the admission floor is the one it gives (R81, R189); that a W_disc above 6,000 is no good image is the model's choice (log entry 47). -/
def Obligations.BookedKept : Prop :=
  (∀ s t : State, RosterInv s → BookedInv s → step s = .next t → BookedInv t) ∧
  ∀ s t : State, ImageInv s → step s = .next t → ImageInv t

/-- The hunt record hangs together through every step: while the role is NONE no entry holds HUNT, and the frozen list is ascending, without duplicates and at most 64 long (R104 to R106). From join to close the list is unchanged but for its dead marks, which a step sets on exactly the live positions whose entries it frees (R104). -/
def Obligations.HuntKept : Prop :=
  (∀ s t : State, HuntInv s → step s = .next t → HuntInv t) ∧
  ∀ s t : State, step s = .next t → s.hu.role ≠ .noRole → t.hu.role ≠ .noRole →
    ∃ freed : List Nat,
      t.hu.frozen = (s.hu.frozen.map fun p => { p with dead := p.dead || freed.contains p.home.handle }) ∧
      (∀ h ∈ freed, (t.entry h).state = .free) ∧
      ∀ h, (s.entry h).state ≠ .free → (t.entry h).state = .free → h ∈ freed

/-- Every account stays in its ranges, its quota state follows its mode, credit and low-water, and the law of every open account holds through every step: while charged has not saturated, credit_open + adjusted = credit + charged − overdraw (R143, R146, R155). In every state, a HANDED account is unchanged but for its snapshot until the entry leaves HANDED, and is reinstated unchanged where it returns to LOST (R135, R136); and no step counts or debits at an account whose entry is not ACTIVE, LEAVING or TUNING: its counters stand or begin again at zero (R144, R155). -/
def Obligations.AccountsKept : Prop :=
  (∀ s t : State, QueueWf s → AccountsInv s → step s = .next t → AccountsInv t) ∧
  ∀ (s t : State) (h : Nat) (a b : Account), step s = .next t → s.acct h = some a → t.acct h = some b →
    ((s.entry h).state = .handed → (t.entry h).state = .handed ∨ (t.entry h).state = .lost →
      b = { a with snapshot := b.snapshot }) ∧
    ((s.entry h).state.served = false → b.counters = a.counters ∨ b.counters = Counters.zero)

/-- The parts of an entry agree with its state through every step: handover context, lost timer, DRIFT hold, re-range phase (R27, R41, R87, R124). -/
def Obligations.PartsKept : Prop := ∀ s t : State, PartsInv s → step s = .next t → PartsInv t

/-- The law of a snapshot (R163, R166, R169): it holds at reset and through every step that, while charged has not saturated, opening + adjusted + rolled = closing + charged − overdraw in every snapshot waiting at an account and in every record in the usage slot, that a snapshot stands only at an account that runs or is closing, and that the snapshot of a record in delivery still holds all the record carries. The roster law and the law of every account are its premises. -/
def Obligations.SnapshotLawKept : Prop :=
  SnapshotsInv State.reset ∧
  ∀ s t : State, QueueWf s → RosterInv s → AccountsInv s → SnapshotsInv s → step s = .next t → SnapshotsInv t

/-! ### Maps and allocation (chapters 1 and 4) -/

/-- Stage 1 fits (R74): with the booked sum within the admission floor of the image, the cost of all stage-1 grants is at most the capacity for data of any map; an eligible entry is counted in the booked sum, its effective assured share is at most A, its grant is at most max(A′, 4), and it costs at most max(A, 4) + 16. -/
def Obligations.StageOneFits : Prop :=
  ∀ (s : State) (n : CycleNo), s.img.Fits →
    (handles.map fun h => (s.entry h).bookedTerm).sum ≤ admissionFloor s.img →
    admissionFloor s.img ≤ s.dataCapacity n ∧
    (∀ h, s.assuredCap h ≤ (s.entry h).prof.assured ∧
      ((s.entry h).eligible = true → (s.entry h).bookedTerm = max (s.entry h).prof.assured 4 + 16)) ∧
    (∀ i ∈ s.allocInputs, stage1 s.img.kPoll i ≤ max i.assuredCap 4 ∧ i.assuredCap = s.assuredCap i.handle) ∧
    (∀ h, grantCost 0 (stage1 s.img.kPoll
        { handle := h, weight := (s.entry h).prof.weight, demand := s.demand h, idle := (s.entry h).idle,
          assuredCap := s.assuredCap h, peakCap := s.peakCap h }) ≤ max (s.entry h).prof.assured 4 + 16) ∧
    (s.allocInputs.map fun i => grantCost 0 (stage1 s.img.kPoll i)).sum ≤ s.dataCapacity n

/-- The windows of a map lie in ascending order, each with its guard before the next, number at most 96, and end within the 10,000 words of the cycle (R3, R7). Every DATA window belongs to an eligible entry that is not starved, which has no hold and is ACTIVE, LEAVING or TUNING, with 4 words of payload at least beyond the overhead of 12, and at most L where the account is EXHAUSTED (R3, R68, R70). -/
def Obligations.MapFits : Prop :=
  (∀ (s : State) (n : CycleNo), s.img.Fits →
    (handles.map fun h => (s.entry h).bookedTerm).sum ≤ admissionFloor s.img →
    (s.windowList n).Pairwise (fun a b => a.start + a.length + 4 ≤ b.start) ∧
    (s.windowList n).length ≤ 96 ∧ ∀ w ∈ s.windowList n, w.start + w.length + 4 ≤ 10000) ∧
  ∀ (s : State) (n : CycleNo), ∀ w ∈ s.windowList n, w.kind = .data →
    (s.entry w.handle).holds = Holds.clear ∧ (s.entry w.handle).state.served = true ∧
      s.starved w.handle = false ∧ 16 ≤ w.length ∧ (s.exhausted w.handle = true → w.length ≤ s.img.lifeline + 12)

/-- The windows of a map (R3, R8): at most one DISCOVER, one QUIET and two RANGE windows, at most one window of whatever kind for each handle, and none for a handle of the dark list. The RANGE arbiter (R19, R20): the requesters of the four classes, with no RANGE window outstanding and no hold but DRIFT, are served class by class and by ascending handle within a class, the first two; each gets one RANGE window of 64 words, in that order. Stage 2 (R75 to R78), which hands S0 words to the candidates in the order of the rotating pointer: the share of pass A and the grants of pass B as the rules compute them, with S1 falling from candidate to candidate; no grant passes a candidate's need, one that opens a window is at least 4 words, and the cost of all stays within S0. The whole allocation (R73, R75, R76, R79): the pointer moves only where stage 2 gives grants, to the smallest candidate handle above it or else to the smallest; every window has a payload of 4 words at least, no more than the larger of its stage-1 grant and min(D, P′), and the windows cost at most the capacity when the stage-1 grants fit. -/
def Obligations.MapArbitrated : Prop :=
  (∀ (s : State) (n : CycleNo),
    ((s.windowList n).filter fun w => w.kind = .discover).length ≤ 1 ∧
    ((s.windowList n).filter fun w => w.kind = .quiet).length ≤ 1 ∧
    ((s.windowList n).filter fun w => w.kind = .range).map (fun w => (w.handle, w.length)) =
      s.rangeServed.map (fun h => (h, 64)) ∧
    (∀ h, 1 ≤ h → ((s.windowList n).filter fun w => w.handle = h).length ≤ 1) ∧
    ∀ w ∈ s.windowList n, 1 ≤ w.handle → w.handle ∉ s.darkList) ∧
  (∀ (s : State) (h : Nat),
    let e := s.entry h
    let free : Prop := s.rangeOutstanding h = false ∧ e.holds.hunt = false ∧ e.holds.rogue = false ∧ e.holds.manager = false
    let ranged : Prop := e.holds.drift = true ∧ (s.drift h).phase ≠ .off
    (s.requester 1 h = true ↔ free ∧ e.state = .arriving ∧ ∀ c, e.handover = some c → c.burstInHand = false) ∧
    (s.requester 2 h = true ↔ free ∧ e.state = .confirming) ∧
    (s.requester 3 h = true ↔ free ∧ ranged ∧ s.requester 1 h = false ∧ s.requester 2 h = false) ∧
    (s.requester 4 h = true ↔ free ∧ ¬ranged ∧ e.state = .lost ∧ e.recontact = 16) ∧
    ∀ c, s.requester c h = true → 1 ≤ c ∧ c ≤ 4) ∧
  (∀ s : State,
    let before (k h : Nat) : Prop := ∃ a b, s.requester a k = true ∧ s.requester b h = true ∧ (a < b ∨ a = b ∧ k < h)
    s.rangeServed.length ≤ 2 ∧ s.rangeServed.Pairwise before ∧
    (∀ h ∈ s.rangeServed, h ∈ handles ∧ ∃ c, s.requester c h = true) ∧
    ∀ h ∈ handles, h ∉ s.rangeServed → (∃ c, s.requester c h = true) →
      s.rangeServed.length = 2 ∧ ∀ k ∈ s.rangeServed, before k h) ∧
  (∀ (s0 : Nat) (order : List Grant), 20 ≤ s0 →
    let total := (order.map fun r => r.input.weight).sum
    let done := stage2 s0 order
    let share (r : Grant) : Nat := s0 * r.input.weight / total
    let needs (r : Grant) : Nat := min r.input.demand r.input.peakCap - r.g
    let costA (r : Grant) : Nat := if r.x = 0 then 0 else if r.g = 0 then r.x + 16 else r.x
    let costB (r : Grant) : Nat := if r.y = 0 then 0 else if r.g + r.x = 0 then r.y + 16 else r.y
    done.map (fun r => (r.input, r.g)) = order.map (fun r => (r.input, r.g)) ∧
    (∀ r ∈ done,
      r.x = (if r.g = 0 then (if min (needs r) (share r - 16) < 4 then 0 else min (needs r) (share r - 16))
             else min (needs r) (share r)) ∧
      r.x + r.y ≤ needs r ∧ (r.g = 0 → r.x + r.y = 0 ∨ 4 ≤ r.x + r.y)) ∧
    (∀ pre r post, done = pre ++ r :: post →
      let s1 := s0 - (done.map costA).sum - (pre.map costB).sum
      let rest := needs r - r.x
      r.y = (if r.g + r.x = 0 then
          (if s1 < 20 then 0 else if min rest (s1 - 16) < 4 then 0 else min rest (s1 - 16))
        else min rest s1)) ∧
    (done.map costA).sum + (done.map costB).sum ≤ s0) ∧
  ∀ (kPoll rho capacity : Nat) (inputs : List AllocIn),
    (inputs.map AllocIn.handle).Pairwise (· < ·) → (∀ i ∈ inputs, i.handle ∈ handles) →
    (inputs.map fun i => grantCost 0 (stage1 kPoll i)).sum ≤ capacity →
    let out := allocate kPoll rho capacity inputs
    let s0 := capacity - (inputs.map fun i => grantCost 0 (stage1 kPoll i)).sum
    let candidates := (inputs.filter fun i => stage1 kPoll i < min i.demand i.peakCap).map AllocIn.handle
    (s0 < 20 ∨ candidates = [] →
      out.2 = rho ∧ ∀ i ∈ inputs, stage1 kPoll i ≠ 0 → (i.handle, stage1 kPoll i) ∈ out.1) ∧
    (20 ≤ s0 → candidates ≠ [] → out.2 ∈ candidates ∧
      ((∃ c ∈ candidates, rho < c) → rho < out.2 ∧ ∀ c ∈ candidates, rho < c → out.2 ≤ c) ∧
      ((∀ c ∈ candidates, c ≤ rho) → ∀ c ∈ candidates, out.2 ≤ c)) ∧
    (out.1.map Prod.fst).Pairwise (· < ·) ∧
    (∀ p ∈ out.1, 4 ≤ p.2 ∧ ∃ i ∈ inputs, i.handle = p.1 ∧ stage1 kPoll i ≤ p.2 ∧
      p.2 ≤ max (stage1 kPoll i) (min i.demand i.peakCap)) ∧
    (out.1.map fun p => p.2 + 16).sum ≤ capacity

/-- CYCLE_START (R1, R5, R6, R8 to R11, R33, R35, R39, R115): the cycle number advances modulo 2^32, every timer counts the start of a cycle down by one, map n − 2 reaches its upstream cycle if the ring holds it, and the READY that waits for it is queued. Outside OPERATING and DRAINING no map is built. In them map n is the one the window list, the dark list, the messages and the pre-delay of the state as the build begins give; it enters the ring, which keeps the four most recent, and leaves the optical port first in its cycle. The build gives each mailbox message still carried one map more, sets idle to 0 for an entry it gives a window and advances it otherwise (R35), and advances or clears the re-contact count of a LOST entry. It advances the count of a re-range too, a RANGE window given or not (R28, R95), which idle takes when the re-range ends; that this meets R35 and R95 together is the model's inference (log entry 42). -/
def Obligations.CycleStart : Prop :=
  ∀ s : State, s.resetHeld = false →
    let n := s.cb.cycle + 1
    let reaches : Bool := s.cb.ring.any fun m => m.number = n - 2
    let now := s.tick.reachMap.advanceRecontacts
    ∃ t, exec .cycleStart s = .next t ∧ t.cb.cycle = n ∧ t.cb.reached = (if reaches then some (n - 2) else none) ∧
      (∀ w id, s.hu.awaiting = some w → s.hu.huntId = some id → w.map = n - 2 → reaches = true →
        t.hu.awaiting = none ∧ t.outgoing .hunt = s.outgoing .hunt ++ [.huntReady id s.channel w.step w.named]) ∧
      (s.hu.awaiting = none ∨ s.hu.huntId = none ∨ (∃ w, s.hu.awaiting = some w ∧ w.map ≠ n - 2) ∨ reaches = false →
        t.hu.awaiting = s.hu.awaiting ∧ t.outgoing .hunt = s.outgoing .hunt) ∧
      (∀ who, who ≠ .hunt → t.outgoing who = s.outgoing who) ∧
      (s.builds = false → t.cb.ring = s.cb.ring ∧ t.ua = s.ua ∧ t.ports.downstream = [] ∧
        ∀ h, t.entry h = (s.entry h).tick) ∧
      (s.builds = true → ∃ m : MapRecord,
        t.cb.ring = (s.cb.ring ++ [m]).drop (s.cb.ring.length + 1 - 4) ∧ m.number = n ∧ m.windows = now.windowList n ∧
        m.dark = (handles.filter fun h => (s.entry h).dark) ∧ m.messages = handles.filterMap s.carriedMessage ∧
        m.preDelay = (if s.discoverDue n then some (160000 - s.img.rLow) else none) ∧
        t.ports.downstream = [.map { number := n, windows := m.windows.map Window.sent, dark := m.dark,
                                     messages := m.messages, preDelay := m.preDelay }] ∧
        t.ua = { s.ua with rho := (now.allocation n).2 } ∧
        ∀ h, ((s.entry h).state = .free → t.entry h = (s.entry h).tick) ∧
          ((s.entry h).state ≠ .free → t.entry h = { (s.entry h).tick with
            mailbox := (s.entry h).mailbox.map fun x => x.advance n,
            idle := if (m.windows.any fun w => w.handle = h) then 0 else min 255 ((s.entry h).idle + 1),
            reRangeIdle :=
              if (s.entry h).state = .active ∧ (s.entry h).holds.drift = true then min 255 ((s.entry h).reRangeIdle + 1)
              else (s.entry h).reRangeIdle,
            recontact :=
              if (s.entry h).state = .lost then
                (if h ∈ now.rangeServed then 0 else min 16 ((s.entry h).recontact + 1))
              else (s.entry h).recontact })) ∧
      (∀ h, (s.entry h).tick = { s.entry h with
        lostTimer := (s.entry h).lostTimer.map (· - 1),
        handover := (s.entry h).handover.map fun c => { c with timer := c.timer.map (· - 1) } }) ∧
      (∀ o, s.hu.role = .owner o → t.hu.role = .owner { o with
        joinTimer := o.joinTimer.map (· - 1), readyTimer := o.readyTimer.map (· - 1) }) ∧
      (s.hu.role.isOwner = false → t.hu.role = s.hu.role) ∧
      t.hu.guardTimer = s.hu.guardTimer.map (· - 1) ∧ t.slp.detachTimer = s.slp.detachTimer.map (· - 1) ∧
      t.slp.detachSpan = s.slp.detachSpan.map (· + 1) ∧
      t.il = { s.il with drainTimer := s.il.drainTimer.map (· - 1), listenTimer := s.il.listenTimer.map (· - 1) } ∧
      t.ee.discoveryEnable = s.ee.discoveryEnable ∧
      t.ee.captures = s.ee.captures.map (fun c => c.map fun k =>
        { k with claim := k.claim.map fun p => { p with holdTimer := p.holdTimer.map (· - 1) } }) ∧
      t.rq.repeats = s.rq.repeats.map (fun r => { r with remaining := r.remaining - 1 }) ∧
      t.hu.flag = s.hu.flag ∧ t.hu.frozen = s.hu.frozen ∧ t.um = s.um ∧ t.lw = s.lw ∧ NoEvent s t ∧
      t.rq.results = s.rq.results ∧ t.ports.trafficOut = s.ports.trafficOut ∧ t.resetHeld = false ∧ t.pending = s.pending

/-! ### Shared effects -/

/-- Charges (R154, R155, R159): a packet rated upstream or downstream leaves an unmetered account as it is; at a metered one the residue of its direction takes the bytes modulo 65,536 and each completed block is debited at the price, the credit stopping at 0 with the rest in overdraw, the counters saturating and the quota state following. The final charge debits each direction's share of a block, price × residue / 65,536 rounded down, upstream and downstream, and clears the residues. Posting a message (R30, R31): into an empty mailbox, or in place of one of equal or lower rank already carried, with the sequence bit turned; in place of one not yet carried with that one's bit; refused by a higher rank. Entering CLOSING (R43, R44, R82, R96, R147, R159, R162, R163, R166): the entry keeps its serial and holds and RELEASE is posted where the cause has one; the account makes its final charge for every kind but HANDOVER_OUT and forms its final snapshot through the open period, or merges its period into the one that waits, and its counters stand at zero; that adjusted returns to 0 with them, while credit_open and period_first stand as they were, is the model's inference, not R166's words (log entry 23); the booked sum loses the term, the re-range and the home's alarm conditions end. -/
def Obligations.EntryClosed : Prop :=
  (∀ (a : Account) (bytes price : Nat),
    (a.mode = .unmetered → a.rateUp bytes price = a ∧ a.rateDown bytes price = a) ∧
    (a.mode ≠ .unmetered →
      let debited (x : Nat) (b : Account) : Account :=
        if x = 0 then b
        else { b with
          credit := b.credit - x, quota := quotaOf b.mode (b.credit - x) b.lowWater,
          counters := { b.counters with
            charged := min Config.counterMax (b.counters.charged + x),
            overdraw := min Config.counterMax (b.counters.overdraw + (x - b.credit)) } }
      a.rateUp bytes price =
        debited ((a.residueUp + bytes) / 65536 * price) { a with residueUp := (a.residueUp + bytes) % 65536 } ∧
      a.rateDown bytes price =
        debited ((a.residueDown + bytes) / 65536 * price) { a with residueDown := (a.residueDown + bytes) % 65536 })) ∧
  (∀ (a : Account) (b : Band),
    (a.mode = .unmetered → a.finalCharge b = { a with residueUp := 0, residueDown := 0 }) ∧
    (a.mode ≠ .unmetered → a.counters.charged ≤ Config.counterMax → a.counters.overdraw ≤ Config.counterMax →
      let x := b.priceUp * a.residueUp / 65536 + b.priceDown * a.residueDown / 65536
      a.finalCharge b = { a with
        residueUp := 0, residueDown := 0, credit := a.credit - x,
        quota := if x = 0 then a.quota else quotaOf a.mode (a.credit - x) a.lowWater,
        counters := { a.counters with
          charged := min Config.counterMax (a.counters.charged + x),
          overdraw := min Config.counterMax (a.counters.overdraw + (x - a.credit)) } })) ∧
  (∀ (e : Entry) (kind : MsgKind),
    (e.mailbox = none → e.post kind = { e with
      mailbox := some { kind := kind, seqBit := !e.seqBit, carried := 0, firstMap := none }, seqBit := !e.seqBit }) ∧
    ∀ m, e.mailbox = some m →
      (kind.rank < m.kind.rank → e.post kind = e) ∧
      (m.kind.rank ≤ kind.rank → m.carried = 0 → e.post kind = { e with
        mailbox := some { kind := kind, seqBit := m.seqBit, carried := 0, firstMap := none } }) ∧
      (m.kind.rank ≤ kind.rank → m.carried ≠ 0 → e.post kind = { e with
        mailbox := some { kind := kind, seqBit := !e.seqBit, carried := 0, firstMap := none }, seqBit := !e.seqBit })) ∧
  (∀ d serial h eq c k, (MsgKind.adjust d).rank < (MsgKind.assign serial h eq).rank ∧
    (MsgKind.assign serial h eq).rank < (MsgKind.tune c k).rank ∧ (MsgKind.tune c k).rank < MsgKind.release.rank) ∧
  ∀ (s : State) (h : Nat) (kind : RecordKind) (release : Bool), 1 ≤ h → h ≤ 64 →
    let t := s.enterClosing h kind release
    let e : Entry := { s.entry h with state := .closing, lostTimer := none, handover := none }
    t.entry h = (if release then e.post .release else e) ∧ t.drift h = { s.drift h with phase := .off } ∧
    t.ua.booked = s.ua.booked - (s.entry h).bookedTerm ∧ (s.acct h = none → t.acct h = none) ∧
    (∀ a, s.acct h = some a →
      let f := if kind = .handoverOut then a else a.finalCharge (s.bandAt s.um.band)
      t.acct h = some { f with
        counters := Counters.zero, adjusted := 0,
        snapshot := some (match a.snapshot with
          | none => { kind := kind, firstPeriod := min a.periodFirst s.um.period, lastPeriod := s.um.period, mode := a.mode,
                      opening := a.creditOpen, closing := f.credit, counters := f.counters, adjusted := a.adjusted,
                      rolled := 0 }
          | some old => { kind := kind, firstPeriod := old.firstPeriod, lastPeriod := s.um.period, mode := a.mode,
                          opening := old.opening, closing := f.credit, counters := old.counters.add f.counters,
                          adjusted := old.adjusted + a.adjusted,
                          rolled := old.rolled + ((a.creditOpen : Int) - (old.closing : Int)) }) }) ∧
    t.rq.repeats = (s.rq.repeats.filter fun r => !(decide (r.source ∈
      [{ kind := .homeDrift, handle := h }, { kind := .homeLost, handle := h }, { kind := .creditLow, handle := h },
       { kind := .creditExhausted, handle := h }]))) ∧
    HomeFrame s t h ∧ NoEvent s t

/-- A period close of one account (R162 to R164): a new snapshot is pending, one that waits or is in delivery stays so, and the snapshot through p holds the period's counters, or the waiting one's with them added; the counters and adjusted begin again at zero, the next period is p + 1, a REFILL account's credit rolls to its base and any other's stands, as do the mode, the base, the low-water and the residues, and the quota state is computed again. -/
def Obligations.AccountPeriodClosed : Prop :=
  (∀ (s : State) (h : Nat) (a : Account) (p : Nat), 1 ≤ h → h ≤ 64 → s.acct h = some a →
    (a.snapshot = none → s.delivering h = false →
      (s.setAcct h (some (a.closePeriod p))).snapshotCondition h = .pending) ∧
    (a.snapshot ≠ none →
      (s.setAcct h (some (a.closePeriod p))).snapshotCondition h = s.snapshotCondition h)) ∧
  ∀ (a : Account) (p : Nat), ∃ sn, (a.closePeriod p).snapshot = some sn ∧
    (a.snapshot = none → sn.kind = .period ∧ sn.firstPeriod = min a.periodFirst p ∧ sn.opening = a.creditOpen ∧
      sn.counters = a.counters ∧ sn.adjusted = a.adjusted ∧ sn.rolled = 0) ∧
    (∀ old, a.snapshot = some old → sn.kind = old.kind ∧ sn.firstPeriod = old.firstPeriod ∧ sn.opening = old.opening ∧
      sn.counters = old.counters.add a.counters ∧ sn.adjusted = old.adjusted + a.adjusted ∧
      sn.rolled = old.rolled + ((a.creditOpen : Int) - (old.closing : Int))) ∧
    sn.lastPeriod = p ∧ sn.mode = a.mode ∧ sn.closing = a.credit ∧
    (a.closePeriod p).counters = Counters.zero ∧ (a.closePeriod p).adjusted = 0 ∧
    (a.closePeriod p).periodFirst = p + 1 ∧ (a.closePeriod p).residueUp = a.residueUp ∧
    (a.closePeriod p).residueDown = a.residueDown ∧
    (a.closePeriod p).credit = (if a.mode = .refill then a.base else a.credit) ∧
    (a.closePeriod p).creditOpen = (a.closePeriod p).credit ∧
    (a.closePeriod p).mode = a.mode ∧ (a.closePeriod p).base = a.base ∧ (a.closePeriod p).lowWater = a.lowWater ∧
    (a.closePeriod p).quota = quotaOf a.mode (if a.mode = .refill then a.base else a.credit) a.lowWater

/-- Alarms by the mode of their kind (R182, R183): OFF places none; EDGE and LEVEL report once at the raising, in an idle place with the count 1, in a pending place in place of its content with the count one more, stopping at 255 (the repeat marker of the newest report is the model's choice: log entry 45), and while the place is in the report slot as a later report behind it, further ones merged into that (log entry 24); LEVEL starts the repeat timer of a lasting kind at 4,000 cycles. REPEAT_TIMER_EXPIRY (R182): while the condition holds a repeat report is placed and the timer runs again, and otherwise the timer stops; that the repeat reads the credit and the counts anew and keeps the rest of the raising is the model's reading (log entry 16). LINE_DETACHED (R178): with a detachment not yet reported, the carriage of an own frame of any slot ends the transmission, clears the void count, and raises the event with its cycles. ROSTER_FULL (R53): a reply in reach and in its window's span whose home is not on the roster raises it when no entry is FREE or the admission check fails, and its place is freed; a home on the roster raises nothing. The frames the part sends (R173, R175): class, sender, destination and tag of each slot's frame, and the fields of the two parts of a record; an alarm's frame carries its kind, its content, its repeat marker and its count (R183), an event's the event and the dropped mark (R184); a later report recorded behind an alarm in the slot leaves the frame as it is. -/
def Obligations.AlarmRaised : Prop :=
  (∀ (s : State) (a : AlarmSource) (c : AlarmContent),
    let t := s.raiseAlarm a c
    let newest : AlarmPlace := { source := a, content := c, repeated := false, count := 1, age := .fresh }
    let merged (p : AlarmPlace) : AlarmPlace := { p with content := c, repeated := false, count := min 255 (p.count + 1) }
    (s.img.alarmModes.get a.kind = .off → t = s) ∧
    (s.img.alarmModes.get a.kind ≠ .off → s.slp.alarmInSlot a = false →
      t.slp = s.slp ∧
      ((∀ p ∈ s.rq.alarms, p.source ≠ a) → t.rq.alarms = s.rq.alarms ++ [newest]) ∧
      ((∃ p ∈ s.rq.alarms, p.source = a) →
        t.rq.alarms = s.rq.alarms.map fun p => if p.source = a then merged p else p)) ∧
    (s.img.alarmModes.get a.kind ≠ .off → ∀ f p later, s.slp.reportSlot = some f → f.body = .alarm p later →
      p.source = a → t.rq.alarms = s.rq.alarms ∧
      t.slp = { s.slp with reportSlot := some { f with body := .alarm p (some (match later with
        | none => newest
        | some l => merged l)) } } ∧
      t.lineOut = s.lineOut) ∧
    (s.img.alarmModes.get a.kind = .level → lastingKind a.kind = true →
      t.rq.repeats = (s.rq.repeats.filter fun r => r.source ≠ a) ++ [{ source := a, remaining := 4000, content := c }]) ∧
    (s.img.alarmModes.get a.kind ≠ .level ∨ lastingKind a.kind = false → t.rq.repeats = s.rq.repeats) ∧
    { t with slp := s.slp, rq := s.rq } = s ∧ { t.rq with alarms := s.rq.alarms, repeats := s.rq.repeats } = s.rq) ∧
  (∀ (s : State) (a : AlarmSource) (r : RepeatTimer), s.resetHeld = false → s.repeatOf a = some r → r.remaining ≤ 1 →
    ∃ t, exec (.repeatTimerExpiry a) s = .next t ∧
      (s.conditionHolds a = false →
        Offered { s with rq := { s.rq with repeats := s.rq.repeats.filter fun x => x.source ≠ a } } t) ∧
      (s.conditionHolds a = true →
        t.rq.repeats =
          (s.rq.repeats.filter fun x => x.source ≠ a) ++ [{ source := a, remaining := 4000, content := r.content }] ∧
        (s.slp.alarmInSlot a = false → ∃ n, (a, s.conditionContent r.content, true, n) ∈ t.places ∧
          ((∀ p ∈ s.places, p.1 ≠ a) → n = 1)) ∧
        (s.slp.alarmInSlot a = true → ∃ f p l, t.slp.reportSlot = some f ∧ f.body = .alarm p (some l) ∧ p.source = a ∧
          l.content = s.conditionContent r.content ∧ l.repeated = true) ∧
        t.roster = s.roster ∧ t.um = s.um ∧ t.hu = s.hu ∧ t.ua = s.ua ∧ t.il = s.il ∧ t.lw = s.lw ∧ NoEvent s t)) ∧
  (∀ (s : State) (n : Nat), s.resetHeld = false → s.slp.detachSpan = some n →
    let reported (t : State) : Prop := Raised s t (.lineDetached n) ∧ t.slp.detachSpan = none ∧
      t.slp.transmitting = none ∧ t.slp.voidCount = 0
    (∀ serial c, s.transmits (.held serial c) → ∃ t, exec (.held .own serial c) s = .next t ∧ reported t) ∧
    (∀ straps r rest, s.slp.transmitting = some .result → s.rq.results = r :: rest → r.kind ≠ .restart ∨ r.code ≠ .ok →
      ∃ t, exec (.resultCarried straps) s = .next t ∧ reported t) ∧
    (∀ f p l, s.slp.transmitting = some .report → s.slp.reportSlot = some f → f.body = .alarm p l →
      ∃ t, exec .reportCarried s = .next t ∧ reported t) ∧
    ∀ f, s.slp.transmitting = some .usage → s.slp.usageSlot = some f →
      ∃ t, exec (if f.part = .first then .usageFirstPartCarried else .usageRecordCarried) s = .next t ∧ reported t) ∧
  (∀ (s : State) (r : WindowRef) (w : Window) (p : Reply) (rest : List (Option Capture)), s.resetHeld = false →
    s.observable r = true → r.kind = .discover → s.findWindow r = some w → s.captures = true →
    s.ee.captures = none :: rest → w.spans p.arrival = true →
    (s.img.rLow : Int) ≤ replyRoundTrip p s.img.rLow → replyRoundTrip p s.img.rLow ≤ s.img.rHigh →
    ∃ t, exec (.discoverObservation r (.clean [p])) s = .next t ∧
      (s.find p.serial ≠ none → Offered (s.clearOutstanding r) t) ∧
      (s.find p.serial = none → s.freeHandle = none →
        Offered ((s.clearOutstanding r).pushEvent (.rosterFull p.serial .noEntry)) t) ∧
      ∀ h, s.find p.serial = none → s.freeHandle = some h →
        s.ua.floor < s.ua.booked + (max s.img.defaultProfile.assured 4 + 16) →
        Offered ((s.clearOutstanding r).pushEvent (.rosterFull p.serial .overbook)) t) ∧
  ∀ s : State, (s.slp.transmitting = none → s.lineOut = none) ∧
    ∀ slot, s.slp.transmitting = some slot →
      (∀ x, slot = .notice → s.slp.noticeSlot = some x → ∃ k, s.lineOut = some
        { cls := 0, sender := s.slp.station, kind := k, dest := 255, tag := 0, data := .notice x.notice }) ∧
      (∀ r rest, slot = .result → s.rq.results = r :: rest → ∃ k, s.lineOut = some
        { cls := 2, sender := s.slp.station, kind := k, dest := BitVec.ofNat 8 r.requester.toNat, tag := r.tag,
          data := .result r.code r.data }) ∧
      (∀ f, slot = .report → s.slp.reportSlot = some f → ∃ k data, s.lineOut = some
        { cls := 3, sender := s.slp.station, kind := k, dest := 255, tag := f.number, data := data } ∧
        (∀ p later, f.body = .alarm p later → data = .alarm p.source.kind p.content p.repeated p.count) ∧
        ∀ e dropped, f.body = .event e dropped → data = .event e dropped) ∧
      ∀ f, slot = .usage → s.slp.usageSlot = some f →
        (f.part = .first → s.lineOut = some
          { cls := 4, sender := s.slp.station, kind := 1, dest := 255, tag := f.number,
            data := .usage (.first f.content.kind f.serial f.channel f.content.mode f.content.firstPeriod
              f.content.lastPeriod f.content.opening f.content.closing f.content.adjusted f.content.rolled) }) ∧
        (f.part = .second → s.lineOut = some
          { cls := 4, sender := s.slp.station, kind := 2, dest := 255, tag := f.number,
            data := .usage (.second f.content.counters) })

/-! ### Observations (chapters 1 to 5) -/

/-- A DATA window without a clean burst (R37, R88): GARBLED, dark, or a burst in the span of the window (R13) under a foreign header advances the missed count of a served entry, stopping at 8; where it does not reach 8, or the entry is LEAVING or TUNING, nothing else changes but the window's outstanding flag; an ACTIVE entry whose count reaches 8 enters LOST (R38), and while DRAINING closes from there in the same change (R192). The repeat marker of a raising that merges is the model's choice (log entry 45). -/
def Obligations.MissedDataWindow : Prop :=
  ∀ (s : State) (r : WindowRef) (w : Window) (o : BurstObs), s.resetHeld = false → s.observable r = true →
    r.kind = .data → s.findWindow r = some w → (s.entry r.handle).serial = w.serial →
    (s.entry r.handle).state.served = true →
    (o = .garbled ∨ o = .dark ∨
      ∃ d header ack q ps, o = .clean d header ack q ps ∧ header ≠ r.handle ∧ w.spans d = true) →
    ∃ t, exec (.dataRangeObservation r o) s = .next t ∧
      ((s.entry r.handle).missed < 7 ∨ (s.entry r.handle).state ≠ .active →
        Offered ({ s.clearOutstanding r with ports := { s.ports with trafficOut := [] } }.setEntry r.handle
          { s.entry r.handle with missed := min 8 ((s.entry r.handle).missed + 1) }) t) ∧
      (7 ≤ (s.entry r.handle).missed → (s.entry r.handle).state = .active → s.draining = false →
        t.entry r.handle = { s.entry r.handle with
          state := .lost, losses := min 255 ((s.entry r.handle).losses + 1),
          holds := { (s.entry r.handle).holds with drift := false }, mailbox := none, missed := 0, misplaced := 0,
          rangeAttempts := 0, recontact := 0, reRangeIdle := 0, reportQ := 0, lostTimer := some s.img.lostTime,
          handover := none } ∧
        (t.drift r.handle).phase = .off ∧ t.ua.booked = s.ua.booked ∧ t.acct r.handle = s.acct r.handle ∧
        HomeFrame (s.clearOutstanding r) t r.handle ∧ NoEvent s t) ∧
      (7 ≤ (s.entry r.handle).missed → (s.entry r.handle).state = .active → s.draining = true →
        DrainClosed s t r.handle ((s.entry r.handle).gone s.img.lostTime) ∧
        Alarmed s t { kind := .homeLost, handle := r.handle } (.homeLost (s.entry r.handle).serial) ∧
        HomeFrame (s.clearOutstanding r) t r.handle ∧ NoEvent s t)

/-- A clean DATA burst, in the span of its window (R13), of an ACTIVE entry with an empty mailbox and no re-range (R35, R37, R88, R91, R92, R152): the report is stored, missed and misplaced return to 0, the offset is kept; each packet that passes its own check is counted at the account, free or charged by its label, and passed on; up to 4 steps early or late nothing is posted, from 5 to 24 an ADJUST to clamp(E − d) is, unless that is the stored E. The third misplaced burst in a row of an ACTIVE entry (R93): the DRIFT hold is set, the re-range begins in SEEKING with no attempts, and HOME_DRIFT is raised with this burst's offset; that the model keeps the offset in a field of its own is log entry 16, and the repeat marker of a raising that merges is log entry 45. Idle returns to 0, and the re-range counts its maps from there (log entry 42). -/
def Obligations.CleanDataBurst : Prop :=
  (∀ (s : State) (r : WindowRef) (w : Window) (d : Int) (ack : Bool) (q : Nat) (ps : List UpPacket), s.resetHeld = false →
    s.observable r = true → r.kind = .data → s.findWindow r = some w → (s.entry r.handle).serial = w.serial →
    (s.entry r.handle).state = .active → (s.entry r.handle).mailbox = none → (s.drift r.handle).phase = .off →
    d.natAbs ≤ 24 → w.spans d = true →
    ∃ t, exec (.dataRangeObservation r (.clean d r.handle ack q ps)) s = .next t ∧
      t.drift r.handle = { s.drift r.handle with lastOffset := some d } ∧
      (let e := { s.entry r.handle with reportQ := q, idle := 0, missed := 0, misplaced := 0 }
       let target := clampDelay s.img (((e.eqDelay.getD 0 : Nat) : Int) - d)
       t.entry r.handle =
         if d.natAbs ≤ 4 ∨ e.eqDelay = some target then e else e.post (.adjust target)) ∧
      t.ports.trafficOut = (ps.filter fun p => p.intact) ∧
      t.acct r.handle = (s.acct r.handle).map (fun a => (ps.filter fun p => p.intact).foldl
        (fun x p => x.countUp (freeUp s.um.freeLabels p.label) p.bytes (s.bandAt s.um.band).priceUp) a) ∧
      t.ua.booked = s.ua.booked ∧ t.hu = s.hu ∧
      HomeFrame (s.clearOutstanding r) t r.handle ∧ NoEvent s t ∧ (∀ who, t.outgoing who = s.outgoing who)) ∧
  ∀ (s : State) (r : WindowRef) (w : Window) (d : Int) (ack : Bool) (q : Nat), s.resetHeld = false →
    s.observable r = true → r.kind = .data → s.findWindow r = some w → (s.entry r.handle).serial = w.serial →
    (s.entry r.handle).state = .active → (s.entry r.handle).mailbox = none → (s.drift r.handle).phase = .off →
    (s.entry r.handle).misplaced = 2 → 25 ≤ d.natAbs → w.spans d = true →
    ∃ t, exec (.dataRangeObservation r (.clean d r.handle ack q [])) s = .next t ∧
      t.entry r.handle = { s.entry r.handle with
        reportQ := q, idle := 0, missed := 0, misplaced := 3, rangeAttempts := 0, reRangeIdle := 0,
        holds := { (s.entry r.handle).holds with drift := true } } ∧
      t.drift r.handle = { phase := .seeking, lastOffset := some d, tripOffset := some d } ∧
      Alarmed s t { kind := .homeDrift, handle := r.handle } (.homeDrift (s.entry r.handle).serial r.handle d) ∧
      t.acct r.handle = s.acct r.handle ∧ HomeFrame (s.clearOutstanding r) t r.handle ∧ NoEvent s t

/-- A confirmation succeeds (R60, R61): with the ASSIGN acknowledged by this burst, which lies in the span of its window (R13) with |d| at most 24, the entry is ACTIVE with E − d stored and R = T − E, ADJUST posted where the stored E differs from the ASSIGN's, the account open in the image's mode, and HOME_ACTIVE raised. While DRAINING the entry enters CLOSING in the same change (R64, R192), HOME_ACTIVE raised all the same: RELEASE takes the mailbox, the account just opened ends in a RESTART record of the open period with nothing in it, and the term leaves the booked sum. -/
def Obligations.ConfirmationSucceeds : Prop :=
  ∀ (s : State) (r : WindowRef) (w : Window) (m : Message) (d : Int) (q : Nat) (serial : Serial) (h k eq : Nat),
    s.resetHeld = false → s.observable r = true → r.kind = .range → s.findWindow r = some w →
    (s.entry r.handle).serial = some serial → w.serial = some serial → (s.entry r.handle).state = .confirming →
    (s.entry r.handle).mailbox = some m → m.kind = .assign serial h k → 1 ≤ m.carried → m.firstMap = some r.map →
    (s.entry r.handle).eqDelay = some eq → d.natAbs ≤ 24 → w.spans d = true →
    let E := clampDelay s.img ((eq : Int) - d)
    ∃ t, exec (.dataRangeObservation r (.clean d r.handle m.seqBit q [])) s = .next t ∧
      (t.entry r.handle).eqDelay = some E ∧ (t.entry r.handle).serial = some serial ∧
      (t.entry r.handle).roundTrip = some (160000 - E) ∧ (t.entry r.handle).reportQ = q ∧
      (t.entry r.handle).missed = 0 ∧ (t.entry r.handle).rangeAttempts = 0 ∧
      (∃ a, t.acct r.handle = some a ∧ a.mode = s.img.defaultMode ∧ a.credit = 0 ∧ a.counters = Counters.zero ∧
        a.periodFirst = s.um.period ∧
        (s.draining = false → a.snapshot = none) ∧
        (s.draining = true → a.snapshot = some
          { kind := .restart, firstPeriod := s.um.period, lastPeriod := s.um.period, mode := s.img.defaultMode, opening := 0,
            closing := 0, counters := Counters.zero, adjusted := 0, rolled := 0 })) ∧
      (s.draining = false → (t.entry r.handle).state = .active ∧ (t.entry r.handle).misplaced = 0 ∧
        t.ua.booked = s.ua.booked ∧
        (t.entry r.handle).mailbox.map Message.kind = if E = eq then none else some (.adjust E)) ∧
      (s.draining = true → (t.entry r.handle).state = .closing ∧
        t.ua.booked = s.ua.booked - (s.entry r.handle).bookedTerm ∧
        (t.entry r.handle).mailbox.map Message.kind = some .release ∧ (t.drift r.handle).phase = .off) ∧
      t.hu = s.hu ∧ Raised s t (.homeActive (some serial) r.handle E) ∧ HomeFrame (s.clearOutstanding r) t r.handle

/-- The TUNE is acknowledged (R130) by a burst in the span of its window (R13): the entry is HANDED with its mailbox empty, its account stands as it was, and ACCOUNT carries the frozen values with the period of the account. -/
def Obligations.TuneAcknowledged : Prop :=
  ∀ (s : State) (r : WindowRef) (w : Window) (m : Message) (d : Int) (q c k : Nat) (serial : Serial) (a : Account),
    s.resetHeld = false → s.observable r = true → r.kind = .data → s.findWindow r = some w →
    (s.entry r.handle).serial = some serial → w.serial = some serial → (s.entry r.handle).state = .tuning →
    (s.entry r.handle).mailbox = some m → m.kind = .tune c k → 1 ≤ m.carried → m.firstMap = some r.map →
    s.acct r.handle = some a → w.spans d = true →
    ∃ t, exec (.dataRangeObservation r (.clean d r.handle m.seqBit q [])) s = .next t ∧
      t.entry r.handle = { s.entry r.handle with state := .handed, mailbox := none, reportQ := q, idle := 0, missed := 0 } ∧
      t.acct r.handle = some a ∧ t.ua.booked = s.ua.booked ∧ t.hu = s.hu ∧ NoEvent s t ∧
      t.outgoing .transfer = s.outgoing .transfer ++
        [.account serial s.channel a.mode a.credit a.base a.lowWater a.residueUp a.residueDown a.periodFirst] ∧
      HomeFrame (s.clearOutstanding r) t r.handle

/-- The span of a window (R13): arrival points from −96 to 8 × (length + 4 − 12) − 1 steps, +447 for a RANGE window; a burst outside it is no observation of the window and changes nothing (log entry 1). A stale observation goes no further (R17). An ADJUST is acknowledged by a clean burst with its sequence bit in a window of its first map or a later one (R32, log entry 39): the mailbox is empty and its argument is E; with the other bit the ADJUST stays pending. A clean RANGE burst in SEEKING posts ADJUST(clamp(E − d)) and passes to SETTLING (R94); in SETTLING one that acknowledges ends the re-range (R95) and one that does not changes the report and the offset only; a RANGE window without a clean burst counts one attempt, and the eighth enters LOST (R94 to R96). A re-contact burst of a LOST entry makes it ACTIVE with its condition ended (R40). While DRAINING either closes in the same change (R192). The arrival is judged when no ADJUST is pending (R132): up to 24 steps E is stored, an ADJUST posted where it changed, and the burst is in hand, with the account in hand TAKING and TAKEN queued (R133); from 25 steps an ADJUST is posted alone. A confirmation window without success counts one attempt, and the third frees the entry (R60). Idle is 0 at every clean burst (R35), and at the one that ends the re-range takes the count grown throughout it (R95), the model's inference (log entry 42); the repeat marker of a raising that merges is log entry 45. -/
def Obligations.RangeWindowJudged : Prop :=
  (∀ (w : Window) (d : Int),
    (w.spans d = true ↔ -96 ≤ d ∧ d ≤ 8 * ((w.length : Int) + 4 - 12) - 1) ∧
    (w.length = 64 → (w.spans d = true ↔ -96 ≤ d ∧ d ≤ 447))) ∧
  (∀ (s : State) (r : WindowRef) (w : Window), s.findWindow r = some w →
    (∀ d header ack q ps, w.spans d = false →
      exec (.dataRangeObservation r (.clean d header ack q ps)) s = .next s) ∧
    ∀ rs, (∃ p ∈ rs, w.spans p.arrival = false) → exec (.discoverObservation r (.clean rs)) s = .next s) ∧
  ∀ (s : State) (r : WindowRef) (w : Window), s.resetHeld = false → s.observable r = true → s.findWindow r = some w →
    let h := r.handle
    let e := s.entry h
    let opened : State := { s.clearOutstanding r with ports := { s.ports with trafficOut := [] } }
    let noted (d : Int) : State := opened.setDrift h { s.drift h with lastOffset := some d }
    let taken (q : Nat) : Entry := { e with reportQ := q, idle := 0 }
    let target (d : Int) : Nat := clampDelay s.img (((e.eqDelay.getD 0 : Nat) : Int) - d)
    let missed : BurstObs → Prop := fun o => o = .garbled ∨ o = .dark ∨
      ∃ d header ack q ps, o = .clean d header ack q ps ∧ header ≠ h ∧ w.spans d = true
    (∀ o, r.kind = .data ∨ r.kind = .range → BurstObs.inSpan w o = true → e.state = .free ∨ e.serial ≠ w.serial →
      ∃ t, exec (.dataRangeObservation r o) s = .next t ∧ Offered opened t) ∧
    (e.state ≠ .free → e.serial = w.serial →
      -- an ADJUST acknowledged, or not, in a DATA window
      (∀ m a f d ack q, r.kind = .data → e.state = .active → (s.drift h).phase = .off → e.mailbox = some m →
        m.kind = .adjust a → 1 ≤ m.carried → m.firstMap = some f → (r.map - f).toNat < 2 ^ 31 → d.natAbs ≤ 4 →
        w.spans d = true →
        ∃ t, exec (.dataRangeObservation r (.clean d h ack q [])) s = .next t ∧
          (ack = m.seqBit → Offered ((noted d).setEntry h { taken q with
            missed := 0, misplaced := 0, mailbox := none, eqDelay := some (clampDelay s.img a),
            roundTrip := some (160000 - clampDelay s.img a) }) t) ∧
          (ack ≠ m.seqBit → Offered ((noted d).setEntry h { taken q with missed := 0, misplaced := 0 }) t)) ∧
      (∀ d ack q, r.kind = .range → w.spans d = true →
        ∃ t, exec (.dataRangeObservation r (.clean d h ack q [])) s = .next t ∧
          -- SEEKING
          (e.state = .active → (s.drift h).phase = .seeking → e.mailbox = none →
            t.entry h = Entry.post { taken q with missed := 0, misplaced := 0 } (.adjust (target d)) ∧
            t.drift h = { s.drift h with lastOffset := some d, phase := .settling } ∧ t.acct h = s.acct h ∧ t.ua = s.ua ∧
            HomeFrame (s.clearOutstanding r) t h ∧ NoEvent s t) ∧
          -- SETTLING
          (∀ m a, e.state = .active → (s.drift h).phase = .settling → e.mailbox = some m → m.kind = .adjust a →
            1 ≤ m.carried → m.firstMap = some r.map →
            (ack ≠ m.seqBit → Offered ((noted d).setEntry h { taken q with missed := 0 }) t) ∧
            (ack = m.seqBit → d.natAbs ≤ 4 →
              t.entry h = { taken q with
                missed := 0, misplaced := 0, mailbox := none, eqDelay := some (clampDelay s.img a),
                roundTrip := some (160000 - clampDelay s.img a), holds := { e.holds with drift := false },
                idle := e.reRangeIdle, reRangeIdle := 0 } ∧
              t.drift h = { s.drift h with lastOffset := some d, phase := .off } ∧
              (∀ x ∈ t.rq.repeats, x.source ≠ { kind := .homeDrift, handle := h }) ∧ t.acct h = s.acct h ∧ t.ua = s.ua ∧
              HomeFrame (s.clearOutstanding r) t h ∧ NoEvent s t)) ∧
          -- LOST
          (e.state = .lost → e.mailbox = none → (s.drift h).phase = .off → d.natAbs ≤ 4 → s.draining = false →
            t.entry h = { taken q with
              state := .active, missed := 0, misplaced := 0, rangeAttempts := 0, recontact := 0, lostTimer := none,
              handover := none, holds := { e.holds with drift := false } } ∧
            t.drift h = { s.drift h with lastOffset := some d } ∧
            (∀ x ∈ t.rq.repeats, x.source ≠ { kind := .homeLost, handle := h }) ∧ t.acct h = s.acct h ∧ t.ua = s.ua ∧
            HomeFrame (s.clearOutstanding r) t h ∧ NoEvent s t) ∧
          (e.state = .lost → e.mailbox = none → s.draining = true →
            DrainClosed (noted d) t h { taken q with
              state := .active, missed := 0, rangeAttempts := 0, recontact := 0, idle := 0, lostTimer := none,
              handover := none, holds := { e.holds with drift := false } } ∧
            HomeFrame (s.clearOutstanding r) t h ∧ NoEvent s t) ∧
          -- ARRIVING
          (∀ m, e.state = .arriving → e.mailbox = some m → m.isAdjust = true → m.carried = 0 →
            Offered ((noted d).setEntry h (taken q)) t) ∧
          (∀ ctx serial, e.state = .arriving → e.mailbox = none → e.handover = some ctx → e.serial = some serial →
            (25 ≤ d.natAbs → Offered ((noted d).setEntry h (Entry.post (taken q) (.adjust (target d)))) t) ∧
            (d.natAbs ≤ 24 →
              let stored : Entry := { taken q with
                eqDelay := some (target d), roundTrip := some (160000 - target d),
                handover := some { ctx with burstInHand := true } }
              let told : Entry := if e.eqDelay = some (target d) then stored else stored.post (.adjust (target d))
              (ctx.accountInHand = false → Offered ((noted d).setEntry h told) t) ∧
              (ctx.accountInHand = true → Offered (((noted d).setEntry h { told with
                state := .taking, handover := some { ctx with burstInHand := true, timer := none } }).queueNotice
                  (.taken serial s.channel)) t))) ∧
          -- CONFIRMING without success
          (e.state = .confirming → 25 ≤ d.natAbs → e.mailbox = none →
            (e.rangeAttempts < 2 →
              Offered ((noted d).setEntry h { taken q with rangeAttempts := e.rangeAttempts + 1 }) t) ∧
            (2 ≤ e.rangeAttempts → Offered ((noted d).freeEntry h) t))) ∧
      ∀ o, r.kind = .range → missed o → ∃ t, exec (.dataRangeObservation r o) s = .next t ∧
        (e.state = .active → (s.drift h).phase = .off → Offered opened t) ∧
        (e.state = .lost ∨ e.state = .arriving → Offered opened t) ∧
        (e.state = .active → (s.drift h).phase ≠ .off → e.rangeAttempts < 7 →
          Offered (opened.setEntry h { e with rangeAttempts := e.rangeAttempts + 1 }) t) ∧
        (e.state = .active → (s.drift h).phase ≠ .off → 7 ≤ e.rangeAttempts → s.draining = false →
          t.entry h = e.gone s.img.lostTime ∧ t.drift h = { s.drift h with phase := .off } ∧ t.acct h = s.acct h ∧
          t.ua = s.ua ∧ Alarmed s t { kind := .homeLost, handle := h } (.homeLost e.serial) ∧
          HomeFrame (s.clearOutstanding r) t h ∧ NoEvent s t) ∧
        (e.state = .active → (s.drift h).phase ≠ .off → 7 ≤ e.rangeAttempts → s.draining = true →
          DrainClosed s t h (e.gone s.img.lostTime) ∧
          Alarmed s t { kind := .homeLost, handle := h } (.homeLost e.serial) ∧
          HomeFrame (s.clearOutstanding r) t h ∧ NoEvent s t) ∧
        (e.state = .confirming → e.rangeAttempts < 2 →
          Offered (opened.setEntry h { e with rangeAttempts := e.rangeAttempts + 1 }) t) ∧
        (e.state = .confirming → 2 ≤ e.rangeAttempts → Offered (opened.freeEntry h) t))

/-- A capture becomes a claim (R51 to R54): one reply, in the span of its window (R13) and in reach, of a home not on the roster, with a free place first in the list, a FREE entry and admission. The lowest FREE handle is CLAIMING with E = T − R and the default profile, its term is booked, and CLAIM is queued. A DISCOVER observation that may not be taken, or that holds no reply, changes nothing but its window's outstanding flag (R15, R51). -/
def Obligations.CaptureClaims : Prop :=
  (∀ (s : State) (r : WindowRef) (w : Window) (p : Reply) (h : Nat) (rest : List (Option Capture)), s.resetHeld = false →
    s.observable r = true → r.kind = .discover → s.findWindow r = some w → s.captures = true →
    s.ee.captures = none :: rest →
    (s.img.rLow : Int) ≤ replyRoundTrip p s.img.rLow → replyRoundTrip p s.img.rLow ≤ s.img.rHigh → s.img.rHigh ≤ 160000 →
    s.find p.serial = none → s.freeHandle = some h → s.admits s.img.defaultProfile.assured = true →
    w.spans p.arrival = true →
    ∃ t, exec (.discoverObservation r (.clean [p])) s = .next t ∧
      t.entry h = { Entry.free with
        state := .claiming, serial := some p.serial, roundTrip := some (replyRoundTrip p s.img.rLow).toNat,
        eqDelay := some (160000 - (replyRoundTrip p s.img.rLow).toNat), profile := some s.img.defaultProfile } ∧
      t.ua.booked = s.ua.booked + (max s.img.defaultProfile.assured 4 + 16) ∧
      t.ee.captures = some { serial := p.serial, arrival := p.arrival, delayIndex := p.delayIndex,
                             claim := some { handle := h, carried := false, holdTimer := none } } :: rest ∧
      t.outgoing .enrolment = s.outgoing .enrolment ++ [.claim p.serial s.channel] ∧
      t.hu = s.hu ∧ t.um = s.um ∧ NoEvent s t ∧ OthersSame s t h) ∧
  ∀ (s : State) (r : WindowRef) (w : Window) (o : DiscoverObs), s.resetHeld = false →
    s.observable r = true → r.kind = .discover → s.findWindow r = some w → DiscoverObs.inSpan w o = true →
    (s.ee.discoveryEnable = false ∨ s.hu.role ≠ .noRole ∨ s.il.startup ≠ .operating ∨ s.slp.lineState = .detached ∨
      o = .garbled ∨ o = .dark) →
    ∃ t, exec (.discoverObservation r o) s = .next t ∧ Offered (s.clearOutstanding r) t

/-- The reach check (R52) of a reply in the span of its window (R13): the round trip is R_low + a − 512 × k; outside [R_low, R_high] the capture's place is freed, no entry is taken, and OUT_OF_REACH carries the serial, k and R as computed, negative or not. -/
def Obligations.OutOfReach : Prop :=
  ∀ (s : State) (r : WindowRef) (w : Window) (p : Reply) (rest : List (Option Capture)), s.resetHeld = false →
    s.observable r = true → r.kind = .discover → s.findWindow r = some w → s.captures = true →
    s.ee.captures = none :: rest →
    let R : Int := s.img.rLow + p.arrival - 512 * p.delayIndex
    (R < s.img.rLow ∨ (s.img.rHigh : Int) < R) → w.spans p.arrival = true →
    ∃ t, exec (.discoverObservation r (.clean [p])) s = .next t ∧
      Offered ((s.clearOutstanding r).pushEvent (.outOfReach p.serial p.delayIndex R)) t

/-- A QUIET observation with the role NONE (R97 to R99), with auto-hunt clear: the outcome is the newest of at most 8; at S_thr or more LIGHT outcomes the stray condition holds, STRAY_LIGHT raised at its start; below, it does not. A participant's is discarded. The owner's measurement (R117): while MEASURING, the first three quiet windows advance the tally and note light; in any other phase the observation is discarded. -/
def Obligations.QuietTaken : Prop :=
  (∀ (s : State) (r : WindowRef) (w : Window) (light : Bool), s.resetHeld = false →
    s.observable r = true → r.kind = .quiet → s.findWindow r = some w →
    ∃ t, exec (.quietObservation r light) s = .next t ∧
      (s.hu.role = .noRole → s.img.autoHunt = false →
        t.lw.history = (s.lw.history ++ [light]).drop (s.lw.history.length + 1 - 8) ∧
        t.lw.condition = decide (s.img.sThr ≤ lightCount ((s.lw.history ++ [light]).drop (s.lw.history.length + 1 - 8))) ∧
        (t.lw.condition = true → s.lw.condition = false → s.img.alarmModes.strayLight ≠ .off →
          ∃ p ∈ t.places, p.1 = { kind := .strayLight, handle := 0 }) ∧
        t.hu = s.hu ∧ t.roster = s.roster ∧ t.um = s.um ∧ NoEvent s t) ∧
      (s.hu.role = .participant → Offered (s.clearOutstanding r) t)) ∧
  ∀ (s : State) (r : WindowRef) (w : Window) (light : Bool) (o : OwnerPart), s.resetHeld = false →
    s.observable r = true → r.kind = .quiet → s.findWindow r = some w → s.hu.role = .owner o →
    ∃ t, exec (.quietObservation r light) s = .next t ∧
      (o.phase ≠ .measuring → Offered (s.clearOutstanding r) t) ∧
      (o.phase = .measuring → o.tally < 3 →
        Offered ((s.clearOutstanding r).setOwner { o with tally := o.tally + 1, lightSeen := o.lightSeen || light }) t)

/-- The downstream gate (R153): a packet of a served home is forwarded and counted while its account is not EXHAUSTED, or when its label is free downstream; otherwise it is discarded uncounted. -/
def Obligations.DownstreamGate : Prop :=
  ∀ (s : State) (h label bytes : Nat), s.resetHeld = false →
    ∃ t, exec (.downstreamPacket h label bytes) s = .next t ∧
      (∀ a, s.acct h = some a → 1 ≤ h → h ≤ 64 → (s.entry h).state.served = true →
        (a.quota ≠ .exhausted ∨ freeDown s.um.freeLabels label = true) →
        t.ports.opticalOut = some { handle := h, label := label, bytes := bytes } ∧
        t.acct h = some (a.countDown (freeDown s.um.freeLabels label) bytes (s.bandAt s.um.band).priceDown) ∧
        t.roster = s.roster ∧ t.ua = s.ua ∧ t.hu = s.hu ∧ HomeFrame s t h ∧ NoEvent s t) ∧
      ((s.entry h).state.served = false ∨ s.acct h = none ∨
          (∃ a, s.acct h = some a ∧ a.quota = .exhausted ∧ freeDown s.um.freeLabels label = false) →
        t = { s with ports := { s.ports with opticalOut := none } })

/-! ### Claims and moves on the line (chapters 3 and 7) -/

/-- The own CLAIM is carried (R54, R174, R178): the slot is emptied, the void count is 0, and the capture whose entry is still CLAIMING is CARRIED with its claim hold running; another notice's carriage is no such event (log entry 1). CLAIM_HOLD_EXPIRY (R58, R64): the entry is CONFIRMING with no attempts and ASSIGN posted with sequence bit 1 on a fresh entry; while DRAINING it is FREE instead; the capture's place is freed in both cases. -/
def Obligations.ClaimCarriedAndHeld : Prop :=
  (∀ (s : State) (serial : Serial) (h : Nat) (k : Capture) (rest : List (Option Capture)), s.resetHeld = false →
    s.transmits (.claim serial s.channel) → s.slp.detachSpan = none →
    s.ee.captures = some k :: rest → (∀ c ∈ rest, ∀ x, c = some x → x.serial ≠ serial) →
    k.serial = serial → k.claim = some { handle := h, carried := false, holdTimer := none } →
    (s.entry h).state = .claiming → (s.entry h).serial = some serial →
    ∃ t, exec (.claim .own serial s.channel) s = .next t ∧
      t.ee.captures =
        some { k with claim := some { handle := h, carried := true, holdTimer := some s.img.claimHold } } :: rest ∧
      t.ee.discoveryEnable = s.ee.discoveryEnable ∧ t.roster = s.roster ∧ t.um = s.um ∧ t.ua = s.ua ∧ t.hu = s.hu ∧
      t.slp.transmitting = none ∧ t.slp.voidCount = 0 ∧ NoEvent s t ∧
      t.outgoing .enrolment = (s.outgoing .enrolment).tail) ∧
  ∀ (s : State) (h eq : Nat) (serial : Serial) (p : ClaimPart), s.resetHeld = false → s.claimAt h = some p →
    (∃ n, p.holdTimer = some n ∧ n ≤ 1) → (s.entry h).state = .claiming → (s.entry h).serial = some serial →
    (s.entry h).eqDelay = some eq → (s.entry h).mailbox = none → (s.entry h).seqBit = false →
    ∃ t, exec (.claimHoldExpiry h) s = .next t ∧
      (∀ c ∈ t.ee.captures, ∀ k, c = some k → ∀ x, k.claim = some x → x.handle ≠ h) ∧
      (s.draining = false →
        t.entry h = { s.entry h with
          state := .confirming, rangeAttempts := 0, seqBit := true,
          mailbox := some { kind := .assign serial h eq, seqBit := true, carried := 0, firstMap := none } } ∧
        t.ua = s.ua ∧ t.um = s.um ∧ t.hu = s.hu) ∧
      (s.draining = true → t.entry h = Entry.free ∧ t.ua.booked = s.ua.booked - (s.entry h).bookedTerm) ∧
      OthersSame s t h ∧ NoEvent s t ∧ ∀ who, t.outgoing who = s.outgoing who

/-- Another station's CLAIM (R55, R56): no entry or a CLOSING one answers nothing; a home held from CONFIRMING on is answered HELD once, with duplicates counted and DUPLICATE_SERIAL raised; a LOST entry closes without a RELEASE, reason CLAIMED_ELSEWHERE; a CLAIMING entry whose CLAIM is carried goes on, and one whose CLAIM is not is FREE again. -/
def Obligations.PeerClaim : Prop :=
  ∀ (s : State) (st : Station) (serial : Serial) (c : Nat), s.resetHeld = false →
    ∃ t, exec (.claim (.other st) serial c) s = .next t ∧
      (s.find serial = none → Offered s.lineHeard t) ∧
      ∀ h, s.find serial = some h →
        ((s.entry h).state = .closing → Offered s.lineHeard t) ∧
        ((s.entry h).state = .claiming → (s.claimAt h).any ClaimPart.carried = true → Offered s.lineHeard t) ∧
        ((s.entry h).state = .claiming → (s.claimAt h).any ClaimPart.carried = false →
          t.entry h = Entry.free ∧ s.ua.booked - (s.entry h).bookedTerm = t.ua.booked ∧ NoEvent s t ∧ OthersSame s t h) ∧
        ((s.entry h).state = .lost →
          (t.entry h).state = .closing ∧ (t.entry h).mailbox = (s.entry h).mailbox ∧ (t.entry h).lostTimer = none ∧
          Raised s t (.homeReleased (some serial) h .claimedElsewhere) ∧ HomeFrame s t h) ∧
        ((s.entry h).state = .confirming ∨ (s.entry h).state = .active ∨ (s.entry h).state = .leaving ∨
            (s.entry h).state = .tuning ∨ (s.entry h).state = .handed ∨ (s.entry h).state = .arriving ∨
            (s.entry h).state = .taking →
          (s.slp.stands (.held serial s.channel) = true → Offered s.lineHeard t) ∧
          (s.slp.stands (.held serial s.channel) = false →
            t.entry h = { s.entry h with duplicates := min 255 ((s.entry h).duplicates + 1) } ∧
            t.outgoing .enrolment = s.outgoing .enrolment ++ [.held serial s.channel] ∧
            (s.img.alarmModes.duplicateSerial ≠ .off → ∃ p ∈ t.places, p.1 = { kind := .duplicateSerial, handle := h }) ∧
            t.ua.booked = s.ua.booked ∧ t.hu = s.hu ∧ HomeFrame s t h ∧ NoEvent s t))

/-- OFFER heard in OPERATING for the own channel, ATTACHED (R128): refused DUPLICATE, then ROSTER_FULL, then OVERBOOK, nothing taken; otherwise the lowest FREE entry is ARRIVING with the OFFER's profile and E clamped, the inbound timer running, its term booked, and ACCEPT queued. An OFFER to another channel, or while LOADING, LISTENING or DETACHED, is not answered. -/
def Obligations.OfferAnswered : Prop :=
  ∀ (s : State) (st : Station) (serial : Serial) (f c a p w e : Nat), s.resetHeld = false →
    ∃ t, exec (.offer (.other st) serial f c a p w e) s = .next t ∧
      (s.il.startup = .loading ∨ s.il.startup = .listening ∨ s.slp.lineState = .detached → Offered s.lineHeard t) ∧
      (s.builds = true → c ≠ s.channel → Offered s.lineHeard t) ∧
      (s.draining = true → c = s.channel → s.slp.lineState = .attached →
        Offered (s.lineHeard.queueNotice (.refuse serial c .busy)) t) ∧
      (s.operating = true → c = s.channel → s.slp.lineState = .attached →
        (s.find serial ≠ none → Offered (s.lineHeard.queueNotice (.refuse serial c .duplicate)) t) ∧
        (s.find serial = none → s.freeHandle = none → Offered (s.lineHeard.queueNotice (.refuse serial c .rosterFull)) t) ∧
        ∀ h, s.find serial = none → s.freeHandle = some h →
          (s.ua.floor < s.ua.booked + (max a 4 + 16) →
            Offered (s.lineHeard.queueNotice (.refuse serial c .overbook)) t) ∧
          (s.ua.booked + (max a 4 + 16) ≤ s.ua.floor →
            t.entry h = { Entry.free with
              state := .arriving, serial := some serial, eqDelay := some (clampDelay s.img e),
              roundTrip := some (160000 - clampDelay s.img e),
              profile := some { assured := a, peak := p, weight := w },
              handover := some { direction := .inbound, peer := f, timer := some s.img.handoverTime, newHandle := some h,
                                 reclaim := none, burstInHand := false, accountInHand := false } } ∧
            t.ua.booked = s.ua.booked + (max a 4 + 16) ∧
            t.outgoing .transfer = s.outgoing .transfer ++ [.accept serial c h] ∧
            t.hu = s.hu ∧ HomeFrame s t h ∧ NoEvent s t))

/-- HELD carried (R57): the own one, and one for a CLOSING home or none, change nothing; a CLAIMING entry's claim is dropped (R56): FREE, its place in the capture list freed, its CLAIM withdrawn; a CONFIRMING entry is FREE again; from ACTIVE on, LEAVING, TUNING, HANDED, ARRIVING, TAKING and LOST included, DUPLICATE_SERIAL is raised and the entry unchanged. ACCEPT heard (R127): a LEAVING entry whose OUT context names the channel records the new handle, is TUNING, and holds TUNE, in its empty mailbox or in place of a pending ADJUST (R31); anything else ignores it, the own ACCEPT included. REFUSE heard (R26, R127): the LEAVING entry is back, ACTIVE, with the DRIFT hold, or LOST as its misplaced and missed counts say (R37, R93; their order where both fall together is free: log entry 8), and HOME_MOVED carries RETURNED with the reason; while DRAINING the entry, back, closes in the same change (R192); anything else ignores it, the own REFUSE included. The repeat marker of a raising that merges is log entry 45. -/
def Obligations.OfferAnswersHeard : Prop :=
  (∀ (s : State) (serial : Serial) (c : Nat), s.resetHeld = false →
    (s.transmits (.held serial c) → ∃ t, exec (.held .own serial c) s = .next t ∧ Offered s.noticeCarried t) ∧
    ∀ st, ∃ t, exec (.held (.other st) serial c) s = .next t ∧
      (s.find serial = none → Offered s.lineHeard t) ∧
      ∀ h, s.find serial = some h →
        ((s.entry h).state = .closing → Offered s.lineHeard t) ∧
        ((s.entry h).state = .claiming →
          t.entry h = Entry.free ∧ t.acct h = none ∧ t.ua.booked = s.ua.booked - (s.entry h).bookedTerm ∧
          (∀ k p, some k ∈ t.ee.captures → k.claim = some p → p.handle ≠ h) ∧
          (∀ who, t.outgoing who = (s.withdraw (isClaimOf serial)).outgoing who) ∧ OthersSame s t h ∧ NoEvent s t) ∧
        ((s.entry h).state = .confirming → Offered (s.lineHeard.freeEntry h) t) ∧
        ((s.entry h).state = .active ∨ (s.entry h).state = .leaving ∨ (s.entry h).state = .tuning ∨
            (s.entry h).state = .handed ∨ (s.entry h).state = .arriving ∨ (s.entry h).state = .taking ∨
            (s.entry h).state = .lost →
          Offered (s.lineHeard.raiseAlarm { kind := .duplicateSerial, handle := h }
            (.duplicateSerial serial s.channel c (s.entry h).state)) t)) ∧
  (∀ (s : State) (serial : Serial) (c k : Nat), s.resetHeld = false →
    (s.transmits (.accept serial c k) → ∃ t, exec (.accept .own serial c k) s = .next t ∧ Offered s.noticeCarried t) ∧
    ∀ st, ∃ t, exec (.accept (.other st) serial c k) s = .next t ∧
      (s.find serial = none → Offered s.lineHeard t) ∧
      ∀ h, s.find serial = some h →
        ((s.entry h).state ≠ .leaving → Offered s.lineHeard t) ∧
        ∀ ctx, (s.entry h).state = .leaving → (s.entry h).handover = some ctx → ctx.direction = .outbound →
          (ctx.peer ≠ c → Offered s.lineHeard t) ∧
          (ctx.peer = c →
            let e := { s.entry h with state := .tuning, handover := some { ctx with newHandle := some k } }
            let turned := Offered (s.lineHeard.setEntry h { e with
              mailbox := some { kind := .tune c k, seqBit := !e.seqBit, carried := 0, firstMap := none },
              seqBit := !e.seqBit }) t
            (e.mailbox = none → turned) ∧
            ∀ m d, e.mailbox = some m → m.kind = .adjust d →
              (m.carried ≠ 0 → turned) ∧
              (m.carried = 0 → Offered (s.lineHeard.setEntry h { e with
                mailbox := some { kind := .tune c k, seqBit := m.seqBit, carried := 0, firstMap := none } }) t))) ∧
  ∀ (s : State) (serial : Serial) (c : Nat) (reason : RefuseReason), s.resetHeld = false →
    (s.transmits (.refuse serial c reason) →
      ∃ t, exec (.refuse .own serial c reason) s = .next t ∧ Offered s.noticeCarried t) ∧
    ∀ st, ∃ t, exec (.refuse (.other st) serial c reason) s = .next t ∧
      (s.find serial = none → Offered s.lineHeard t) ∧
      ∀ h, s.find serial = some h →
        ((s.entry h).state ≠ .leaving → Offered s.lineHeard t) ∧
        ∀ ctx, (s.entry h).state = .leaving → (s.entry h).handover = some ctx → ctx.direction = .outbound →
          (ctx.peer ≠ c → Offered s.lineHeard t) ∧
          (ctx.peer = c → Returned s t h ∧ (∀ who, t.outgoing who = s.outgoing who) ∧
            Raised s t (.homeMoved serial s.channel c ctx.newHandle (.returnedRefused reason)))

/-- ACCOUNT heard (R133): an ARRIVING entry of the channel without its account takes it with the notice's values, zero counters and the quota state of its credit; with the burst already in hand the entry is TAKING, its timer stopped, and TAKEN queued. -/
def Obligations.AccountInstalled : Prop :=
  ∀ (s : State) (st : Station) (serial : Serial) (f h : Nat) (mode : Mode) (credit base low ru rd p : Nat) (ctx : Handover),
    s.resetHeld = false → s.find serial = some h → (s.entry h).state = .arriving → (s.entry h).handover = some ctx →
    ctx.direction = .inbound → ctx.peer = f → ctx.accountInHand = false →
    ∃ t a, exec (.account (.other st) serial f mode credit base low ru rd p) s = .next t ∧ t.acct h = some a ∧
      a.mode = mode ∧ a.credit = credit ∧ a.base = base ∧ a.lowWater = low ∧ a.residueUp = ru ∧ a.residueDown = rd ∧
      a.periodFirst = p ∧ a.counters = Counters.zero ∧ a.quota = quotaOf mode credit low ∧ a.snapshot = none ∧
      (ctx.burstInHand = true →
        t.entry h = { s.entry h with state := .taking, handover := some { ctx with accountInHand := true, timer := none } } ∧
        t.outgoing .transfer = s.outgoing .transfer ++ [.taken serial s.channel]) ∧
      (ctx.burstInHand = false →
        t.entry h = { s.entry h with handover := some { ctx with accountInHand := true } } ∧
        t.outgoing .transfer = s.outgoing .transfer) ∧
      t.ua.booked = s.ua.booked ∧ t.hu = s.hu ∧ HomeFrame s t h ∧ NoEvent s t

/-- The own TAKEN is carried while the entry is TAKING (R26, R134): the entry is ACTIVE without its context; the account begins a fresh period, counters and adjusted zero, credit_open the installed credit, period_first as installed; HOME_MOVED carries ARRIVED. While DRAINING, where a withdrawn TAKEN was in transmission or not, the entry closes in the same change with a RESTART record of that account (R140, R192). Another's TAKEN at the old terminator (R135): the HANDED entry closes with a HANDOVER_OUT record, its RECLAIM and ACCOUNT withdrawn, and HOME_MOVED carries DONE; a LOST or CLOSING entry ignores it. -/
def Obligations.TakenCarried : Prop :=
  (∀ (s : State) (serial : Serial) (h c : Nat) (ctx : Handover) (a : Account), s.resetHeld = false →
    s.transmits (.taken serial c) → s.slp.detachSpan = none → s.draining = false →
    s.find serial = some h → (s.entry h).state = .taking → (s.entry h).handover = some ctx → s.acct h = some a →
    ∃ t, exec (.taken .own serial c) s = .next t ∧
      t.entry h = { s.entry h with
        state := .active, missed := 0, rangeAttempts := 0, recontact := 0, idle := 0, lostTimer := none, handover := none } ∧
      t.acct h = some { a with counters := Counters.zero, creditOpen := a.credit, adjusted := 0 } ∧
      Raised s t (.homeMoved serial ctx.peer s.channel (some h) .arrived) ∧
      t.ua = s.ua ∧ t.hu = s.hu ∧ t.cb = s.cb ∧ t.ee = s.ee ∧ t.lw = s.lw ∧ t.il = s.il ∧ OthersSame s t h ∧
      TablesSame s t ∧ t.outgoing .transfer = (s.outgoing .transfer).tail) ∧
  (∀ (s : State) (serial : Serial) (h c : Nat) (ctx : Handover) (a : Account) (withdrawn : Bool), s.resetHeld = false →
    s.slp.transmitting = some .notice → s.slp.noticeSlot = some { notice := .taken serial c, withdrawn := withdrawn } →
    s.slp.detachSpan = none → s.draining = true →
    s.find serial = some h → (s.entry h).state = .taking → (s.entry h).handover = some ctx → s.acct h = some a →
    ∃ t, exec (.taken .own serial c) s = .next t ∧
      DrainClosed (s.setAcct h (some { a with counters := Counters.zero, creditOpen := a.credit, adjusted := 0 })) t h
        (s.entry h).back ∧
      Raised s t (.homeMoved serial ctx.peer s.channel (some h) .arrived) ∧ t.cb = s.cb ∧ t.ee = s.ee ∧ t.il = s.il ∧
      TablesSame s t ∧ t.outgoing .transfer = (s.outgoing .transfer).tail) ∧
  ∀ (s : State) (st : Station) (serial : Serial) (c h : Nat), s.resetHeld = false → s.find serial = some h →
    ∃ t, exec (.taken (.other st) serial c) s = .next t ∧
      ((s.entry h).state = .lost ∨ (s.entry h).state = .closing → Offered s.lineHeard t) ∧
      ∀ ctx, (s.entry h).state = .handed → (s.entry h).handover = some ctx → ctx.direction = .outbound → ctx.peer = c →
        Offered (((s.lineHeard.enterClosing h .handoverOut false).withdraw (isOldNoticeOf serial)).pushEvent
          (.homeMoved serial s.channel c ctx.newHandle .done)) t

/-- RECLAIM carried: the own one takes a TUNING entry whose context records it back to ACTIVE, as its counts say (R26, R37, R93, R131), HOME_MOVED carrying RETURNED with TUNE_FAILED or TIMEOUT, and a HANDED entry to LOST with its account as frozen and its credit condition started again (R38, R135, R147); while DRAINING either closes in the same change with a RESTART record (R192); for any other entry it changes nothing, nor for a TUNING one whose context records no RECLAIM, which is the model's reading of R131 (log entry 17). A detachment not yet reported is reported before HOME_MOVED, the model's choice (log entry 46), and so is the repeat marker of a raising that merges (log entry 45). Another's frees the ARRIVING or TAKING entry whose IN context names its channel, its ACCEPT or TAKEN withdrawn (R136); anything else ignores it. The timers of a move (R127, R131, R135, R137): in LEAVING the entry is back with its OFFER withdrawn and HOME_MOVED carrying TIMEOUT; in TUNING a pending TUNE is removed, the timer stops and RECLAIM is queued; in HANDED ACCOUNT is withdrawn, the timer stops and RECLAIM is queued; the inbound timer frees an ARRIVING entry with its ACCEPT withdrawn. LOST_TIMER_EXPIRY (R41, R43): the entry closes with a RELEASED record, reason LOST_TIMEOUT, RELEASE posted, and HOME_RELEASED raised. A withdrawal (R177) takes the notices it names from the queue and from those presented at once; in the slot it takes the notice at once, or marks it where it is in transmission, so that a void then removes it. -/
def Obligations.ReclaimCarried : Prop :=
  (∀ (s : State) (serial : Serial) (f : Nat), s.resetHeld = false →
    (s.transmits (.reclaim serial f) → ∃ t, exec (.reclaim .own serial f) s = .next t ∧
      (s.find serial = none → Offered s.noticeCarried t) ∧
      ∀ h, s.find serial = some h →
        ((s.entry h).state ≠ .tuning → (s.entry h).state ≠ .handed → Offered s.noticeCarried t) ∧
        ∀ ctx, (s.entry h).handover = some ctx →
          ((s.entry h).state = .tuning → ctx.reclaim = none → Offered s.noticeCarried t) ∧
          (∀ cause, (s.entry h).state = .tuning → ctx.reclaim = some cause →
            Returned s t h ∧
              Raised s.noticeCarried t (.homeMoved serial s.channel ctx.peer ctx.newHandle (match cause with
                | .tuneFailed => .returnedTuneFailed
                | .timeout => .returnedTimeout))) ∧
          ((s.entry h).state = .handed →
            (s.draining = false →
              t.entry h = (s.entry h).gone s.img.lostTime ∧ t.acct h = s.acct h ∧ t.ua.booked = s.ua.booked) ∧
            (s.draining = true → DrainClosed s t h ((s.entry h).gone s.img.lostTime)) ∧
            Alarmed s t { kind := .homeLost, handle := h } (.homeLost (s.entry h).serial) ∧
            (∀ a, s.acct h = some a → a.quota = .low →
              Alarmed s t { kind := .creditLow, handle := h } (.credit (s.entry h).serial h a.credit a.lowWater)) ∧
            (∀ a, s.acct h = some a → a.quota = .exhausted →
              Alarmed s t { kind := .creditExhausted, handle := h } (.credit (s.entry h).serial h a.credit a.lowWater)) ∧
            Raised s.noticeCarried t (.homeMoved serial s.channel ctx.peer ctx.newHandle .lost) ∧ OthersSame s t h)) ∧
    ∀ st, ∃ t, exec (.reclaim (.other st) serial f) s = .next t ∧
      (s.find serial = none → Offered s.lineHeard t) ∧
      ∀ h, s.find serial = some h →
        ((s.entry h).state ≠ .arriving → (s.entry h).state ≠ .taking → Offered s.lineHeard t) ∧
        ∀ ctx, (s.entry h).handover = some ctx → (s.entry h).state = .arriving ∨ (s.entry h).state = .taking →
          (ctx.direction = .outbound ∨ ctx.peer ≠ f → Offered s.lineHeard t) ∧
          (ctx.direction = .inbound → ctx.peer = f →
            Offered ((s.lineHeard.freeEntry h).withdraw (isTargetNoticeOf serial)) t ∧ t.entry h = Entry.free ∧
            t.acct h = none ∧ t.ua.booked = s.ua.booked - (s.entry h).bookedTerm ∧ HomeFrame s t h ∧ NoEvent s t)) ∧
  (∀ (s : State) (h n : Nat) (serial : Serial) (ctx : Handover), s.resetHeld = false → (s.entry h).serial = some serial →
    (s.entry h).handover = some ctx → ctx.timer = some n → n ≤ 1 →
    (ctx.direction = .outbound → ∃ t, exec (.handoverTimerExpiry h) s = .next t ∧
      ((s.entry h).state = .leaving → Returned s t h ∧
        (∀ who, t.outgoing who = (s.withdraw (isOfferOf serial)).outgoing who) ∧
        Raised s t (.homeMoved serial s.channel ctx.peer ctx.newHandle .returnedTimeout)) ∧
      ((s.entry h).state = .tuning →
        let e := { s.entry h with handover := some { ctx with timer := none, reclaim := some .timeout } }
        ((s.entry h).mailbox.any (fun m => m.kind.isTune) = true →
          Offered ((s.setEntry h { e with mailbox := none }).queueNotice (.reclaim serial s.channel)) t) ∧
        ((s.entry h).mailbox.any (fun m => m.kind.isTune) = false →
          Offered ((s.setEntry h e).queueNotice (.reclaim serial s.channel)) t)) ∧
      ((s.entry h).state = .handed →
        Offered (((s.withdraw (isAccountOf serial)).setEntry h
          { s.entry h with handover := some { ctx with timer := none, reclaim := some .timeout } }).queueNotice
            (.reclaim serial s.channel)) t)) ∧
    (ctx.direction = .inbound → (s.entry h).state = .arriving →
      ∃ t, exec (.inboundTimerExpiry h) s = .next t ∧
        Offered ((s.freeEntry h).withdraw (isAcceptOf serial)) t ∧ t.entry h = Entry.free ∧ t.acct h = none ∧
        t.ua.booked = s.ua.booked - (s.entry h).bookedTerm ∧ HomeFrame s t h ∧ NoEvent s t)) ∧
  (∀ (s : State) (h n : Nat), s.resetHeld = false → (s.entry h).state = .lost → (s.entry h).lostTimer = some n → n ≤ 1 →
    ∃ t, exec (.lostTimerExpiry h) s = .next t ∧
      Offered ((s.enterClosing h (.released .lostTimeout) true).pushEvent
        (.homeReleased (s.entry h).serial h .lostTimeout)) t) ∧
  ∀ (s : State) (test : Notice → Bool),
    (s.withdraw test).slp.queued = (s.slp.queued.filter fun n => !test n) ∧
    (s.withdraw test).slp.presented = (s.slp.presented.filter fun n => !test n) ∧
    (s.slp.noticeSlot = none → (s.withdraw test).slp.noticeSlot = none) ∧
    (∀ x, s.slp.noticeSlot = some x → (s.withdraw test).slp.noticeSlot =
      if test x.notice = true then
        (if s.slp.transmitting = some .notice then some { x with withdrawn := true } else none)
      else some x) ∧
    (s.slp.transmitting ≠ some .notice →
      ∀ who, (s.withdraw test).outgoing who = (s.outgoing who).filter fun n => !test n) ∧
    { s.withdraw test with slp := s.slp } = s ∧
    { (s.withdraw test).slp with
      queued := s.slp.queued, presented := s.slp.presented, noticeSlot := s.slp.noticeSlot } = s.slp

/-! ### The hunt (chapter 6) -/

/-- HUNT_OPEN heard from another station (R105, R108, R111): with the flag set it is ignored; with the flag clear the flag takes its id and the guard runs for 400 cycles; an own offer is withdrawn and the suspicion deferred; an OPERATING terminator joins as PARTICIPANT with the list of its ACTIVE, LEAVING, TUNING and LOST homes, its stray condition ended, and queues HUNT_JOIN. A suspicion (R99, R107): with the role NONE, auto-hunt set and the part OPERATING, a QUIET outcome that leaves S_thr or more LIGHT ones offers HUNT_OPEN with this station's next count, or is deferred while a hunt runs, or does nothing while an own offer stands; below S_thr, or without auto-hunt, nothing is opened. The re-test (R110): when the flag clears by a close or by the guard, a deferred suspicion is taken up, and HUNT_OPEN is offered where the history still holds S_thr LIGHT outcomes. The own close (R119): the owner's role is NONE, its hunt notices are withdrawn, its history is emptied, and HUNT_ENDED is raised with the hunt, the outcome and the steps carried. The fourth quiet window (R117, R118): the owner acts on its decision, queueing the next step or the close, and in DRAINING decides nothing (log entry 21). The repeat marker of a HUNT_ENDED that merges is log entry 45. -/
def Obligations.HuntOpenHeard : Prop :=
  (∀ (s : State) (st : Station) (id : HuntId), s.resetHeld = false →
    let withdrawn := if s.hu.opening then s.withdraw isOpen else s
    let listed : List Position := (handles.filter fun h => (s.entry h).state.frozen).map fun h =>
      { home := { handle := h, serial := (s.entry h).serial.getD 0 }, dead := false }
    ∃ t, exec (.huntOpen (.other st) id) s = .next t ∧
      (s.hu.flag.isSome = true → Offered s.lineHeard t) ∧
      (s.hu.flag = none → t.hu.flag = some id ∧ t.hu.guardTimer = some 400 ∧ t.hu.opening = false ∧
        t.hu.deferred = (s.hu.deferred || s.hu.opening) ∧ t.hu.openCount = s.hu.openCount ∧
        t.lw.history = s.lw.history ∧ t.roster = s.roster ∧ t.um = s.um ∧ t.ua = s.ua ∧ t.ee = s.ee ∧ NoEvent s t ∧
        (s.hu.role = .noRole → s.operating = true →
          t.hu.role = .participant ∧ t.hu.huntId = some id ∧ t.hu.frozen = listed ∧ t.lw.condition = false ∧
          t.outgoing .hunt = withdrawn.outgoing .hunt ++ [.huntJoin id s.channel listed.length]) ∧
        (s.hu.role ≠ .noRole ∨ s.operating = false →
          t.hu.role = s.hu.role ∧ t.hu.frozen = s.hu.frozen ∧ t.hu.huntId = s.hu.huntId ∧
          t.lw.condition = s.lw.condition ∧ t.outgoing .hunt = withdrawn.outgoing .hunt))) ∧
  (∀ (s : State) (r : WindowRef) (w : Window) (light : Bool), s.resetHeld = false →
    s.observable r = true → r.kind = .quiet → s.findWindow r = some w → s.hu.role = .noRole →
    let suspected : Bool := s.img.sThr ≤ lightCount ((s.lw.history ++ [light]).drop (s.lw.history.length + 1 - 8)) &&
      s.img.autoHunt && s.operating
    ∃ t, exec (.quietObservation r light) s = .next t ∧
      (suspected = true → s.hu.flag = none → s.hu.opening = false →
        t.hu = { s.hu with opening := true, openCount := s.hu.openCount + 1 } ∧
        t.outgoing .hunt = s.outgoing .hunt ++ [.huntOpen { station := s.slp.station, count := s.hu.openCount }]) ∧
      (suspected = true → s.hu.flag.isSome = true →
        t.hu = { s.hu with deferred := true } ∧ t.outgoing .hunt = s.outgoing .hunt) ∧
      (suspected = false ∨ (s.hu.flag = none ∧ s.hu.opening = true) →
        t.hu = s.hu ∧ t.outgoing .hunt = s.outgoing .hunt)) ∧
  (∀ (s : State) (st : Station) (id : HuntId) (outcome : HuntOutcome), s.resetHeld = false → s.hu.flag = some id →
    s.hu.role.isOwner = false → s.hu.opening = false → s.hu.deferred = true →
    let left := if s.hu.role = .participant then s.withdraw fun n => n.producer = .hunt else s
    let again : Bool := s.img.sThr ≤ lightCount s.lw.history && s.operating
    let opens (t : State) : Prop := t.hu.flag = none ∧ t.hu.role = .noRole ∧ t.hu.deferred = false ∧ t.hu.opening = again ∧
      t.lw.history = s.lw.history ∧
      t.outgoing .hunt = left.outgoing .hunt ++
        (if again then [.huntOpen { station := s.slp.station, count := s.hu.openCount }] else []) ∧
      t.hu.openCount = (if again then s.hu.openCount + 1 else s.hu.openCount)
    (∃ t, exec (.huntClose (.other st) id outcome) s = .next t ∧ opens t) ∧
    ∀ n, s.hu.guardTimer = some n → n ≤ 1 → ∃ t, exec .guardExpiry s = .next t ∧ opens t) ∧
  (∀ (s : State) (id : HuntId) (outcome : HuntOutcome) (o : OwnerPart), s.resetHeld = false →
    s.transmits (.huntClose id outcome) → s.hu.flag = some id → s.hu.role = .owner o → s.hu.deferred = false →
    (∀ c r, outcome ≠ .found c r) →
    ∃ t, exec (.huntClose .own id outcome) s = .next t ∧ t.hu.flag = none ∧ t.hu.role = .noRole ∧ t.hu.frozen = [] ∧
      t.hu.awaiting = none ∧ t.outgoing .hunt = [] ∧ t.lw.history = [] ∧ t.lw.condition = false ∧
      (∀ h, t.entry h = { s.entry h with holds := { (s.entry h).holds with hunt := false } }) ∧
      Alarmed s t { kind := .huntEnded, handle := 0 } (.huntEnded s.hu.huntId outcome o.stepsCarried) ∧
      NoEvent s.noticeCarried t ∧ t.um = s.um ∧ t.ua = s.ua ∧ t.ee = s.ee) ∧
  ∀ (s : State) (r : WindowRef) (w : Window) (light : Bool) (o : OwnerPart) (id : HuntId), s.resetHeld = false →
    s.observable r = true → r.kind = .quiet → s.findWindow r = some w → s.hu.role = .owner o → s.hu.huntId = some id →
    o.phase = .measuring → o.tally = 3 →
    let present := o.lightSeen || light
    let m := { o with tally := 4, lightSeen := present }
    ∃ t, exec (.quietObservation r light) s = .next t ∧
      (s.draining = true → Offered ((s.clearOutstanding r).setOwner m) t) ∧
      (s.draining = false →
        (∀ sel, o.decide present = .step none sel →
          Offered (((s.clearOutstanding r).setOwner { m with phase := .stepping, step := o.step + 1, selector := sel }).queueNotice
            (.huntStep id (o.step + 1) sel)) t) ∧
        (∀ c l j sel, o.decide present = .step (some (c, l, j)) sel →
          Offered (((s.clearOutstanding r).setOwner { m with
            guiltyChannel := some c, guiltyPart := some (l, j), phase := .stepping, step := o.step + 1,
            selector := sel }).queueNotice (.huntStep id (o.step + 1) sel)) t) ∧
        ∀ outcome, o.decide present = .close outcome →
          Offered (((s.clearOutstanding r).setOwner { m with phase := .closing }).queueNotice (.huntClose id outcome)) t)

/-- The owner's record (R108, R112, R116): its own HUNT_OPEN makes it OWNER, COLLECTING for 20 cycles; a HUNT_JOIN of its hunt from a new channel, its own or another station's, before the join timer expires, is recorded, four at most; a HUNT_READY of the current step, its own or another station's, sets the ready flag of its channel, a home it names in the channel of the selector is the found home from then on, and with all ready the owner measures, and until then goes on waiting. Whoever is no owner, and an owner of another hunt, takes nothing from a HUNT_JOIN or a HUNT_READY. -/
def Obligations.OwnerRecord : Prop :=
  ∀ (s : State) (id : HuntId), s.resetHeld = false →
    (s.transmits (.huntOpen id) → s.hu.flag = none → s.hu.role = .noRole → s.operating = true →
      ∃ t, exec (.huntOpen .own id) s = .next t ∧ t.hu.flag = some id ∧ t.hu.opening = false ∧
        t.hu.huntId = some id ∧ ∃ o, t.hu.role = .owner o ∧ o.phase = .collecting ∧ o.participants = [] ∧
          o.joinTimer = some 20 ∧ o.step = 0) ∧
    ∀ (st : Station) (c n k : Nat) (named : Option HomeRef),
      (∀ o, s.hu.role = .owner o → s.hu.flag = some id →
        let recorded (u t : State) : Prop :=
          (o.phase = .collecting → o.joinTimer.isSome = true → o.participants.length < 4 →
            (∀ p ∈ o.participants, p.channel ≠ c) →
            Offered (u.setOwner
              { o with participants := o.participants ++ [{ channel := c, count := n, ready := false }] }) t) ∧
          (o.phase ≠ .collecting ∨ o.joinTimer = none ∨ 4 ≤ o.participants.length ∨ (∃ p ∈ o.participants, p.channel = c) →
            Offered u t)
        let counted (u t : State) : Prop :=
          (o.phase ≠ .waiting ∨ o.readyTimer = none ∨ k ≠ o.step ∨ (∀ p ∈ o.participants, p.channel ≠ c) → Offered u t) ∧
          (o.phase = .waiting → o.readyTimer.isSome = true → k = o.step → (∃ p ∈ o.participants, p.channel = c) →
            ∀ found, (∀ r l j, named = some r → o.selector = .part c l j → found = some r) →
              (named = none ∨ (∀ l j, o.selector ≠ .part c l j) → found = o.found) →
              let flagged := { o with
                participants := o.participants.map fun p => if p.channel = c then { p with ready := true } else p,
                found := found }
              ((∀ p ∈ o.participants, p.channel ≠ c → p.ready = true) → Offered (u.setOwner
                { flagged with readyTimer := none, tally := 0, lightSeen := false, phase := .measuring }) t) ∧
              ((∃ p ∈ o.participants, p.channel ≠ c ∧ p.ready = false) → Offered (u.setOwner flagged) t))
        (∃ t, exec (.huntJoin (.other st) id c n) s = .next t ∧ recorded s.lineHeard t) ∧
        (s.transmits (.huntJoin id c n) → ∃ t, exec (.huntJoin .own id c n) s = .next t ∧ recorded s.noticeCarried t) ∧
        (∃ t, exec (.huntReady (.other st) id c k named) s = .next t ∧ counted s.lineHeard t) ∧
        (s.transmits (.huntReady id c k named) →
          ∃ t, exec (.huntReady .own id c k named) s = .next t ∧ counted s.noticeCarried t)) ∧
      (s.hu.role.isOwner = false ∨ s.hu.flag ≠ some id →
        (∃ t, exec (.huntJoin (.other st) id c n) s = .next t ∧ Offered s.lineHeard t) ∧
        (s.transmits (.huntJoin id c n) → ∃ t, exec (.huntJoin .own id c n) s = .next t ∧ Offered s.noticeCarried t) ∧
        (∃ t, exec (.huntReady (.other st) id c k named) s = .next t ∧ Offered s.lineHeard t) ∧
        (s.transmits (.huntReady id c k named) →
          ∃ t, exec (.huntReady .own id c k named) s = .next t ∧ Offered s.noticeCarried t))

/-- HUNT_STEP (R105, R114, R116, R122): a step of another hunt is ignored; with the flag clear it sets the flag and the guard and joins no hunt, and an own offer of HUNT_OPEN that stands is withdrawn and its suspicion deferred (R108); a participant of the hunt darkens exactly the live positions of the named part of its own channel, awaits the next map, and its guard runs anew; in DRAINING it does neither. The owner's own step carried does the same at the owner, clears the ready flags and starts the READY timer of 40 cycles. -/
def Obligations.HuntStepHeard : Prop :=
  ∀ (s : State) (id : HuntId) (k : Nat) (sel : Selector), s.resetHeld = false →
    (∀ st, ∃ t, exec (.huntStep (.other st) id k sel) s = .next t ∧
      (∀ f, s.hu.flag = some f → f ≠ id → Offered s.lineHeard t) ∧
      (s.hu.flag = none →
        t.hu = { s.hu with flag := some id, guardTimer := some 400, opening := false,
                           deferred := s.hu.deferred || s.hu.opening } ∧
        t.roster = s.roster ∧ t.um = s.um ∧ t.ua = s.ua ∧ t.ee = s.ee ∧ t.lw = s.lw ∧ t.il = s.il ∧ NoEvent s t ∧
        (s.hu.opening = true → ∀ who, t.outgoing who = (s.withdraw isOpen).outgoing who) ∧
        (s.hu.opening = false → ∀ who, t.outgoing who = s.outgoing who)) ∧
      (s.hu.flag = some id → s.hu.role = .participant → s.draining = true → Offered s.lineHeard t) ∧
      (s.hu.flag = some id → s.hu.role = .participant → s.draining = false →
        (∀ h, 1 ≤ h → h ≤ 64 → t.entry h = { s.entry h with
          holds := { (s.entry h).holds with hunt := decide (h ∈ s.darkened sel) } }) ∧
        t.hu.guardTimer = some 400 ∧ t.hu.awaiting = some { step := k, map := s.cb.cycle + 1, named := s.namedHome sel } ∧
        t.hu.frozen = s.hu.frozen ∧ t.um = s.um ∧ t.ua = s.ua ∧ NoEvent s t)) ∧
    ∀ o, s.transmits (.huntStep id k sel) → s.hu.flag = some id → s.hu.role = .owner o → s.draining = false →
      ∃ t, exec (.huntStep .own id k sel) s = .next t ∧
        (∀ h, 1 ≤ h → h ≤ 64 → t.entry h = { s.entry h with
          holds := { (s.entry h).holds with hunt := decide (h ∈ s.darkened sel) } }) ∧
        t.hu.guardTimer = some 400 ∧ t.hu.awaiting = some { step := k, map := s.cb.cycle + 1, named := s.namedHome sel } ∧
        t.hu.role = .owner { o with
          phase := .waiting, readyTimer := some 40, stepsCarried := o.stepsCarried + 1,
          participants := o.participants.map fun p => { p with ready := false } } ∧
        t.hu.frozen = s.hu.frozen ∧ t.um = s.um ∧ t.ua = s.ua

/-- The parts of a level cut a list into runs that do not overlap and together cover it, and a part's two children cut it in two (R113). -/
def Obligations.PartsCover : Prop :=
  ∀ (α : Type) (xs : List α) (level : Nat),
    ((List.range (2 ^ level)).flatMap fun j => partOf xs level j) = xs ∧
    ∀ j, j < 2 ^ level → partOf xs (level + 1) (2 * j) ++ partOf xs (level + 1) (2 * j + 1) = partOf xs level j

/-- The owner's decision at the end of a measurement (R118), cell by cell. The baseline: gone closes INCONCLUSIVE; present steps to the lowest recorded channel with a home, or closes NOT_FOUND where there is none. A channel step: gone makes its channel guilty with the whole list and continues; present steps to the next higher recorded channel with a home, or closes NOT_FOUND. A bisection step: gone continues from the lower child it darkened, present from the upper. The verify step: present closes INCONCLUSIVE; gone closes FOUND with the home its READY carried, and a home that is free where it carried none (log entry 14). To continue from a part of one home steps the verify step, and from a larger one its lower child; the children of a part of two homes or more are never empty, so that no child is passed over. The recorded channels are those of 0 to 3. -/
def Obligations.OwnerDecides : Prop :=
  (∀ (o : OwnerPart) (c g : Nat) (r : HomeRef) (l j l' j' : Nat),
    let continues (d : Decision) (c l j : Nat) : Prop :=
      (partSize (o.countOf c) l j = 1 → d = .step (some (c, l, j)) (.part c l j)) ∧
      (2 ≤ partSize (o.countOf c) l j → d = .step (some (c, l, j)) (.part c (l + 1) (2 * j)))
    let steps (least : Nat) : Prop :=
      ((∀ p ∈ o.participants, p.channel < least ∨ p.count = 0 ∨ 4 ≤ p.channel) → o.decide true = .close .notFound) ∧
      (∀ d, least ≤ d → d < 4 → (∃ p ∈ o.participants, p.channel = d ∧ 1 ≤ p.count) →
        (∀ p ∈ o.participants, least ≤ p.channel → p.channel < d → p.count = 0) → o.decide true = .step none (.part d 0 0))
    (o.selector = .noChannel → o.decide false = .close .inconclusive ∧ steps 0) ∧
    (o.selector = .part c 0 0 → o.guiltyChannel = none → continues (o.decide false) c 0 0 ∧ steps (c + 1)) ∧
    (o.selector = .part g l j → o.guiltyChannel = some g → o.guiltyPart = some (l', j') → (l, j) ≠ (l', j') →
      continues (o.decide false) g l j ∧ continues (o.decide true) g l (j + 1)) ∧
    (o.selector = .part g l j → o.guiltyChannel = some g → o.guiltyPart = some (l, j) →
      o.decide true = .close .inconclusive ∧ (o.found = some r → o.decide false = .close (.found g r)) ∧
      (o.found = none → ∃ x, o.decide false = .close (.found g x)))) ∧
  (∀ (o : OwnerPart) (p : Participant), p ∈ o.participants →
    (∀ q ∈ o.participants, q.channel = p.channel → q = p) → o.countOf p.channel = p.count) ∧
  ∀ n l j, 2 ≤ partSize n l j → 1 ≤ partSize n (l + 1) (2 * j) ∧ 1 ≤ partSize n (l + 1) (2 * j + 1)

/-- HUNT_CLOSE heard (R105, R119): the close of another hunt is ignored; that of the flag's hunt clears the flag, and whoever took part clears HUNT everywhere, empties its list and is NONE again; a participant keeps its stray history. ROGUE found (R120): a FOUND close that names this channel and a home still at its handle sets ROGUE there in the same change, and ROGUE_FOUND is raised; the other holds but HUNT stand. -/
def Obligations.HuntCloses : Prop :=
  (∀ (s : State) (st : Station) (id : HuntId) (o : HuntOutcome), s.resetHeld = false →
    ∃ t, exec (.huntClose (.other st) id o) s = .next t ∧
      (∀ f, s.hu.flag = some f → f ≠ id → Offered s.lineHeard t) ∧
      (s.hu.flag = some id → (∀ c r, o ≠ .found c r) → s.hu.deferred = false →
        t.hu.flag = none ∧ t.hu.guardTimer = none ∧ t.um = s.um ∧ t.ua = s.ua ∧ t.ee = s.ee ∧ NoEvent s t ∧
        (s.hu.role ≠ .noRole → t.hu.role = .noRole ∧ t.hu.frozen = [] ∧ t.hu.awaiting = none ∧
          ∀ h, t.entry h = { s.entry h with holds := { (s.entry h).holds with hunt := false } }) ∧
        (s.hu.role = .noRole → t.roster = s.roster) ∧
        (s.hu.role = .participant → t.lw = s.lw) ∧
        (∀ p, s.hu.role = .owner p → t.lw.history = [] ∧ t.lw.condition = false))) ∧
  ∀ (s : State) (st : Station) (id : HuntId) (r : HomeRef), s.resetHeld = false → s.hu.flag = some id →
    s.hu.role = .participant → s.builds = true → s.hu.deferred = false → s.isHome r = true →
    ∃ t, exec (.huntClose (.other st) id (.found s.channel r)) s = .next t ∧
      t.entry r.handle = { s.entry r.handle with
        holds := { (s.entry r.handle).holds with hunt := false, rogue := true } } ∧
      (s.img.alarmModes.rogueFound ≠ .off → ∃ p ∈ t.places, p.1 = { kind := .rogueFound, handle := r.handle }) ∧
      t.hu.role = .noRole ∧ t.hu.flag = none ∧ t.um = s.um ∧ NoEvent s t

/-- The hunt's timers (R106, R112, R116): at the guard's expiry the flag clears and whoever took part leaves, an owner emptying its history; at the join timer's the owner steps the baseline or closes ABANDONED; at the READY timer's it closes ABANDONED. -/
def Obligations.HuntTimers : Prop :=
  ∀ (s : State) (n : Nat), s.resetHeld = false → n ≤ 1 →
    (∀ id, s.hu.flag = some id → s.hu.guardTimer = some n → s.hu.deferred = false →
      ∃ t, exec .guardExpiry s = .next t ∧ t.hu.flag = none ∧ t.hu.guardTimer = none ∧ t.um = s.um ∧ t.ua = s.ua ∧
        NoEvent s t ∧
        (s.hu.role ≠ .noRole → t.hu.role = .noRole ∧ t.hu.frozen = [] ∧ t.hu.awaiting = none ∧
          ∀ h, (t.entry h).holds.hunt = false) ∧
        (∀ p, s.hu.role = .owner p → t.lw.history = [] ∧
          (s.img.alarmModes.huntEnded ≠ .off → ∃ a ∈ t.places, a.1 = { kind := .huntEnded, handle := 0 }))) ∧
    (∀ o id, s.hu.role = .owner o → s.hu.huntId = some id → o.phase = .collecting → o.joinTimer = some n →
      s.draining = false →
      ∃ t, exec .joinTimerExpiry s = .next t ∧
        (o.participants ≠ [] → Offered ((s.setOwner
          { o with joinTimer := none, phase := .stepping, step := o.step + 1, selector := .noChannel }).queueNotice
            (.huntStep id (o.step + 1) .noChannel)) t) ∧
        (o.participants = [] → Offered ((s.setOwner { o with joinTimer := none, phase := .closing }).queueNotice
          (.huntClose id .abandoned)) t)) ∧
    (∀ o id, s.hu.role = .owner o → s.hu.huntId = some id → o.phase = .waiting → o.readyTimer = some n →
      s.draining = false →
      ∃ t, exec .readyTimerExpiry s = .next t ∧
        Offered ((s.setOwner { o with readyTimer := none, phase := .closing }).queueNotice (.huntClose id .abandoned)) t)

/-! ### Start-up and draining (chapter 11) -/

/-- A complete read (R188 to R191): a wrong sum faults with BAD_SUM, a bad field with BAD_FIELD and its name; a good image is taken, with the discovery flag set by P_disc, the admission floor, LISTENING, and PRESENT queued. NO_IMAGE faults with its reason. That an image is accepted below cycle 16 and NO_IMAGE from cycle 15 on, on either side of the start of cycle 16, is the model's choice (log entry 2), and so is which field fails where R_low is not below R_high (log entry 25) and that a W_disc above 6,000 fails (log entry 47). -/
def Obligations.ImageLoads : Prop :=
  ∀ (s : State), s.resetHeld = false → s.il.startup = .loading →
    (s.cb.cycle.toNat < 16 → ∀ ws : List ImageWord, ws.length = 30 →
      ∃ t, exec (.imageLoadComplete ws) s = .next t ∧
        (imageSum ws ≠ (ws[29]?).getD 0 → t.il.startup = .configFault ∧ t.il.fault = some .badSum ∧
          Raised s t (.faultReport .badSum none) ∧ t.il.image = s.il.image) ∧
        (∀ f, imageSum ws = (ws[29]?).getD 0 → firstBadField ws = some f → t.il.startup = .configFault ∧
          t.il.fault = some (.badField f) ∧ Raised s t (.faultReport (.badField f) none)) ∧
        (imageSum ws = (ws[29]?).getD 0 → firstBadField ws = none → t.il.startup = .listening ∧
          t.il.image = some (readImage ws) ∧ t.ee.discoveryEnable = decide ((readImage ws).pDisc ≠ 0) ∧
          t.ua.floor = 10000 - ((readImage ws).wDisc + 4) - 136 - ((readImage ws).qLen + 4) ∧
          t.outgoing .loader = s.outgoing .loader ++ [.present (readImage ws).channel false] ∧ NoEvent s t) ∧
        t.roster = s.roster ∧ t.um = s.um ∧ t.hu = s.hu) ∧
    (15 ≤ s.cb.cycle.toNat → ∃ t, exec .noImage s = .next t ∧ t.il.startup = .configFault ∧ t.il.fault = some .noImage ∧
      Raised s t (.faultReport .noImage none) ∧ t.roster = s.roster ∧ t.um = s.um ∧ t.hu = s.hu)

/-- A good image lies in its ranges (R189): R_low below R_high, W_disc long enough for every reply in reach and at most 6,000, and the admission floor at least 3,344, above the term of its default profile. That a W_disc given above 6,000 fails its check is the model's choice (log entry 47). -/
def Obligations.GoodImageInRange : Prop :=
  ∀ ws : List ImageWord, firstBadField ws = none →
    let img := readImage ws
    img.channel < 4 ∧ img.rLow < img.rHigh ∧ img.rHigh ≤ 160000 ∧
    (img.rHigh - img.rLow + 7) / 8 + 976 ≤ img.wDisc ∧ img.wDisc ≤ 6000 ∧
    (img.pDisc = 0 ∨ (16 ≤ img.pDisc ∧ img.pDisc ≤ 1024)) ∧ 16 ≤ img.qLen ∧ img.qLen ≤ 512 ∧
    1 ≤ img.qPeriod ∧ img.qPeriod ≤ 16 ∧ 1 ≤ img.kPoll ∧ img.kPoll ≤ 64 ∧ img.lifeline ≤ 256 ∧
    img.defaultProfile.assured ≤ img.defaultProfile.peak ∧ img.defaultProfile.peak ≤ 8000 ∧
    1 ≤ img.claimHold ∧ 1 ≤ img.handoverTime ∧ 1 ≤ img.lostTime ∧ 1 ≤ img.sThr ∧ img.sThr ≤ 8 ∧
    3344 ≤ admissionFloor img ∧ term img.defaultProfile.assured ≤ admissionFloor img

/-- Listening (R191): the own PRESENT carried starts the 40 cycles, whose expiry is OPERATING; another's PRESENT for the channel faults a listener that has not been carried, or any listener when marked incumbent, and is answered with an incumbent one otherwise and in OPERATING and DRAINING; one for another channel is ignored. -/
def Obligations.PresentHeard : Prop :=
  ∀ (s : State) (st : Station), s.resetHeld = false →
    (s.il.startup = .listening → s.transmits (.present s.channel false) → s.slp.detachSpan = none →
      ∃ t, exec (.present .own s.channel false) s = .next t ∧ t.il = { s.il with listenTimer := some 40 } ∧
        t.roster = s.roster ∧ t.um = s.um ∧ t.hu = s.hu ∧ NoEvent s t) ∧
    (∀ n, s.il.startup = .listening → s.il.listenTimer = some n → n ≤ 1 →
      exec .listeningTimerExpiry s = .next { s with il := { s.il with startup := .operating, listenTimer := none } }) ∧
    (∀ c inc, c ≠ s.channel → ∃ t, exec (.present (.other st) c inc) s = .next t ∧ Offered s.lineHeard t) ∧
    ∀ inc, ∃ t, exec (.present (.other st) s.channel inc) s = .next t ∧
      (s.il.startup = .loading ∨ s.il.startup = .configFault → Offered s.lineHeard t) ∧
      (s.il.startup = .listening → s.il.listenTimer = none ∨ inc = true →
        t.il.startup = .configFault ∧ t.il.fault = some .channelClash ∧ t.il.usableChannel = some s.channel ∧
        Raised s t (.faultReport .channelClash (some (s.channel, st))) ∧ t.roster = s.roster) ∧
      (s.builds = true → inc = true → Offered s.lineHeard t) ∧
      (s.builds = true ∨ (s.il.startup = .listening ∧ s.il.listenTimer ≠ none) → inc = false →
        (s.slp.stands (.present s.channel true) = true → Offered s.lineHeard t) ∧
        (s.slp.stands (.present s.channel true) = false →
          Offered (s.lineHeard.queueNotice (.present s.channel true)) t))

/-- The end of draining (R193): by the condition that no account holds a snapshot and no entry is HANDED, or by the drain timer, every block takes its reset value with the straps read again. That the condition acts by a command of its own, which changes nothing while it fails, is the model's choice (log entries 1 and 27). -/
def Obligations.DrainingEnds : Prop :=
  ∀ (s : State) (straps : Station), s.resetHeld = false → s.draining = true →
    ((∀ h ∈ handles, (s.acct h).bind Account.snapshot = none ∧ (s.entry h).state ≠ .handed) →
      exec (.drainComplete straps) s =
        .next { State.reset with slp := LinePort.reset straps, choices := s.choices, pending := s.pending }) ∧
    ((∃ h ∈ handles, (s.acct h).bind Account.snapshot ≠ none ∨ (s.entry h).state = .handed) →
      exec (.drainComplete straps) s = .next s) ∧
    ∀ n, s.il.drainTimer = some n → n ≤ 1 →
      exec (.drainTimerExpiry straps) s =
        .next { State.reset with slp := LinePort.reset straps, choices := s.choices, pending := s.pending }

/-- A RESULT is carried (R179, R192): its place is freed and the next result stands; a RESTART's OK resets the part in LISTENING and CONFIG_FAULT, and in OPERATING begins draining with the timer at 2,000: every ACTIVE, LEAVING, TUNING and LOST entry is CLOSING with a RESTART record and RELEASE, every ARRIVING and TAKING one FREE, and every HANDED, CLAIMING, CONFIRMING and CLOSING one as it was. The notices of the moves under way, each serial on one entry (R22, R140): an OFFER of a LEAVING home not yet carried, and an ACCEPT or TAKEN of an ARRIVING or TAKING one, are withdrawn; a RECLAIM is queued for each LEAVING home whose OFFER was carried and each TUNING one whose context records none; nothing is said of the order of these RECLAIMs (log entry 43); every other notice stays, in its order. -/
def Obligations.ResultCarried : Prop :=
  ∀ (s : State) (straps : Station) (r : Result) (rest : List Result), s.resetHeld = false →
    s.slp.transmitting = some .result → s.rq.results = r :: rest → s.slp.detachSpan = none →
    ∃ t, exec (.resultCarried straps) s = .next t ∧
      (r.kind ≠ .restart ∨ r.code ≠ .ok →
        t.rq.results = rest ∧ t.slp.transmitting = none ∧ t.slp.voidCount = 0 ∧ t.roster = s.roster ∧ t.um = s.um ∧
        t.hu = s.hu ∧ t.il = s.il ∧ NoEvent s t) ∧
      (r.kind = .restart → r.code = .ok → s.il.startup = .listening ∨ s.il.startup = .configFault →
        t.il.startup = .loading ∧ t.cb.cycle = 0 ∧ t.slp.station = straps ∧ t.rq.results = [] ∧
        (∀ h, t.entry h = Entry.free) ∧ t.pending = s.pending) ∧
      (r.kind = .restart → r.code = .ok → s.il.startup = .operating →
        t.il.startup = .draining ∧ t.il.drainTimer = some 2000 ∧ t.rq.results = rest ∧ NoEvent s t ∧
        (∀ h,
          ((s.entry h).state = .active ∨ (s.entry h).state = .leaving ∨ (s.entry h).state = .tuning ∨
              (s.entry h).state = .lost →
            (t.entry h).state = .closing ∧ (t.entry h).mailbox.map Message.kind = some .release ∧
            (t.entry h).serial = (s.entry h).serial ∧ t.acct h = (s.enterClosing h .restart true).acct h) ∧
          ((s.entry h).state = .arriving ∨ (s.entry h).state = .taking → t.entry h = Entry.free ∧ t.acct h = none) ∧
          ((s.entry h).state = .handed ∨ (s.entry h).state = .claiming ∨ (s.entry h).state = .confirming ∨
              (s.entry h).state = .closing → t.entry h = s.entry h ∧ t.acct h = s.acct h)) ∧
        ((∀ h ∈ handles, ∀ k ∈ handles, (s.entry h).state ≠ .free → (s.entry k).state ≠ .free →
            (s.entry h).serial = (s.entry k).serial → h = k) →
          (∀ h ∈ handles, (s.entry h).state ≠ .free → (s.entry h).serial.isSome = true) →
          let ends (n : Notice) (h : Nat) : Bool := (s.entry h).serial.any fun serial =>
            (decide ((s.entry h).state = .leaving) && isOfferOf serial n) ||
              ((decide ((s.entry h).state = .arriving) || decide ((s.entry h).state = .taking)) && isTargetNoticeOf serial n)
          let kept := (s.outgoing .transfer).filter fun n => !(handles.any (ends n))
          let told (h : Nat) : Bool :=
            (decide ((s.entry h).state = .leaving) &&
              !((s.outgoing .transfer).any fun n => (s.entry h).serial.any fun serial => isOfferOf serial n)) ||
            (decide ((s.entry h).state = .tuning) && ((s.entry h).handover.bind Handover.reclaim).isNone)
          (∃ reclaims : List Notice, t.outgoing .transfer = kept ++ reclaims ∧
            reclaims.Perm ((handles.filter told).map fun h => .reclaim ((s.entry h).serial.getD 0) s.channel)) ∧
          ∀ who, who ≠ .transfer → t.outgoing who = s.outgoing who))

/-- A mailbox message ends without an acknowledgement (R33): a RELEASE is dropped once its fourth map is built; another fails at the start of the third cycle after its sixteenth map, the first and 15 more (log entry 30), and its poster acts: a SETTLING re-range seeks again (R95), a CONFIRMING entry is FREE (R62), a TUNING entry's timer stops with RECLAIM queued (R131). -/
def Obligations.MessageEnds : Prop :=
  ∀ (s : State) (h : Nat) (m : Message), s.resetHeld = false → (s.entry h).mailbox = some m →
    (∀ f, m.firstMap = some f → m.kind ≠ .release → m.carried = 16 → 18 ≤ (s.cb.cycle - f).toNat →
      ∃ t, exec (.messageFailure h) s = .next t ∧
        (∀ d, m.kind = .adjust d →
          t.entry h = { s.entry h with mailbox := none } ∧
          (t.drift h).phase = (if (s.drift h).phase = .settling then .seeking else (s.drift h).phase) ∧
          (t.drift h).lastOffset = (s.drift h).lastOffset ∧ t.acct h = s.acct h ∧ t.ua = s.ua ∧ t.hu = s.hu ∧
          HomeFrame s t h ∧ NoEvent s t) ∧
        (∀ sr k d, m.kind = .assign sr k d → (s.entry h).state = .confirming →
          t.entry h = Entry.free ∧ t.acct h = none ∧ t.ua.booked = s.ua.booked - (s.entry h).bookedTerm ∧
          HomeFrame s t h ∧ NoEvent s t) ∧
        (∀ c k ctx serial, m.kind = .tune c k → (s.entry h).state = .tuning → (s.entry h).handover = some ctx →
          (s.entry h).serial = some serial →
          Offered ((s.setEntry h { s.entry h with
            mailbox := none, handover := some { ctx with timer := none, reclaim := some .tuneFailed } }).queueNotice
              (.reclaim serial s.channel)) t)) ∧
    (m.kind = .release → 4 ≤ m.carried →
      ∃ t, exec (.releaseDropped h) s = .next t ∧ Offered (s.setEntry h { s.entry h with mailbox := none }) t)

/-- What the port hears without acting (R173, R174, R178): an ignored frame changes nothing; a frame whose length is above 48 or whose check fails is voided while ATTACHED; the detach timer's expiry ATTACHES the port with the void count 0, and the notices that the Enrolment Engine kept while DETACHED are offered (R59). -/
def Obligations.FramesHeard : Prop :=
  ∀ s : State, s.resetHeld = false →
    (∀ cls sender kind, exec (.carriedIgnoredFrame cls sender kind) s =
      .next { s with ports := { s.ports with voidDriven := false } }) ∧
    (∀ f : RawFrame, 48 < f.length.toNat ∨ crc (frameBits f) ≠ f.check →
      exec (.frameCheckFailed f) s =
        .next { s with ports := { s.ports with voidDriven := decide (s.slp.lineState = .attached) } }) ∧
    ∀ n, s.slp.lineState = .detached → s.slp.detachTimer = some n → n ≤ 1 →
      ∃ t, exec .detachTimerExpiry s = .next t ∧
        Offered { s with slp := { s.slp with lineState := .attached, voidCount := 0, detachTimer := none } } t

/-- Contention and voids (R172, R173, R176, R178): the port contends with its first slot that is not empty, and the lower class and sender wins; a void advances the count and leaves the offer, and at the 32nd in a row the port is DETACHED for 4,000 cycles and the claims not carried are dropped. -/
def Obligations.PortContends : Prop :=
  ∀ s : State, s.resetHeld = false →
    (∀ rival, s.il.startup = .loading ∨ s.slp.lineState = .detached ∨ s.slp.transmitting ≠ none ∨
        (∀ slot, s.slotFull slot = false) → exec (.lineIdleContend rival) s = .next s) ∧
    (∀ slot : Slot, s.il.startup ≠ .loading → s.slp.lineState = .attached → s.slp.transmitting = none →
      s.slotFull slot = true → (∀ other : Slot, other.cls < slot.cls → s.slotFull other = false) →
      exec (.lineIdleContend none) s = .next { s with slp := { s.slp with transmitting := some slot } } ∧
      ∀ r : BitVec 11,
        (slot.cls * 16 + s.slp.station.toNat < r.toNat / 16 →
          exec (.lineIdleContend (some r)) s = .next { s with slp := { s.slp with transmitting := some slot } }) ∧
        (r.toNat / 16 < slot.cls * 16 + s.slp.station.toNat → exec (.lineIdleContend (some r)) s = .next s)) ∧
    ∀ (slot : Slot) (v : Bool), s.slp.transmitting = some slot → ∃ t, exec (.ownFrameVoided v) s = .next t ∧
      (s.slp.voidCount < 31 → (∀ x, s.slp.noticeSlot = some x → x.withdrawn = false) →
        Offered { s with slp := { s.slp with transmitting := none, voidCount := s.slp.voidCount + 1 },
                         ports := { s.ports with voidDriven := v } } t) ∧
      (s.slp.voidCount < 31 → s.draining = false → slot = .notice →
        (∀ x, s.slp.noticeSlot = some x → x.withdrawn = true) →
        Offered { s with
          slp := { s.slp with transmitting := none, voidCount := s.slp.voidCount + 1, noticeSlot := none },
          ports := { s.ports with voidDriven := v } } t) ∧
      (31 ≤ s.slp.voidCount →
        t.slp.lineState = .detached ∧ t.slp.voidCount = 32 ∧ t.slp.detachTimer = some 4000 ∧
        t.slp.detachSpan = some (s.slp.detachSpan.getD 0) ∧ t.slp.transmitting = none ∧ NoEvent s t ∧ t.il = s.il ∧
        t.cb = s.cb ∧ t.rq.results = s.rq.results ∧ TablesSame s t ∧
        ∀ k p, some k ∈ s.ee.captures → k.claim = some p → p.carried = false →
          t.entry p.handle = Entry.free ∧ ∀ x y, some x ∈ t.ee.captures → x.claim = some y → y.handle ≠ p.handle)

/-- A report and a usage record are carried, on a line never detached since the last carriage (R169, R176, R183, R184): an alarm's place is idle or pending with its later report, an event leaves the queue; the first part of a record gives its slot to the second; at the second the content leaves the snapshot, what was merged since stays as the remainder, and a CLOSING entry whose final record is done is FREE. What an empty slot takes next, here and wherever a statement says `Offered` (R168, R175, R176, R183, R184): the notice presented longest; the pending alarm place of the earliest moment, and an event only with no place pending, under the report number, the event with the dropped mark as it stood; the record of the lowest handle with a snapshot, its first part, under the record number; the number advances with the frame. That a frame carries the number as it stood before is log entry 15, and that an alarm raised in the same command goes before an event is log entry 6. -/
def Obligations.ReportsCarried : Prop :=
  (∀ u t : State, Offered u t →
    (u.slp.noticeSlot = none → ∀ n rest, u.slp.presented = n :: rest →
      t.slp.noticeSlot = some { notice := n, withdrawn := false } ∧ ∃ later, t.slp.presented = rest ++ later) ∧
    (u.slp.reportSlot = none →
      (u.rq.alarms ≠ [] → ∃ f q, t.slp.reportSlot = some f ∧ f.number = u.rq.reportNumber ∧ f.body = .alarm q none ∧
        t.rq.reportNumber = u.rq.reportNumber + 1 ∧ ∃ p ∈ u.earliest, q.content4 = p.content4) ∧
      (∀ e rest, u.rq.alarms = [] → u.rq.events = e :: rest →
        t.slp.reportSlot = some { number := u.rq.reportNumber, body := .event e u.rq.dropped } ∧
        t.rq.reportNumber = u.rq.reportNumber + 1)) ∧
    (∀ h sn, u.slp.usageSlot = none → h ∈ handles → (u.acct h).bind Account.snapshot = some sn →
      (∀ k ∈ handles, k < h → (u.acct k).bind Account.snapshot = none) →
      t.slp.usageSlot = some { handle := h, serial := (u.entry h).serial, channel := u.channel, content := sn,
                               number := u.rq.recordNumber, part := .first } ∧
      t.rq.recordNumber = u.rq.recordNumber + 1)) ∧
  ∀ s : State, s.resetHeld = false → s.slp.detachSpan = none →
    (∀ f, s.slp.transmitting = some .report → s.slp.reportSlot = some f →
      ∃ t, exec .reportCarried s = .next t ∧
        let u := { s with slp := { s.slp with reportSlot := none, transmitting := none, voidCount := 0 },
                          ports := { s.ports with voidDriven := false } }
        (∀ p, f.body = .alarm p none → Offered u t) ∧
        (∀ p l, f.body = .alarm p (some l) →
          Offered { u with rq := { s.rq with alarms := s.rq.alarms ++ [{ l with age := .fresh }] } } t) ∧
        (∀ e marked, f.body = .event e marked →
          Offered { u with rq := { s.rq with events := s.rq.events.tail, dropped := s.rq.dropped && !marked } } t)) ∧
    ∀ f, s.slp.transmitting = some .usage → s.slp.usageSlot = some f →
      (f.part = .first → ∃ t, exec .usageFirstPartCarried s = .next t ∧
        Offered { s with
          slp := { s.slp with usageSlot := some { f with part := .second }, transmitting := none, voidCount := 0 },
          ports := { s.ports with voidDriven := false } } t) ∧
      ∀ a sn, f.part = .second → s.acct f.handle = some a → a.snapshot = some sn →
        ∃ t, exec .usageRecordCarried s = .next t ∧ OthersSame s t f.handle ∧ TablesSame s t ∧ NoEvent s t ∧
          t.slp.transmitting = none ∧ t.slp.voidCount = 0 ∧
          (∀ g, t.slp.usageSlot = some g → g.part = .first ∧ g.number = s.rq.recordNumber ∧
            t.rq.recordNumber = s.rq.recordNumber + 1 ∧ (t.acct g.handle).bind Account.snapshot = some g.content ∧
            ∀ k ∈ handles, k < g.handle → (t.acct k).bind Account.snapshot = none) ∧
          (t.slp.usageSlot = none → ∀ k ∈ handles, (t.acct k).bind Account.snapshot = none) ∧
          (sn = f.content → f.content.kind ≠ .period → (s.entry f.handle).state = .closing →
            t.entry f.handle = Entry.free ∧ t.acct f.handle = none ∧ t.ua.booked = s.ua.booked) ∧
          (sn = f.content → f.content.kind = .period ∨ (s.entry f.handle).state ≠ .closing →
            t.entry f.handle = s.entry f.handle ∧ t.acct f.handle = some { a with snapshot := none }) ∧
          (sn ≠ f.content → t.entry f.handle = s.entry f.handle ∧
            t.acct f.handle = some { a with snapshot := some { sn with
              firstPeriod := f.content.lastPeriod + 1, opening := f.content.closing,
              counters := sn.counters.less f.content.counters, adjusted := sn.adjusted - f.content.adjusted,
              rolled := sn.rolled - f.content.rolled } })

/-! ### Requests (chapter 10 and the rules of their owners) -/

/-- A request the terminator does not take or answers without its owner (R174, R179, R180): not addressed, or voided by another station, it changes nothing; LOADING or without a free result place it is voided while ATTACHED; in CONFIG_FAULT every request but RESTART is answered FAULTED (a malformed one too: log entry 22) and a broadcast is ignored; a length that does not match the kind is RANGE, and of a broadcast ignored. -/
def Obligations.RequestsTurnedAway : Prop :=
  ∀ (s : State) (hd : RequestHeader) (d : List Byte) (g : Bool), s.resetHeld = false →
    let restart : Instr × RequestKind × Bool := (.restart hd d, .restart, d.length == 0)
    let requests : List (Instr × RequestKind × Bool) :=
      [(.setProfile hd d, .setProfile, d.length == 13), (.setAccount hd d, .setAccount, d.length == 21),
       (.refill hd d, .refill, d.length == 12), (.move hd d, .move, d.length == 9), (.remove hd d, .remove, d.length == 8),
       (.hold hd d, .hold, d.length == 10), (.clearHold hd d, .hold, d.length == 10),
       (.queryHome hd d, .queryHome, d.length == 9), (.listHomes hd d, .listHomes, d.length == 1),
       (.setTariff hd d g, .setTariff, d.length == 5), (.fixTariff hd d g, .fixTariff, d.length == 1),
       (.setDiscovery hd d, .setDiscovery, d.length == 1), (.startHunt hd d, .startHunt, d.length == 0)]
    let broadcasts : List (Instr × RequestKind × Bool) :=
      [(.band hd d, .band, d.length == 1), (.closePeriod hd d, .closePeriod, d.length == 4),
       (.setFreeLabels hd d, .setFreeLabels, d.length % 5 == 0 && d.length ≤ 40)]
    let voided := { s with ports := { s.ports with voidDriven := decide (s.slp.lineState = .attached) } }
    (∀ c ∈ restart :: requests ++ broadcasts,
      (s.addressed hd = false → exec c.1 s = .next s.lineHeard) ∧
      (s.addressed hd = true → s.il.startup = .loading → exec c.1 s = .next voided)) ∧
    (∀ c ∈ restart :: requests, s.addressed hd = true → s.il.startup ≠ .loading →
      (4 ≤ s.rq.results.length → exec c.1 s = .next voided) ∧
      (s.rq.results.length < 4 → hd.voidedByOther = true → exec c.1 s = .next s.lineHeard) ∧
      (s.takes hd → c.2.2 = false → ∃ t, exec c.1 s = .next t ∧ Offered (s.withResult c.2.1 hd .range .nothing) t)) ∧
    (∀ c ∈ requests, s.addressed hd = true → hd.voidedByOther = false → s.rq.results.length < 4 →
      s.il.startup = .configFault → ∃ t, exec c.1 s = .next t ∧ Offered (s.withResult c.2.1 hd .faulted .nothing) t) ∧
    ∀ c ∈ broadcasts, s.addressed hd = true → s.il.startup ≠ .loading →
      hd.voidedByOther = true ∨ s.il.startup = .configFault ∨ c.2.2 = false → exec c.1 s = .next s.lineHeard

/-- The data bytes of the requests hold their arguments, most significant byte first, and nothing of an argument is lost: reading what was written gives it back (R180). The places of the three flag bits of a free label, bit 0 up, bit 1 down and bit 2 active, are the model's presumption (log entry 11). -/
def Obligations.RequestDataRead : Prop :=
  ∀ serial : Serial,
    (∀ a p w, a < 65536 → p < 65536 → w < 256 →
      readProfile (writeProfile serial a p w) = some (serial, { assured := a, peak := p, weight := w })) ∧
    (∀ m b l c, m < 256 → b < 2 ^ 32 → l < 2 ^ 32 → c < 2 ^ 32 →
      readAccount (writeAccount serial m b l c) =
        some { serial := serial, modeCode := m, base := b, lowWater := l, credit := c }) ∧
    (∀ x, x < 2 ^ 32 → readRefill (writeRefill serial x) = some (serial, x)) ∧
    (∀ x, x < 256 → readSerialByte (writeSerialByte serial x) = some (serial, x)) ∧
    readSerial (writeSerial serial) = some serial ∧
    (∀ x b, x < 256 → readHold (writeHold serial x b) = some (serial, x, BitVec.ofNat 8 b.toNat)) ∧
    (∀ b u d, b < 256 → u < 65536 → d < 65536 → readTariff (writeTariff b u d) = some (b, u, d)) ∧
    (∀ x, x < 256 → readByte (writeByte x) = some (BitVec.ofNat 8 x)) ∧
    (∀ p, p < 2 ^ 32 → readPeriod (writePeriod p) = some p) ∧
    ∀ fs : List FreeLabel, fs.length ≤ 8 → (∀ f ∈ fs, f.lo < 4096 ∧ f.hi < 4096) →
      ∃ v, readFreeLabels (fs.flatMap writeFreeLabel) = some v ∧
        ∀ i : Fin 8, v[i] = (fs[i.val]?).getD FreeLabel.empty

/-- SET_PROFILE (R82, R83, R85): UNKNOWN_HOME, BUSY outside ACTIVE and LOST, the values clamped, INCONSISTENT, OVERBOOK when the increase passes the floor; otherwise the profile takes the clamped values, the booked sum takes the new term in place of the old, and OK carries them. -/
def Obligations.ProfileSet : Prop :=
  ∀ (s : State) (hd : RequestHeader) (serial : Serial) (a p w : Nat), s.takes hd → a < 65536 → p < 65536 → w < 256 →
    ∃ t, exec (.setProfile hd (writeProfile serial a p w)) s = .next t ∧
      (s.find serial = none → Offered (s.withResult .setProfile hd .unknownHome .nothing) t) ∧
      ∀ h, s.find serial = some h →
        ((s.entry h).state ≠ .active → (s.entry h).state ≠ .lost →
          Offered (s.withResult .setProfile hd .busy .nothing) t) ∧
        ((s.entry h).state = .active ∨ (s.entry h).state = .lost →
          let c : Profile := { assured := min 2000 a, peak := min 8000 p, weight := min 15 (max 1 w) }
          let old := max (s.entry h).prof.assured 4 + 16
          let new := max c.assured 4 + 16
          (c.peak < c.assured → Offered (s.withResult .setProfile hd .inconsistent .nothing) t) ∧
          (c.assured ≤ c.peak → old < new → s.ua.floor < s.ua.booked + (new - old) →
            Offered (s.withResult .setProfile hd .overbook .nothing) t) ∧
          (c.assured ≤ c.peak → new ≤ old ∨ s.ua.booked + (new - old) ≤ s.ua.floor →
            Offered { (s.withResult .setProfile hd .ok (.profile c)).setEntry h { s.entry h with profile := some c } with
              ua := { s.ua with booked := s.ua.booked - old + new } } t))

/-- SET_ACCOUNT and REFILL (R157, R158): a serial not on the roster is UNKNOWN_HOME; outside ACTIVE and LOST both are BUSY, and a mode beyond the three is RANGE; otherwise the account takes the values given, or the credit what its range leaves, adjusted moves by the change of credit, saturating, the quota state follows (R146), and all else of the account stands. Where the quota state changes, the alarm condition of the old state ends and that of the new one starts with its alarm, CREDIT_LOW or CREDIT_EXHAUSTED; where it stays the same, no condition ends and no alarm is raised (R147). The repeat marker of a raising that merges is the model's choice (log entry 45). -/
def Obligations.AccountSet : Prop :=
  ∀ (s : State) (hd : RequestHeader) (serial : Serial), s.takes hd →
    (∀ code base low credit, code < 256 → base < 2 ^ 32 → low < 2 ^ 32 → credit < 2 ^ 32 →
      ∃ t, exec (.setAccount hd (writeAccount serial code base low credit)) s = .next t ∧
        (s.find serial = none → Offered (s.withResult .setAccount hd .unknownHome .nothing) t) ∧
        ∀ h e, s.find serial = some h → s.acct h = some e →
          ((s.entry h).state ≠ .active → (s.entry h).state ≠ .lost →
            Offered (s.withResult .setAccount hd .busy .nothing) t) ∧
          ((s.entry h).state = .active ∨ (s.entry h).state = .lost →
            (2 < code → Offered (s.withResult .setAccount hd .range .nothing) t) ∧
            ∀ mode, (code = 0 ∧ mode = .unmetered) ∨ (code = 1 ∧ mode = .oneShot) ∨ (code = 2 ∧ mode = .refill) →
              t.acct h = some { e with
                mode := mode, base := base, lowWater := low, credit := credit, quota := quotaOf mode credit low,
                adjusted := clampInt (-(2 ^ 65)) (2 ^ 65 - 1) (e.adjusted + ((credit : Int) - (e.credit : Int))) } ∧
              CreditFollows s t h e.quota (quotaOf mode credit low) credit low ∧
              t.roster = s.roster ∧ t.ua = s.ua ∧ t.hu = s.hu ∧
              HomeFrame (s.withResult .setAccount hd .ok .nothing) t h ∧ NoEvent s t)) ∧
    ∀ amount, amount < 2 ^ 32 →
      ∃ t, exec (.refill hd (writeRefill serial amount)) s = .next t ∧
        (s.find serial = none → Offered (s.withResult .refill hd .unknownHome .nothing) t) ∧
        ∀ h e, s.find serial = some h → s.acct h = some e →
          ((s.entry h).state ≠ .active → (s.entry h).state ≠ .lost → Offered (s.withResult .refill hd .busy .nothing) t) ∧
          ((s.entry h).state = .active ∨ (s.entry h).state = .lost →
            let x := min amount (4294967295 - e.credit)
            t.acct h = some { e with
              credit := e.credit + x, quota := quotaOf e.mode (e.credit + x) e.lowWater,
              adjusted := clampInt (-(2 ^ 65)) (2 ^ 65 - 1) (e.adjusted + (x : Int)) } ∧
            CreditFollows s t h e.quota (quotaOf e.mode (e.credit + x) e.lowWater) (e.credit + x) e.lowWater ∧
            t.roster = s.roster ∧ t.ua = s.ua ∧ t.hu = s.hu ∧
            HomeFrame (s.withResult .refill hd .ok (.refill x (e.credit + x) (decide (x < amount)))) t h ∧ NoEvent s t)

/-- MOVE (R126), answered in its order; when taken, the entry is LEAVING with an OUT context to the target, the handover timer running, and OFFER queued with the stored profile and E. -/
def Obligations.MoveTaken : Prop :=
  ∀ (s : State) (hd : RequestHeader) (serial : Serial) (target : Nat), s.takes hd → target < 256 →
    ∃ t, exec (.move hd (writeSerialByte serial target)) s = .next t ∧
      (s.draining = true → Offered (s.withResult .move hd .busy .nothing) t) ∧
      (s.draining = false →
        (3 < target → Offered (s.withResult .move hd .range .nothing) t) ∧
        (target ≤ 3 → s.find serial = none → Offered (s.withResult .move hd .unknownHome .nothing) t) ∧
        ∀ h, target ≤ 3 → s.find serial = some h →
          (target = s.channel → Offered (s.withResult .move hd .notHere .nothing) t) ∧
          (target ≠ s.channel → s.hu.role ≠ .noRole → Offered (s.withResult .move hd .huntActive .nothing) t) ∧
          (target ≠ s.channel → s.hu.role = .noRole →
            ((s.entry h).state ≠ .active ∨ (s.entry h).holds ≠ Holds.clear ∨ s.slp.lineState = .detached →
              Offered (s.withResult .move hd .busy .nothing) t) ∧
            ((s.entry h).state = .active → (s.entry h).holds = Holds.clear → s.slp.lineState = .attached →
              Offered (((s.withResult .move hd .ok .nothing).setEntry h { s.entry h with
                state := .leaving,
                handover := some { direction := .outbound, peer := target, timer := some s.img.handoverTime,
                                   newHandle := none, reclaim := none, burstInHand := false, accountInHand := false } }).queueNotice
                  (.offer serial s.channel target (s.entry h).prof.assured (s.entry h).prof.peak (s.entry h).prof.weight
                    ((s.entry h).eqDelay.getD 0))) t)))

/-- REMOVE (R42, R43): UNKNOWN_HOME; BUSY in every state but ACTIVE and LOST; in those the entry closes with a RELEASED record, reason REMOVED, RELEASE posted, HOME_RELEASED raised, and OK. -/
def Obligations.RemoveCloses : Prop :=
  ∀ (s : State) (hd : RequestHeader) (serial : Serial), s.takes hd →
    ∃ t, exec (.remove hd (writeSerial serial)) s = .next t ∧
      (s.find serial = none → Offered (s.withResult .remove hd .unknownHome .nothing) t) ∧
      ∀ h, s.find serial = some h →
        ((s.entry h).state ≠ .active → (s.entry h).state ≠ .lost → Offered (s.withResult .remove hd .busy .nothing) t) ∧
        ((s.entry h).state = .active ∨ (s.entry h).state = .lost →
          Offered (((s.withResult .remove hd .ok .nothing).enterClosing h (.released .removed) true).pushEvent
            (.homeReleased (some serial) h .removed)) t)

/-- HOLD and CLEAR_HOLD (R29, R180): HOLD sets MANAGER and refuses every other hold RANGE; CLEAR_HOLD clears ROGUE or MANAGER and refuses the others; both in any state but FREE, all else of the entry as it was. Which of RANGE and UNKNOWN_HOME answers where both apply is free (log entry 12), and nothing is said of it. -/
def Obligations.HoldsChanged : Prop :=
  ∀ (s : State) (hd : RequestHeader) (serial : Serial) (code : Nat), s.takes hd → code < 256 →
    (∃ t, exec (.hold hd (writeHold serial code true)) s = .next t ∧
      (code = 3 → s.find serial = none → Offered (s.withResult .hold hd .unknownHome .nothing) t) ∧
      ∀ h, s.find serial = some h →
        (code ≠ 3 → Offered (s.withResult .hold hd .range .nothing) t) ∧
        (code = 3 → Offered ((s.withResult .hold hd .ok .nothing).setEntry h
          { s.entry h with holds := { (s.entry h).holds with manager := true } }) t)) ∧
    ∃ t, exec (.clearHold hd (writeHold serial code false)) s = .next t ∧
      (code = 1 ∨ code = 3 → s.find serial = none → Offered (s.withResult .hold hd .unknownHome .nothing) t) ∧
      ∀ h, s.find serial = some h →
        (code ≠ 1 → code ≠ 3 → Offered (s.withResult .hold hd .range .nothing) t) ∧
        (code = 1 → Offered ((s.withResult .hold hd .ok .nothing).setEntry h
          { s.entry h with holds := { (s.entry h).holds with rogue := false } }) t) ∧
        (code = 3 → Offered ((s.withResult .hold hd .ok .nothing).setEntry h
          { s.entry h with holds := { (s.entry h).holds with manager := false } }) t)

/-- QUERY_HOME and LIST_HOMES (R30, R124, R167, R181): the four parts as read at the taking, with an account or without one: of a mailbox the kind and the maps carried, of a handover context the reclaim part as none or QUEUED, of a snapshot its condition, its kind and its span, and no argument, cause or reason beside them; the first five homes not FREE from the handle on, with the handle after the last listed, or 0 where none lies beyond; a handle of 0 is taken as 1, one above 64 is RANGE. -/
def Obligations.QueriesAnswered : Prop :=
  (∀ (E h c : Nat) (x : Serial), (MsgKind.adjust E).bare = .adjust ∧ (MsgKind.assign x h E).bare = .assign ∧
    (MsgKind.tune c h).bare = .tune ∧ MsgKind.release.bare = .release) ∧
  (∀ r, (RecordKind.released r).bare = .released ∧ RecordKind.period.bare = .period ∧
    RecordKind.handoverOut.bare = .handoverOut ∧ RecordKind.restart.bare = .restart) ∧
  ∀ (s : State) (hd : RequestHeader), s.takes hd →
    (∀ (serial : Serial) (part : Nat), part < 256 →
      ∃ t, exec (.queryHome hd (writeSerialByte serial part)) s = .next t ∧
        (part < 4 → s.find serial = none → Offered (s.withResult .queryHome hd .unknownHome .nothing) t) ∧
        ∀ h, s.find serial = some h →
          let e := s.entry h
          (4 ≤ part → Offered (s.withResult .queryHome hd .range .nothing) t) ∧
          (part = 0 → Offered (s.withResult .queryHome hd .ok (.queryEntry
            { handle := h, state := e.state, holds := e.holds, roundTrip := e.roundTrip, eqDelay := e.eqDelay,
              profile := e.profile, reportQ := e.reportQ, idle := e.idle, missed := e.missed, losses := e.losses,
              misplaced := e.misplaced, duplicates := e.duplicates, rangeAttempts := e.rangeAttempts,
              recontact := e.recontact, lostTimer := e.lostTimer, lastOffset := (s.drift h).lastOffset,
              mailbox := e.mailbox.map fun m => (m.kind.bare, m.carried) })) t) ∧
          (part = 1 → Offered (s.withResult .queryHome hd .ok
            (.queryAccount
              (e.handover.map fun c =>
                { direction := c.direction, peer := c.peer, newHandle := c.newHandle, remaining := c.timer,
                  reclaimQueued := c.reclaim.isSome, burstInHand := c.burstInHand, accountInHand := c.accountInHand })
              (accountCondition e.state (s.acct h))
              ((s.acct h).map fun a =>
                { mode := a.mode, quota := a.quota, credit := a.credit, base := a.base, lowWater := a.lowWater,
                  residueUp := a.residueUp, residueDown := a.residueDown, snapshot := s.snapshotCondition h,
                  snapshotSpan := a.snapshot.map fun x => (x.kind.bare, x.firstPeriod, x.lastPeriod) }))) t) ∧
          (part = 2 → Offered (s.withResult .queryHome hd .ok (.queryBytes
            ((s.acct h).map fun a => (a.counters.upCharged, a.counters.downCharged, a.counters.upFree, a.counters.downFree)))) t) ∧
          (part = 3 → Offered (s.withResult .queryHome hd .ok (.queryMillis
            ((s.acct h).map fun a => (a.counters.charged, a.counters.overdraw, a.creditOpen, a.adjusted, a.periodFirst)))) t)) ∧
    ∀ start, start < 256 →
      ∃ t, exec (.listHomes hd (writeByte start)) s = .next t ∧
        (64 < start → Offered (s.withResult .listHomes hd .range .nothing) t) ∧
        (start ≤ 64 →
          let hs := handles.filter fun h => max 1 start ≤ h ∧ (s.entry h).state ≠ .free
          Offered (s.withResult .listHomes hd .ok (.homes
            ((hs.take 5).map fun h => ((s.entry h).serial, (s.entry h).state))
            (if hs.length ≤ 5 then 0 else (hs.take 5).getLastD 0 + 1))) t)

/-- SET_TARIFF, FIX_TARIFF and BAND (R149 to R151): RANGE beyond band 7, LOCKED under the guard (enabled, pin low) and for the prices of a fixed band; otherwise the band takes the prices, or is fixed; BAND puts a band of 0 to 7 in force and ignores any other. -/
def Obligations.TariffSet : Prop :=
  ∀ (s : State) (hd : RequestHeader) (b : Nat), b < 256 →
    (s.takes hd → ∀ (up down : Nat) (pin : Bool), up < 65536 → down < 65536 →
      (∃ t, exec (.setTariff hd (writeTariff b up down) pin) s = .next t ∧
        (7 < b → Offered (s.withResult .setTariff hd .range .nothing) t) ∧
        (b ≤ 7 → (s.img.tariffGuard = true ∧ pin = false) ∨ (s.bandAt b).fixed = true →
          Offered (s.withResult .setTariff hd .locked .nothing) t) ∧
        (b ≤ 7 → s.img.tariffGuard = false ∨ pin = true → (s.bandAt b).fixed = false →
          Offered { s.withResult .setTariff hd .ok .nothing with
            um := { s.um with tariff := s.um.tariff.setIfInBounds b { priceUp := up, priceDown := down, fixed := false } } } t)) ∧
      ∃ t, exec (.fixTariff hd (writeByte b) pin) s = .next t ∧
        (7 < b → Offered (s.withResult .fixTariff hd .range .nothing) t) ∧
        (b ≤ 7 → s.img.tariffGuard = true → pin = false → Offered (s.withResult .fixTariff hd .locked .nothing) t) ∧
        (b ≤ 7 → s.img.tariffGuard = false ∨ pin = true →
          Offered { s.withResult .fixTariff hd .ok .nothing with
            um := { s.um with tariff := s.um.tariff.setIfInBounds b { s.bandAt b with fixed := true } } } t)) ∧
    (s.takesBroadcast hd → ∃ t, exec (.band hd (writeByte b)) s = .next t ∧
      (7 < b → Offered s.lineHeard t) ∧
      (b ≤ 7 → Offered { s.lineHeard with um := { s.um with band := b } } t))

/-- CLOSE_PERIOD and SET_FREE_LABELS (R148, R161): a period below the period number, or 4,294,967,295, is ignored; otherwise every open account closes with it, every other account stands, every band is unfixed and the period number is p + 1. SET_FREE_LABELS replaces the whole table, the places it does not fill inactive; the places of the flag bits in its data are the model's presumption (log entry 11). -/
def Obligations.PeriodCloses : Prop :=
  ∀ (s : State) (hd : RequestHeader), s.takesBroadcast hd →
    (∀ p, p < 2 ^ 32 → ∃ t, exec (.closePeriod hd (writePeriod p)) s = .next t ∧
      (p < s.um.period ∨ p = 4294967295 → Offered s.lineHeard t) ∧
      (s.um.period ≤ p → p < 4294967295 →
        (∀ h a, s.acct h = some a →
          ((s.entry h).state = .active ∨ (s.entry h).state = .leaving ∨ (s.entry h).state = .tuning ∨
              (s.entry h).state = .lost → t.acct h = some (a.closePeriod p)) ∧
          ((s.entry h).state ≠ .active → (s.entry h).state ≠ .leaving → (s.entry h).state ≠ .tuning →
              (s.entry h).state ≠ .lost → t.acct h = some a)) ∧
        (∀ h, s.acct h = none → t.acct h = none) ∧
        (∀ b, t.bandAt b = { s.bandAt b with fixed := false }) ∧ t.um.period = p + 1 ∧ t.um.band = s.um.band ∧
        t.um.freeLabels = s.um.freeLabels ∧ t.roster = s.roster ∧ t.ua = s.ua ∧ t.hu = s.hu ∧ t.cb = s.cb ∧
        t.lw = s.lw ∧ t.il = s.il ∧ t.rq.results = s.rq.results ∧ NoEvent s t)) ∧
    ∀ fs : List FreeLabel, fs.length ≤ 8 → (∀ f ∈ fs, f.lo < 4096 ∧ f.hi < 4096) →
      ∃ t v, exec (.setFreeLabels hd (fs.flatMap writeFreeLabel)) s = .next t ∧
        Offered { s.lineHeard with um := { s.um with freeLabels := v } } t ∧
        ∀ i : Fin 8, v[i] = (fs[i.val]?).getD FreeLabel.empty

/-- SET_DISCOVERY, START_HUNT and RESTART (R47, R107, R109, R180): the flag set, or RANGE where P_disc is 0, or cleared; BUSY, HUNT_ACTIVE, OK for a standing offer, or HUNT_OPEN queued with this station's number and the next count; OK, or BUSY in DRAINING and behind an earlier RESTART's OK; that only an OK result makes it BUSY is the model's choice (log entry 44). -/
def Obligations.SwitchesAnswered : Prop :=
  ∀ (s : State) (hd : RequestHeader), s.takes hd →
    (∃ t, exec (.setDiscovery hd (writeByte 1)) s = .next t ∧
      (s.img.pDisc = 0 → Offered (s.withResult .setDiscovery hd .range .nothing) t) ∧
      (s.img.pDisc ≠ 0 → Offered { s.withResult .setDiscovery hd .ok .nothing with
        ee := { s.ee with discoveryEnable := true } } t)) ∧
    (∃ t, exec (.setDiscovery hd (writeByte 0)) s = .next t ∧
      Offered { s.withResult .setDiscovery hd .ok .nothing with ee := { s.ee with discoveryEnable := false } } t) ∧
    (∃ t, exec (.startHunt hd []) s = .next t ∧
      (s.il.startup = .draining ∨ s.il.startup = .listening → Offered (s.withResult .startHunt hd .busy .nothing) t) ∧
      (s.il.startup = .operating → s.hu.flag.isSome = true →
        Offered (s.withResult .startHunt hd .huntActive .nothing) t) ∧
      (s.il.startup = .operating → s.hu.flag = none → s.hu.opening = true →
        Offered (s.withResult .startHunt hd .ok .nothing) t) ∧
      (s.il.startup = .operating → s.hu.flag = none → s.hu.opening = false → s.hu.role = .noRole →
        Offered ({ s.withResult .startHunt hd .ok .nothing with
          hu := { s.hu with opening := true, openCount := s.hu.openCount + 1 } }.queueNotice
            (.huntOpen { station := s.slp.station, count := s.hu.openCount })) t)) ∧
    ∃ t, exec (.restart hd []) s = .next t ∧
      (s.il.startup = .draining ∨ (∃ r ∈ s.rq.results, r.kind = .restart ∧ r.code = .ok) →
        Offered (s.withResult .restart hd .busy .nothing) t) ∧
      (s.il.startup ≠ .draining → (∀ r ∈ s.rq.results, r.kind = .restart → r.code ≠ .ok) →
        Offered (s.withResult .restart hd .ok .nothing) t)
end

