-- ==== Sys2Proof/Laws/Tables.lean ====
section
/-! SUPPORT. Reading a table after writing it: the tables of 64 places, and the entry, account and drift data they hold. -/

namespace Sys2Proof.Machine

theorem tableGet_outside {α : Type} (v : Vector α 64) (d : α) (h : Nat) (ho : ¬(1 ≤ h ∧ h ≤ 64)) : tableGet v d h = d := by
  unfold tableGet
  split
  · rfl
  · rw [Vector.getElem?_eq_none (by omega)]; rfl

theorem tableGet_inside {α : Type} (v : Vector α 64) (d : α) (h : Nat) (ho : 1 ≤ h ∧ h ≤ 64) :
    tableGet v d h = v[h - 1]'(by omega) := by
  unfold tableGet
  rw [if_neg (by omega), Vector.getElem?_eq_getElem (by omega)]
  rfl

theorem tableGet_tableSet {α : Type} (v : Vector α 64) (d x : α) (h k : Nat) :
    tableGet (tableSet v h x) d k = if k = h ∧ 1 ≤ h ∧ h ≤ 64 then x else tableGet v d k := by
  by_cases h0 : h = 0
  · have e : tableSet v h x = v := by simp only [tableSet, h0, if_true]
    rw [e, if_neg (by omega)]
  · have e : tableSet v h x = v.setIfInBounds (h - 1) x := by simp only [tableSet, h0, if_false]
    rw [e]
    by_cases ho : 1 ≤ k ∧ k ≤ 64
    · rw [tableGet_inside _ _ _ ho, tableGet_inside _ _ _ ho, Vector.getElem_setIfInBounds]
      by_cases hk : k = h
      · rw [if_pos (by omega), if_pos (by omega)]
      · rw [if_neg (by omega), if_neg (by omega)]
    · rw [tableGet_outside _ _ _ ho, tableGet_outside _ _ _ ho, if_neg (by omega)]

theorem tableGet_tableMap {α : Type} (f : Nat → α → α) (v : Vector α 64) (d : α) (k : Nat) :
    tableGet (tableMap f v) d k = if 1 ≤ k ∧ k ≤ 64 then f k (tableGet v d k) else d := by
  by_cases ho : 1 ≤ k ∧ k ≤ 64
  · rw [tableGet_inside _ _ _ ho, if_pos ho, tableGet_inside _ _ _ ho]
    unfold tableMap
    rw [Vector.getElem_ofFn]
    have hk : k - 1 + 1 = k := by omega
    simp only [hk]
    rfl
  · rw [tableGet_outside _ _ _ ho, if_neg ho]

/-- `handles` holds 1 to 64. -/
theorem mem_handles (h : Nat) : h ∈ handles ↔ 1 ≤ h ∧ h ≤ 64 := by
  unfold handles
  rw [List.mem_range'_1]
  omega

theorem entry_setEntry (s : State) (h k : Nat) (e : Entry) :
    (s.setEntry h e).entry k = if k = h ∧ 1 ≤ h ∧ h ≤ 64 then e else s.entry k := tableGet_tableSet ..

theorem acct_setAcct (s : State) (h k : Nat) (a : Option Account) :
    (s.setAcct h a).acct k = if k = h ∧ 1 ≤ h ∧ h ≤ 64 then a else s.acct k := tableGet_tableSet ..

theorem drift_setDrift (s : State) (h k : Nat) (d : Drift) :
    (s.setDrift h d).drift k = if k = h ∧ 1 ≤ h ∧ h ≤ 64 then d else s.drift k := tableGet_tableSet ..

/-- An entry that is not FREE stands at a handle of the roster. -/
theorem handle_of_state (s : State) (h : Nat) (hs : (s.entry h).state ≠ .free) : 1 ≤ h ∧ h ≤ 64 := by
  by_contra ho
  exact hs (by unfold State.entry; rw [tableGet_outside _ _ _ ho]; rfl)

/-- A handle that `find` answers holds the serial, and is not FREE (R22). -/
theorem find_sound (s : State) (serial : Serial) (h : Nat) (hf : s.find serial = some h) :
    (s.entry h).state ≠ .free ∧ (s.entry h).serial = some serial ∧ 1 ≤ h ∧ h ≤ 64 := by
  unfold State.find at hf
  have h1 := List.find?_some hf
  simp only [decide_eq_true_eq] at h1
  exact ⟨h1.1, h1.2, handle_of_state s h h1.1⟩

end Sys2Proof.Machine
end

