-- ==== Sys2Proof/Laws/State.lean ====
section
/-! SUPPORT. One lemma for each field that a named update of the state leaves alone, so that no later proof unfolds a record update. -/

namespace Sys2Proof.Machine

/-! ### setEntry -/

@[simp] theorem setEntry_cb (s : State) (h : Nat) (e : Entry) : (s.setEntry h e).cb = s.cb := rfl
@[simp] theorem setEntry_ee (s : State) (h : Nat) (e : Entry) : (s.setEntry h e).ee = s.ee := rfl
@[simp] theorem setEntry_ua (s : State) (h : Nat) (e : Entry) : (s.setEntry h e).ua = s.ua := rfl
@[simp] theorem setEntry_lw (s : State) (h : Nat) (e : Entry) : (s.setEntry h e).lw = s.lw := rfl
@[simp] theorem setEntry_hu (s : State) (h : Nat) (e : Entry) : (s.setEntry h e).hu = s.hu := rfl
@[simp] theorem setEntry_um (s : State) (h : Nat) (e : Entry) : (s.setEntry h e).um = s.um := rfl
@[simp] theorem setEntry_slp (s : State) (h : Nat) (e : Entry) : (s.setEntry h e).slp = s.slp := rfl
@[simp] theorem setEntry_rq (s : State) (h : Nat) (e : Entry) : (s.setEntry h e).rq = s.rq := rfl
@[simp] theorem setEntry_il (s : State) (h : Nat) (e : Entry) : (s.setEntry h e).il = s.il := rfl
@[simp] theorem setEntry_ports (s : State) (h : Nat) (e : Entry) : (s.setEntry h e).ports = s.ports := rfl
@[simp] theorem setEntry_resetHeld (s : State) (h : Nat) (e : Entry) : (s.setEntry h e).resetHeld = s.resetHeld := rfl
@[simp] theorem setEntry_choices (s : State) (h : Nat) (e : Entry) : (s.setEntry h e).choices = s.choices := rfl
@[simp] theorem setEntry_pending (s : State) (h : Nat) (e : Entry) : (s.setEntry h e).pending = s.pending := rfl

/-! ### setAcct -/

@[simp] theorem setAcct_cb (s : State) (h : Nat) (a : Option Account) : (s.setAcct h a).cb = s.cb := rfl
@[simp] theorem setAcct_roster (s : State) (h : Nat) (a : Option Account) : (s.setAcct h a).roster = s.roster := rfl
@[simp] theorem setAcct_ee (s : State) (h : Nat) (a : Option Account) : (s.setAcct h a).ee = s.ee := rfl
@[simp] theorem setAcct_ua (s : State) (h : Nat) (a : Option Account) : (s.setAcct h a).ua = s.ua := rfl
@[simp] theorem setAcct_lw (s : State) (h : Nat) (a : Option Account) : (s.setAcct h a).lw = s.lw := rfl
@[simp] theorem setAcct_hu (s : State) (h : Nat) (a : Option Account) : (s.setAcct h a).hu = s.hu := rfl
@[simp] theorem setAcct_slp (s : State) (h : Nat) (a : Option Account) : (s.setAcct h a).slp = s.slp := rfl
@[simp] theorem setAcct_rq (s : State) (h : Nat) (a : Option Account) : (s.setAcct h a).rq = s.rq := rfl
@[simp] theorem setAcct_il (s : State) (h : Nat) (a : Option Account) : (s.setAcct h a).il = s.il := rfl
@[simp] theorem setAcct_ports (s : State) (h : Nat) (a : Option Account) : (s.setAcct h a).ports = s.ports := rfl
@[simp] theorem setAcct_resetHeld (s : State) (h : Nat) (a : Option Account) : (s.setAcct h a).resetHeld = s.resetHeld := rfl
@[simp] theorem setAcct_choices (s : State) (h : Nat) (a : Option Account) : (s.setAcct h a).choices = s.choices := rfl
@[simp] theorem setAcct_pending (s : State) (h : Nat) (a : Option Account) : (s.setAcct h a).pending = s.pending := rfl

/-! ### setDrift -/

@[simp] theorem setDrift_cb (s : State) (h : Nat) (d : Drift) : (s.setDrift h d).cb = s.cb := rfl
@[simp] theorem setDrift_roster (s : State) (h : Nat) (d : Drift) : (s.setDrift h d).roster = s.roster := rfl
@[simp] theorem setDrift_ee (s : State) (h : Nat) (d : Drift) : (s.setDrift h d).ee = s.ee := rfl
@[simp] theorem setDrift_ua (s : State) (h : Nat) (d : Drift) : (s.setDrift h d).ua = s.ua := rfl
@[simp] theorem setDrift_hu (s : State) (h : Nat) (d : Drift) : (s.setDrift h d).hu = s.hu := rfl
@[simp] theorem setDrift_um (s : State) (h : Nat) (d : Drift) : (s.setDrift h d).um = s.um := rfl
@[simp] theorem setDrift_slp (s : State) (h : Nat) (d : Drift) : (s.setDrift h d).slp = s.slp := rfl
@[simp] theorem setDrift_rq (s : State) (h : Nat) (d : Drift) : (s.setDrift h d).rq = s.rq := rfl
@[simp] theorem setDrift_il (s : State) (h : Nat) (d : Drift) : (s.setDrift h d).il = s.il := rfl
@[simp] theorem setDrift_ports (s : State) (h : Nat) (d : Drift) : (s.setDrift h d).ports = s.ports := rfl
@[simp] theorem setDrift_resetHeld (s : State) (h : Nat) (d : Drift) : (s.setDrift h d).resetHeld = s.resetHeld := rfl
@[simp] theorem setDrift_choices (s : State) (h : Nat) (d : Drift) : (s.setDrift h d).choices = s.choices := rfl
@[simp] theorem setDrift_pending (s : State) (h : Nat) (d : Drift) : (s.setDrift h d).pending = s.pending := rfl

/-! ### setPhase -/

@[simp] theorem setPhase_cb (s : State) (h : Nat) (p : Phase) : (s.setPhase h p).cb = s.cb := rfl
@[simp] theorem setPhase_roster (s : State) (h : Nat) (p : Phase) : (s.setPhase h p).roster = s.roster := rfl
@[simp] theorem setPhase_ee (s : State) (h : Nat) (p : Phase) : (s.setPhase h p).ee = s.ee := rfl
@[simp] theorem setPhase_ua (s : State) (h : Nat) (p : Phase) : (s.setPhase h p).ua = s.ua := rfl
@[simp] theorem setPhase_hu (s : State) (h : Nat) (p : Phase) : (s.setPhase h p).hu = s.hu := rfl
@[simp] theorem setPhase_um (s : State) (h : Nat) (p : Phase) : (s.setPhase h p).um = s.um := rfl
@[simp] theorem setPhase_slp (s : State) (h : Nat) (p : Phase) : (s.setPhase h p).slp = s.slp := rfl
@[simp] theorem setPhase_rq (s : State) (h : Nat) (p : Phase) : (s.setPhase h p).rq = s.rq := rfl
@[simp] theorem setPhase_il (s : State) (h : Nat) (p : Phase) : (s.setPhase h p).il = s.il := rfl
@[simp] theorem setPhase_ports (s : State) (h : Nat) (p : Phase) : (s.setPhase h p).ports = s.ports := rfl
@[simp] theorem setPhase_resetHeld (s : State) (h : Nat) (p : Phase) : (s.setPhase h p).resetHeld = s.resetHeld := rfl
@[simp] theorem setPhase_choices (s : State) (h : Nat) (p : Phase) : (s.setPhase h p).choices = s.choices := rfl
@[simp] theorem setPhase_pending (s : State) (h : Nat) (p : Phase) : (s.setPhase h p).pending = s.pending := rfl

/-! ### queueNotice -/

@[simp] theorem queueNotice_cb (s : State) (n : Notice) : (s.queueNotice n).cb = s.cb := rfl
@[simp] theorem queueNotice_roster (s : State) (n : Notice) : (s.queueNotice n).roster = s.roster := rfl
@[simp] theorem queueNotice_ee (s : State) (n : Notice) : (s.queueNotice n).ee = s.ee := rfl
@[simp] theorem queueNotice_ua (s : State) (n : Notice) : (s.queueNotice n).ua = s.ua := rfl
@[simp] theorem queueNotice_lw (s : State) (n : Notice) : (s.queueNotice n).lw = s.lw := rfl
@[simp] theorem queueNotice_hu (s : State) (n : Notice) : (s.queueNotice n).hu = s.hu := rfl
@[simp] theorem queueNotice_um (s : State) (n : Notice) : (s.queueNotice n).um = s.um := rfl
@[simp] theorem queueNotice_rq (s : State) (n : Notice) : (s.queueNotice n).rq = s.rq := rfl
@[simp] theorem queueNotice_il (s : State) (n : Notice) : (s.queueNotice n).il = s.il := rfl
@[simp] theorem queueNotice_ports (s : State) (n : Notice) : (s.queueNotice n).ports = s.ports := rfl
@[simp] theorem queueNotice_resetHeld (s : State) (n : Notice) : (s.queueNotice n).resetHeld = s.resetHeld := rfl
@[simp] theorem queueNotice_choices (s : State) (n : Notice) : (s.queueNotice n).choices = s.choices := rfl
@[simp] theorem queueNotice_pending (s : State) (n : Notice) : (s.queueNotice n).pending = s.pending := rfl

/-! ### withdraw -/

@[simp] theorem withdraw_cb (s : State) (test : Notice → Bool) : (s.withdraw test).cb = s.cb := rfl
@[simp] theorem withdraw_roster (s : State) (test : Notice → Bool) : (s.withdraw test).roster = s.roster := rfl
@[simp] theorem withdraw_ee (s : State) (test : Notice → Bool) : (s.withdraw test).ee = s.ee := rfl
@[simp] theorem withdraw_ua (s : State) (test : Notice → Bool) : (s.withdraw test).ua = s.ua := rfl
@[simp] theorem withdraw_lw (s : State) (test : Notice → Bool) : (s.withdraw test).lw = s.lw := rfl
@[simp] theorem withdraw_hu (s : State) (test : Notice → Bool) : (s.withdraw test).hu = s.hu := rfl
@[simp] theorem withdraw_um (s : State) (test : Notice → Bool) : (s.withdraw test).um = s.um := rfl
@[simp] theorem withdraw_rq (s : State) (test : Notice → Bool) : (s.withdraw test).rq = s.rq := rfl
@[simp] theorem withdraw_il (s : State) (test : Notice → Bool) : (s.withdraw test).il = s.il := rfl
@[simp] theorem withdraw_ports (s : State) (test : Notice → Bool) : (s.withdraw test).ports = s.ports := rfl
@[simp] theorem withdraw_resetHeld (s : State) (test : Notice → Bool) : (s.withdraw test).resetHeld = s.resetHeld := rfl
@[simp] theorem withdraw_choices (s : State) (test : Notice → Bool) : (s.withdraw test).choices = s.choices := rfl
@[simp] theorem withdraw_pending (s : State) (test : Notice → Bool) : (s.withdraw test).pending = s.pending := rfl

/-! ### endCondition -/

@[simp] theorem endCondition_cb (s : State) (a : AlarmSource) : (s.endCondition a).cb = s.cb := rfl
@[simp] theorem endCondition_roster (s : State) (a : AlarmSource) : (s.endCondition a).roster = s.roster := rfl
@[simp] theorem endCondition_ee (s : State) (a : AlarmSource) : (s.endCondition a).ee = s.ee := rfl
@[simp] theorem endCondition_ua (s : State) (a : AlarmSource) : (s.endCondition a).ua = s.ua := rfl
@[simp] theorem endCondition_lw (s : State) (a : AlarmSource) : (s.endCondition a).lw = s.lw := rfl
@[simp] theorem endCondition_hu (s : State) (a : AlarmSource) : (s.endCondition a).hu = s.hu := rfl
@[simp] theorem endCondition_um (s : State) (a : AlarmSource) : (s.endCondition a).um = s.um := rfl
@[simp] theorem endCondition_slp (s : State) (a : AlarmSource) : (s.endCondition a).slp = s.slp := rfl
@[simp] theorem endCondition_il (s : State) (a : AlarmSource) : (s.endCondition a).il = s.il := rfl
@[simp] theorem endCondition_ports (s : State) (a : AlarmSource) : (s.endCondition a).ports = s.ports := rfl
@[simp] theorem endCondition_resetHeld (s : State) (a : AlarmSource) : (s.endCondition a).resetHeld = s.resetHeld := rfl
@[simp] theorem endCondition_choices (s : State) (a : AlarmSource) : (s.endCondition a).choices = s.choices := rfl
@[simp] theorem endCondition_pending (s : State) (a : AlarmSource) : (s.endCondition a).pending = s.pending := rfl

/-! ### startRepeat -/

@[simp] theorem startRepeat_cb (s : State) (a : AlarmSource) (c : AlarmContent) : (s.startRepeat a c).cb = s.cb := rfl
@[simp] theorem startRepeat_roster (s : State) (a : AlarmSource) (c : AlarmContent) : (s.startRepeat a c).roster = s.roster := rfl
@[simp] theorem startRepeat_ee (s : State) (a : AlarmSource) (c : AlarmContent) : (s.startRepeat a c).ee = s.ee := rfl
@[simp] theorem startRepeat_ua (s : State) (a : AlarmSource) (c : AlarmContent) : (s.startRepeat a c).ua = s.ua := rfl
@[simp] theorem startRepeat_lw (s : State) (a : AlarmSource) (c : AlarmContent) : (s.startRepeat a c).lw = s.lw := rfl
@[simp] theorem startRepeat_hu (s : State) (a : AlarmSource) (c : AlarmContent) : (s.startRepeat a c).hu = s.hu := rfl
@[simp] theorem startRepeat_um (s : State) (a : AlarmSource) (c : AlarmContent) : (s.startRepeat a c).um = s.um := rfl
@[simp] theorem startRepeat_slp (s : State) (a : AlarmSource) (c : AlarmContent) : (s.startRepeat a c).slp = s.slp := rfl
@[simp] theorem startRepeat_il (s : State) (a : AlarmSource) (c : AlarmContent) : (s.startRepeat a c).il = s.il := rfl
@[simp] theorem startRepeat_ports (s : State) (a : AlarmSource) (c : AlarmContent) : (s.startRepeat a c).ports = s.ports := rfl
@[simp] theorem startRepeat_resetHeld (s : State) (a : AlarmSource) (c : AlarmContent) : (s.startRepeat a c).resetHeld = s.resetHeld := rfl
@[simp] theorem startRepeat_choices (s : State) (a : AlarmSource) (c : AlarmContent) : (s.startRepeat a c).choices = s.choices := rfl
@[simp] theorem startRepeat_pending (s : State) (a : AlarmSource) (c : AlarmContent) : (s.startRepeat a c).pending = s.pending := rfl

/-! ### endCredit -/

@[simp] theorem endCredit_cb (s : State) (h : Nat) : (s.endCredit h).cb = s.cb := rfl
@[simp] theorem endCredit_roster (s : State) (h : Nat) : (s.endCredit h).roster = s.roster := rfl
@[simp] theorem endCredit_ee (s : State) (h : Nat) : (s.endCredit h).ee = s.ee := rfl
@[simp] theorem endCredit_ua (s : State) (h : Nat) : (s.endCredit h).ua = s.ua := rfl
@[simp] theorem endCredit_lw (s : State) (h : Nat) : (s.endCredit h).lw = s.lw := rfl
@[simp] theorem endCredit_hu (s : State) (h : Nat) : (s.endCredit h).hu = s.hu := rfl
@[simp] theorem endCredit_um (s : State) (h : Nat) : (s.endCredit h).um = s.um := rfl
@[simp] theorem endCredit_slp (s : State) (h : Nat) : (s.endCredit h).slp = s.slp := rfl
@[simp] theorem endCredit_il (s : State) (h : Nat) : (s.endCredit h).il = s.il := rfl
@[simp] theorem endCredit_ports (s : State) (h : Nat) : (s.endCredit h).ports = s.ports := rfl
@[simp] theorem endCredit_resetHeld (s : State) (h : Nat) : (s.endCredit h).resetHeld = s.resetHeld := rfl
@[simp] theorem endCredit_choices (s : State) (h : Nat) : (s.endCredit h).choices = s.choices := rfl
@[simp] theorem endCredit_pending (s : State) (h : Nat) : (s.endCredit h).pending = s.pending := rfl

/-! ### endConditions -/

@[simp] theorem endConditions_cb (s : State) (h : Nat) : (s.endConditions h).cb = s.cb := by unfold State.endConditions; simp
@[simp] theorem endConditions_roster (s : State) (h : Nat) : (s.endConditions h).roster = s.roster := by unfold State.endConditions; simp
@[simp] theorem endConditions_ee (s : State) (h : Nat) : (s.endConditions h).ee = s.ee := by unfold State.endConditions; simp
@[simp] theorem endConditions_ua (s : State) (h : Nat) : (s.endConditions h).ua = s.ua := by unfold State.endConditions; simp
@[simp] theorem endConditions_lw (s : State) (h : Nat) : (s.endConditions h).lw = s.lw := by unfold State.endConditions; simp
@[simp] theorem endConditions_hu (s : State) (h : Nat) : (s.endConditions h).hu = s.hu := by unfold State.endConditions; simp
@[simp] theorem endConditions_um (s : State) (h : Nat) : (s.endConditions h).um = s.um := by unfold State.endConditions; simp
@[simp] theorem endConditions_slp (s : State) (h : Nat) : (s.endConditions h).slp = s.slp := by unfold State.endConditions; simp
@[simp] theorem endConditions_il (s : State) (h : Nat) : (s.endConditions h).il = s.il := by unfold State.endConditions; simp
@[simp] theorem endConditions_ports (s : State) (h : Nat) : (s.endConditions h).ports = s.ports := by unfold State.endConditions; simp
@[simp] theorem endConditions_resetHeld (s : State) (h : Nat) : (s.endConditions h).resetHeld = s.resetHeld := by unfold State.endConditions; simp
@[simp] theorem endConditions_choices (s : State) (h : Nat) : (s.endConditions h).choices = s.choices := by unfold State.endConditions; simp
@[simp] theorem endConditions_pending (s : State) (h : Nat) : (s.endConditions h).pending = s.pending := by unfold State.endConditions; simp

/-! ### unbook -/

@[simp] theorem unbook_cb (s : State) (h : Nat) : (s.unbook h).cb = s.cb := rfl
@[simp] theorem unbook_roster (s : State) (h : Nat) : (s.unbook h).roster = s.roster := rfl
@[simp] theorem unbook_ee (s : State) (h : Nat) : (s.unbook h).ee = s.ee := rfl
@[simp] theorem unbook_lw (s : State) (h : Nat) : (s.unbook h).lw = s.lw := rfl
@[simp] theorem unbook_hu (s : State) (h : Nat) : (s.unbook h).hu = s.hu := rfl
@[simp] theorem unbook_um (s : State) (h : Nat) : (s.unbook h).um = s.um := rfl
@[simp] theorem unbook_slp (s : State) (h : Nat) : (s.unbook h).slp = s.slp := rfl
@[simp] theorem unbook_rq (s : State) (h : Nat) : (s.unbook h).rq = s.rq := rfl
@[simp] theorem unbook_il (s : State) (h : Nat) : (s.unbook h).il = s.il := rfl
@[simp] theorem unbook_ports (s : State) (h : Nat) : (s.unbook h).ports = s.ports := rfl
@[simp] theorem unbook_resetHeld (s : State) (h : Nat) : (s.unbook h).resetHeld = s.resetHeld := rfl
@[simp] theorem unbook_choices (s : State) (h : Nat) : (s.unbook h).choices = s.choices := rfl
@[simp] theorem unbook_pending (s : State) (h : Nat) : (s.unbook h).pending = s.pending := rfl

/-! ### markDead -/

@[simp] theorem markDead_cb (s : State) (h : Nat) : (s.markDead h).cb = s.cb := rfl
@[simp] theorem markDead_roster (s : State) (h : Nat) : (s.markDead h).roster = s.roster := rfl
@[simp] theorem markDead_ee (s : State) (h : Nat) : (s.markDead h).ee = s.ee := rfl
@[simp] theorem markDead_ua (s : State) (h : Nat) : (s.markDead h).ua = s.ua := rfl
@[simp] theorem markDead_lw (s : State) (h : Nat) : (s.markDead h).lw = s.lw := rfl
@[simp] theorem markDead_um (s : State) (h : Nat) : (s.markDead h).um = s.um := rfl
@[simp] theorem markDead_slp (s : State) (h : Nat) : (s.markDead h).slp = s.slp := rfl
@[simp] theorem markDead_rq (s : State) (h : Nat) : (s.markDead h).rq = s.rq := rfl
@[simp] theorem markDead_il (s : State) (h : Nat) : (s.markDead h).il = s.il := rfl
@[simp] theorem markDead_ports (s : State) (h : Nat) : (s.markDead h).ports = s.ports := rfl
@[simp] theorem markDead_resetHeld (s : State) (h : Nat) : (s.markDead h).resetHeld = s.resetHeld := rfl
@[simp] theorem markDead_choices (s : State) (h : Nat) : (s.markDead h).choices = s.choices := rfl
@[simp] theorem markDead_pending (s : State) (h : Nat) : (s.markDead h).pending = s.pending := rfl

/-! ### post -/

@[simp] theorem post_cb (s : State) (h : Nat) (m : MsgKind) : (s.post h m).cb = s.cb := rfl
@[simp] theorem post_ee (s : State) (h : Nat) (m : MsgKind) : (s.post h m).ee = s.ee := rfl
@[simp] theorem post_ua (s : State) (h : Nat) (m : MsgKind) : (s.post h m).ua = s.ua := rfl
@[simp] theorem post_lw (s : State) (h : Nat) (m : MsgKind) : (s.post h m).lw = s.lw := rfl
@[simp] theorem post_hu (s : State) (h : Nat) (m : MsgKind) : (s.post h m).hu = s.hu := rfl
@[simp] theorem post_um (s : State) (h : Nat) (m : MsgKind) : (s.post h m).um = s.um := rfl
@[simp] theorem post_slp (s : State) (h : Nat) (m : MsgKind) : (s.post h m).slp = s.slp := rfl
@[simp] theorem post_rq (s : State) (h : Nat) (m : MsgKind) : (s.post h m).rq = s.rq := rfl
@[simp] theorem post_il (s : State) (h : Nat) (m : MsgKind) : (s.post h m).il = s.il := rfl
@[simp] theorem post_ports (s : State) (h : Nat) (m : MsgKind) : (s.post h m).ports = s.ports := rfl
@[simp] theorem post_resetHeld (s : State) (h : Nat) (m : MsgKind) : (s.post h m).resetHeld = s.resetHeld := rfl
@[simp] theorem post_choices (s : State) (h : Nat) (m : MsgKind) : (s.post h m).choices = s.choices := rfl
@[simp] theorem post_pending (s : State) (h : Nat) (m : MsgKind) : (s.post h m).pending = s.pending := rfl

/-! ### takeEntry -/

@[simp] theorem takeEntry_cb (s : State) (h : Nat) (e : Entry) : (s.takeEntry h e).cb = s.cb := rfl
@[simp] theorem takeEntry_ee (s : State) (h : Nat) (e : Entry) : (s.takeEntry h e).ee = s.ee := rfl
@[simp] theorem takeEntry_lw (s : State) (h : Nat) (e : Entry) : (s.takeEntry h e).lw = s.lw := rfl
@[simp] theorem takeEntry_hu (s : State) (h : Nat) (e : Entry) : (s.takeEntry h e).hu = s.hu := rfl
@[simp] theorem takeEntry_um (s : State) (h : Nat) (e : Entry) : (s.takeEntry h e).um = s.um := rfl
@[simp] theorem takeEntry_slp (s : State) (h : Nat) (e : Entry) : (s.takeEntry h e).slp = s.slp := rfl
@[simp] theorem takeEntry_rq (s : State) (h : Nat) (e : Entry) : (s.takeEntry h e).rq = s.rq := rfl
@[simp] theorem takeEntry_il (s : State) (h : Nat) (e : Entry) : (s.takeEntry h e).il = s.il := rfl
@[simp] theorem takeEntry_ports (s : State) (h : Nat) (e : Entry) : (s.takeEntry h e).ports = s.ports := rfl
@[simp] theorem takeEntry_resetHeld (s : State) (h : Nat) (e : Entry) : (s.takeEntry h e).resetHeld = s.resetHeld := rfl
@[simp] theorem takeEntry_choices (s : State) (h : Nat) (e : Entry) : (s.takeEntry h e).choices = s.choices := rfl
@[simp] theorem takeEntry_pending (s : State) (h : Nat) (e : Entry) : (s.takeEntry h e).pending = s.pending := rfl

/-! ### freeEntry -/

@[simp] theorem freeEntry_cb (s : State) (h : Nat) : (s.freeEntry h).cb = s.cb := by unfold State.freeEntry; simp
@[simp] theorem freeEntry_ee (s : State) (h : Nat) : (s.freeEntry h).ee = s.ee := by unfold State.freeEntry; simp
@[simp] theorem freeEntry_slp (s : State) (h : Nat) : (s.freeEntry h).slp = s.slp := by unfold State.freeEntry; simp
@[simp] theorem freeEntry_il (s : State) (h : Nat) : (s.freeEntry h).il = s.il := by unfold State.freeEntry; simp
@[simp] theorem freeEntry_ports (s : State) (h : Nat) : (s.freeEntry h).ports = s.ports := by unfold State.freeEntry; simp
@[simp] theorem freeEntry_resetHeld (s : State) (h : Nat) : (s.freeEntry h).resetHeld = s.resetHeld := by unfold State.freeEntry; simp
@[simp] theorem freeEntry_choices (s : State) (h : Nat) : (s.freeEntry h).choices = s.choices := by unfold State.freeEntry; simp
@[simp] theorem freeEntry_pending (s : State) (h : Nat) : (s.freeEntry h).pending = s.pending := by unfold State.freeEntry; simp

/-! ### enterClosing -/

@[simp] theorem enterClosing_cb (s : State) (h : Nat) (k : RecordKind) (b : Bool) : (s.enterClosing h k b).cb = s.cb := by unfold State.enterClosing; simp
@[simp] theorem enterClosing_ee (s : State) (h : Nat) (k : RecordKind) (b : Bool) : (s.enterClosing h k b).ee = s.ee := by unfold State.enterClosing; simp
@[simp] theorem enterClosing_hu (s : State) (h : Nat) (k : RecordKind) (b : Bool) : (s.enterClosing h k b).hu = s.hu := by unfold State.enterClosing; simp
@[simp] theorem enterClosing_slp (s : State) (h : Nat) (k : RecordKind) (b : Bool) : (s.enterClosing h k b).slp = s.slp := by unfold State.enterClosing; simp
@[simp] theorem enterClosing_il (s : State) (h : Nat) (k : RecordKind) (b : Bool) : (s.enterClosing h k b).il = s.il := by unfold State.enterClosing; simp
@[simp] theorem enterClosing_ports (s : State) (h : Nat) (k : RecordKind) (b : Bool) : (s.enterClosing h k b).ports = s.ports := by unfold State.enterClosing; simp
@[simp] theorem enterClosing_resetHeld (s : State) (h : Nat) (k : RecordKind) (b : Bool) : (s.enterClosing h k b).resetHeld = s.resetHeld := by unfold State.enterClosing; simp
@[simp] theorem enterClosing_choices (s : State) (h : Nat) (k : RecordKind) (b : Bool) : (s.enterClosing h k b).choices = s.choices := by unfold State.enterClosing; simp
@[simp] theorem enterClosing_pending (s : State) (h : Nat) (k : RecordKind) (b : Bool) : (s.enterClosing h k b).pending = s.pending := by unfold State.enterClosing; simp

/-! ### clearHunt -/

@[simp] theorem clearHunt_cb (s : State) : (s.clearHunt).cb = s.cb := by unfold State.clearHunt; dsimp only
@[simp] theorem clearHunt_ee (s : State) : (s.clearHunt).ee = s.ee := by unfold State.clearHunt; dsimp only
@[simp] theorem clearHunt_ua (s : State) : (s.clearHunt).ua = s.ua := by unfold State.clearHunt; dsimp only
@[simp] theorem clearHunt_lw (s : State) : (s.clearHunt).lw = s.lw := by unfold State.clearHunt; dsimp only
@[simp] theorem clearHunt_hu (s : State) : (s.clearHunt).hu = s.hu := by unfold State.clearHunt; dsimp only
@[simp] theorem clearHunt_um (s : State) : (s.clearHunt).um = s.um := by unfold State.clearHunt; dsimp only
@[simp] theorem clearHunt_slp (s : State) : (s.clearHunt).slp = s.slp := by unfold State.clearHunt; dsimp only
@[simp] theorem clearHunt_rq (s : State) : (s.clearHunt).rq = s.rq := by unfold State.clearHunt; dsimp only
@[simp] theorem clearHunt_il (s : State) : (s.clearHunt).il = s.il := by unfold State.clearHunt; dsimp only
@[simp] theorem clearHunt_ports (s : State) : (s.clearHunt).ports = s.ports := by unfold State.clearHunt; dsimp only
@[simp] theorem clearHunt_resetHeld (s : State) : (s.clearHunt).resetHeld = s.resetHeld := by unfold State.clearHunt; dsimp only
@[simp] theorem clearHunt_choices (s : State) : (s.clearHunt).choices = s.choices := by unfold State.clearHunt; dsimp only
@[simp] theorem clearHunt_pending (s : State) : (s.clearHunt).pending = s.pending := by unfold State.clearHunt; dsimp only

/-! ### setHunt -/

@[simp] theorem setHunt_cb (s : State) (hs : List Nat) : (s.setHunt hs).cb = s.cb := by unfold State.setHunt; dsimp only
@[simp] theorem setHunt_ee (s : State) (hs : List Nat) : (s.setHunt hs).ee = s.ee := by unfold State.setHunt; dsimp only
@[simp] theorem setHunt_ua (s : State) (hs : List Nat) : (s.setHunt hs).ua = s.ua := by unfold State.setHunt; dsimp only
@[simp] theorem setHunt_lw (s : State) (hs : List Nat) : (s.setHunt hs).lw = s.lw := by unfold State.setHunt; dsimp only
@[simp] theorem setHunt_hu (s : State) (hs : List Nat) : (s.setHunt hs).hu = s.hu := by unfold State.setHunt; dsimp only
@[simp] theorem setHunt_um (s : State) (hs : List Nat) : (s.setHunt hs).um = s.um := by unfold State.setHunt; dsimp only
@[simp] theorem setHunt_slp (s : State) (hs : List Nat) : (s.setHunt hs).slp = s.slp := by unfold State.setHunt; dsimp only
@[simp] theorem setHunt_rq (s : State) (hs : List Nat) : (s.setHunt hs).rq = s.rq := by unfold State.setHunt; dsimp only
@[simp] theorem setHunt_il (s : State) (hs : List Nat) : (s.setHunt hs).il = s.il := by unfold State.setHunt; dsimp only
@[simp] theorem setHunt_ports (s : State) (hs : List Nat) : (s.setHunt hs).ports = s.ports := by unfold State.setHunt; dsimp only
@[simp] theorem setHunt_resetHeld (s : State) (hs : List Nat) : (s.setHunt hs).resetHeld = s.resetHeld := by unfold State.setHunt; dsimp only
@[simp] theorem setHunt_choices (s : State) (hs : List Nat) : (s.setHunt hs).choices = s.choices := by unfold State.setHunt; dsimp only
@[simp] theorem setHunt_pending (s : State) (hs : List Nat) : (s.setHunt hs).pending = s.pending := by unfold State.setHunt; dsimp only

/-! ### endStray -/

@[simp] theorem endStray_cb (s : State) : (s.endStray).cb = s.cb := rfl
@[simp] theorem endStray_roster (s : State) : (s.endStray).roster = s.roster := rfl
@[simp] theorem endStray_ee (s : State) : (s.endStray).ee = s.ee := rfl
@[simp] theorem endStray_ua (s : State) : (s.endStray).ua = s.ua := rfl
@[simp] theorem endStray_hu (s : State) : (s.endStray).hu = s.hu := rfl
@[simp] theorem endStray_um (s : State) : (s.endStray).um = s.um := rfl
@[simp] theorem endStray_slp (s : State) : (s.endStray).slp = s.slp := rfl
@[simp] theorem endStray_il (s : State) : (s.endStray).il = s.il := rfl
@[simp] theorem endStray_ports (s : State) : (s.endStray).ports = s.ports := rfl
@[simp] theorem endStray_resetHeld (s : State) : (s.endStray).resetHeld = s.resetHeld := rfl
@[simp] theorem endStray_choices (s : State) : (s.endStray).choices = s.choices := rfl
@[simp] theorem endStray_pending (s : State) : (s.endStray).pending = s.pending := rfl

/-! ### emptyHistory -/

@[simp] theorem emptyHistory_cb (s : State) : (s.emptyHistory).cb = s.cb := by unfold State.emptyHistory; simp
@[simp] theorem emptyHistory_roster (s : State) : (s.emptyHistory).roster = s.roster := by unfold State.emptyHistory; simp
@[simp] theorem emptyHistory_ee (s : State) : (s.emptyHistory).ee = s.ee := by unfold State.emptyHistory; simp
@[simp] theorem emptyHistory_ua (s : State) : (s.emptyHistory).ua = s.ua := by unfold State.emptyHistory; simp
@[simp] theorem emptyHistory_hu (s : State) : (s.emptyHistory).hu = s.hu := by unfold State.emptyHistory; simp
@[simp] theorem emptyHistory_um (s : State) : (s.emptyHistory).um = s.um := by unfold State.emptyHistory; simp
@[simp] theorem emptyHistory_slp (s : State) : (s.emptyHistory).slp = s.slp := by unfold State.emptyHistory; simp
@[simp] theorem emptyHistory_il (s : State) : (s.emptyHistory).il = s.il := by unfold State.emptyHistory; simp
@[simp] theorem emptyHistory_ports (s : State) : (s.emptyHistory).ports = s.ports := by unfold State.emptyHistory; simp
@[simp] theorem emptyHistory_resetHeld (s : State) : (s.emptyHistory).resetHeld = s.resetHeld := by unfold State.emptyHistory; simp
@[simp] theorem emptyHistory_choices (s : State) : (s.emptyHistory).choices = s.choices := by unfold State.emptyHistory; simp
@[simp] theorem emptyHistory_pending (s : State) : (s.emptyHistory).pending = s.pending := by unfold State.emptyHistory; simp

/-! ### setFlag -/

@[simp] theorem setFlag_cb (s : State) (id : HuntId) : (s.setFlag id).cb = s.cb := rfl
@[simp] theorem setFlag_roster (s : State) (id : HuntId) : (s.setFlag id).roster = s.roster := rfl
@[simp] theorem setFlag_ee (s : State) (id : HuntId) : (s.setFlag id).ee = s.ee := rfl
@[simp] theorem setFlag_ua (s : State) (id : HuntId) : (s.setFlag id).ua = s.ua := rfl
@[simp] theorem setFlag_lw (s : State) (id : HuntId) : (s.setFlag id).lw = s.lw := rfl
@[simp] theorem setFlag_um (s : State) (id : HuntId) : (s.setFlag id).um = s.um := rfl
@[simp] theorem setFlag_slp (s : State) (id : HuntId) : (s.setFlag id).slp = s.slp := rfl
@[simp] theorem setFlag_rq (s : State) (id : HuntId) : (s.setFlag id).rq = s.rq := rfl
@[simp] theorem setFlag_il (s : State) (id : HuntId) : (s.setFlag id).il = s.il := rfl
@[simp] theorem setFlag_ports (s : State) (id : HuntId) : (s.setFlag id).ports = s.ports := rfl
@[simp] theorem setFlag_resetHeld (s : State) (id : HuntId) : (s.setFlag id).resetHeld = s.resetHeld := rfl
@[simp] theorem setFlag_choices (s : State) (id : HuntId) : (s.setFlag id).choices = s.choices := rfl
@[simp] theorem setFlag_pending (s : State) (id : HuntId) : (s.setFlag id).pending = s.pending := rfl

/-! ### clearFlag -/

@[simp] theorem clearFlag_cb (s : State) : (s.clearFlag).cb = s.cb := rfl
@[simp] theorem clearFlag_roster (s : State) : (s.clearFlag).roster = s.roster := rfl
@[simp] theorem clearFlag_ee (s : State) : (s.clearFlag).ee = s.ee := rfl
@[simp] theorem clearFlag_ua (s : State) : (s.clearFlag).ua = s.ua := rfl
@[simp] theorem clearFlag_lw (s : State) : (s.clearFlag).lw = s.lw := rfl
@[simp] theorem clearFlag_um (s : State) : (s.clearFlag).um = s.um := rfl
@[simp] theorem clearFlag_slp (s : State) : (s.clearFlag).slp = s.slp := rfl
@[simp] theorem clearFlag_rq (s : State) : (s.clearFlag).rq = s.rq := rfl
@[simp] theorem clearFlag_il (s : State) : (s.clearFlag).il = s.il := rfl
@[simp] theorem clearFlag_ports (s : State) : (s.clearFlag).ports = s.ports := rfl
@[simp] theorem clearFlag_resetHeld (s : State) : (s.clearFlag).resetHeld = s.resetHeld := rfl
@[simp] theorem clearFlag_choices (s : State) : (s.clearFlag).choices = s.choices := rfl
@[simp] theorem clearFlag_pending (s : State) : (s.clearFlag).pending = s.pending := rfl

/-! ### setOwner -/

@[simp] theorem setOwner_cb (s : State) (o : OwnerPart) : (s.setOwner o).cb = s.cb := rfl
@[simp] theorem setOwner_roster (s : State) (o : OwnerPart) : (s.setOwner o).roster = s.roster := rfl
@[simp] theorem setOwner_ee (s : State) (o : OwnerPart) : (s.setOwner o).ee = s.ee := rfl
@[simp] theorem setOwner_ua (s : State) (o : OwnerPart) : (s.setOwner o).ua = s.ua := rfl
@[simp] theorem setOwner_lw (s : State) (o : OwnerPart) : (s.setOwner o).lw = s.lw := rfl
@[simp] theorem setOwner_um (s : State) (o : OwnerPart) : (s.setOwner o).um = s.um := rfl
@[simp] theorem setOwner_slp (s : State) (o : OwnerPart) : (s.setOwner o).slp = s.slp := rfl
@[simp] theorem setOwner_rq (s : State) (o : OwnerPart) : (s.setOwner o).rq = s.rq := rfl
@[simp] theorem setOwner_il (s : State) (o : OwnerPart) : (s.setOwner o).il = s.il := rfl
@[simp] theorem setOwner_ports (s : State) (o : OwnerPart) : (s.setOwner o).ports = s.ports := rfl
@[simp] theorem setOwner_resetHeld (s : State) (o : OwnerPart) : (s.setOwner o).resetHeld = s.resetHeld := rfl
@[simp] theorem setOwner_choices (s : State) (o : OwnerPart) : (s.setOwner o).choices = s.choices := rfl
@[simp] theorem setOwner_pending (s : State) (o : OwnerPart) : (s.setOwner o).pending = s.pending := rfl

/-! ### leaveHunt -/

@[simp] theorem leaveHunt_cb (s : State) : (s.leaveHunt).cb = s.cb := by unfold State.leaveHunt; simp
@[simp] theorem leaveHunt_ee (s : State) : (s.leaveHunt).ee = s.ee := by unfold State.leaveHunt; simp
@[simp] theorem leaveHunt_ua (s : State) : (s.leaveHunt).ua = s.ua := by unfold State.leaveHunt; simp
@[simp] theorem leaveHunt_lw (s : State) : (s.leaveHunt).lw = s.lw := by unfold State.leaveHunt; simp
@[simp] theorem leaveHunt_um (s : State) : (s.leaveHunt).um = s.um := by unfold State.leaveHunt; simp
@[simp] theorem leaveHunt_rq (s : State) : (s.leaveHunt).rq = s.rq := by unfold State.leaveHunt; simp
@[simp] theorem leaveHunt_il (s : State) : (s.leaveHunt).il = s.il := by unfold State.leaveHunt; simp
@[simp] theorem leaveHunt_ports (s : State) : (s.leaveHunt).ports = s.ports := by unfold State.leaveHunt; simp
@[simp] theorem leaveHunt_resetHeld (s : State) : (s.leaveHunt).resetHeld = s.resetHeld := by unfold State.leaveHunt; simp
@[simp] theorem leaveHunt_choices (s : State) : (s.leaveHunt).choices = s.choices := by unfold State.leaveHunt; simp
@[simp] theorem leaveHunt_pending (s : State) : (s.leaveHunt).pending = s.pending := by unfold State.leaveHunt; simp

/-! ### setPlace -/

@[simp] theorem setPlace_cb (s : State) (i : Nat) (c : Option Capture) : (s.setPlace i c).cb = s.cb := rfl
@[simp] theorem setPlace_roster (s : State) (i : Nat) (c : Option Capture) : (s.setPlace i c).roster = s.roster := rfl
@[simp] theorem setPlace_ua (s : State) (i : Nat) (c : Option Capture) : (s.setPlace i c).ua = s.ua := rfl
@[simp] theorem setPlace_lw (s : State) (i : Nat) (c : Option Capture) : (s.setPlace i c).lw = s.lw := rfl
@[simp] theorem setPlace_hu (s : State) (i : Nat) (c : Option Capture) : (s.setPlace i c).hu = s.hu := rfl
@[simp] theorem setPlace_um (s : State) (i : Nat) (c : Option Capture) : (s.setPlace i c).um = s.um := rfl
@[simp] theorem setPlace_slp (s : State) (i : Nat) (c : Option Capture) : (s.setPlace i c).slp = s.slp := rfl
@[simp] theorem setPlace_rq (s : State) (i : Nat) (c : Option Capture) : (s.setPlace i c).rq = s.rq := rfl
@[simp] theorem setPlace_il (s : State) (i : Nat) (c : Option Capture) : (s.setPlace i c).il = s.il := rfl
@[simp] theorem setPlace_ports (s : State) (i : Nat) (c : Option Capture) : (s.setPlace i c).ports = s.ports := rfl
@[simp] theorem setPlace_resetHeld (s : State) (i : Nat) (c : Option Capture) : (s.setPlace i c).resetHeld = s.resetHeld := rfl
@[simp] theorem setPlace_choices (s : State) (i : Nat) (c : Option Capture) : (s.setPlace i c).choices = s.choices := rfl
@[simp] theorem setPlace_pending (s : State) (i : Nat) (c : Option Capture) : (s.setPlace i c).pending = s.pending := rfl

/-! ### setBand -/

@[simp] theorem setBand_cb (s : State) (b : Nat) (x : Band) : (s.setBand b x).cb = s.cb := rfl
@[simp] theorem setBand_roster (s : State) (b : Nat) (x : Band) : (s.setBand b x).roster = s.roster := rfl
@[simp] theorem setBand_ee (s : State) (b : Nat) (x : Band) : (s.setBand b x).ee = s.ee := rfl
@[simp] theorem setBand_ua (s : State) (b : Nat) (x : Band) : (s.setBand b x).ua = s.ua := rfl
@[simp] theorem setBand_lw (s : State) (b : Nat) (x : Band) : (s.setBand b x).lw = s.lw := rfl
@[simp] theorem setBand_hu (s : State) (b : Nat) (x : Band) : (s.setBand b x).hu = s.hu := rfl
@[simp] theorem setBand_slp (s : State) (b : Nat) (x : Band) : (s.setBand b x).slp = s.slp := rfl
@[simp] theorem setBand_rq (s : State) (b : Nat) (x : Band) : (s.setBand b x).rq = s.rq := rfl
@[simp] theorem setBand_il (s : State) (b : Nat) (x : Band) : (s.setBand b x).il = s.il := rfl
@[simp] theorem setBand_ports (s : State) (b : Nat) (x : Band) : (s.setBand b x).ports = s.ports := rfl
@[simp] theorem setBand_resetHeld (s : State) (b : Nat) (x : Band) : (s.setBand b x).resetHeld = s.resetHeld := rfl
@[simp] theorem setBand_choices (s : State) (b : Nat) (x : Band) : (s.setBand b x).choices = s.choices := rfl
@[simp] theorem setBand_pending (s : State) (b : Nat) (x : Band) : (s.setBand b x).pending = s.pending := rfl

/-! ### lineHeard -/

@[simp] theorem lineHeard_cb (s : State) : (s.lineHeard).cb = s.cb := rfl
@[simp] theorem lineHeard_roster (s : State) : (s.lineHeard).roster = s.roster := rfl
@[simp] theorem lineHeard_ee (s : State) : (s.lineHeard).ee = s.ee := rfl
@[simp] theorem lineHeard_ua (s : State) : (s.lineHeard).ua = s.ua := rfl
@[simp] theorem lineHeard_lw (s : State) : (s.lineHeard).lw = s.lw := rfl
@[simp] theorem lineHeard_hu (s : State) : (s.lineHeard).hu = s.hu := rfl
@[simp] theorem lineHeard_um (s : State) : (s.lineHeard).um = s.um := rfl
@[simp] theorem lineHeard_slp (s : State) : (s.lineHeard).slp = s.slp := rfl
@[simp] theorem lineHeard_rq (s : State) : (s.lineHeard).rq = s.rq := rfl
@[simp] theorem lineHeard_il (s : State) : (s.lineHeard).il = s.il := rfl
@[simp] theorem lineHeard_resetHeld (s : State) : (s.lineHeard).resetHeld = s.resetHeld := rfl
@[simp] theorem lineHeard_choices (s : State) : (s.lineHeard).choices = s.choices := rfl
@[simp] theorem lineHeard_pending (s : State) : (s.lineHeard).pending = s.pending := rfl

/-! ### voidRequest -/

@[simp] theorem voidRequest_cb (s : State) : (s.voidRequest).cb = s.cb := rfl
@[simp] theorem voidRequest_roster (s : State) : (s.voidRequest).roster = s.roster := rfl
@[simp] theorem voidRequest_ee (s : State) : (s.voidRequest).ee = s.ee := rfl
@[simp] theorem voidRequest_ua (s : State) : (s.voidRequest).ua = s.ua := rfl
@[simp] theorem voidRequest_lw (s : State) : (s.voidRequest).lw = s.lw := rfl
@[simp] theorem voidRequest_hu (s : State) : (s.voidRequest).hu = s.hu := rfl
@[simp] theorem voidRequest_um (s : State) : (s.voidRequest).um = s.um := rfl
@[simp] theorem voidRequest_slp (s : State) : (s.voidRequest).slp = s.slp := rfl
@[simp] theorem voidRequest_rq (s : State) : (s.voidRequest).rq = s.rq := rfl
@[simp] theorem voidRequest_il (s : State) : (s.voidRequest).il = s.il := rfl
@[simp] theorem voidRequest_resetHeld (s : State) : (s.voidRequest).resetHeld = s.resetHeld := rfl
@[simp] theorem voidRequest_choices (s : State) : (s.voidRequest).choices = s.choices := rfl
@[simp] theorem voidRequest_pending (s : State) : (s.voidRequest).pending = s.pending := rfl

/-! ### clearOutstanding -/

@[simp] theorem clearOutstanding_roster (s : State) (r : WindowRef) : (s.clearOutstanding r).roster = s.roster := rfl
@[simp] theorem clearOutstanding_ee (s : State) (r : WindowRef) : (s.clearOutstanding r).ee = s.ee := rfl
@[simp] theorem clearOutstanding_ua (s : State) (r : WindowRef) : (s.clearOutstanding r).ua = s.ua := rfl
@[simp] theorem clearOutstanding_lw (s : State) (r : WindowRef) : (s.clearOutstanding r).lw = s.lw := rfl
@[simp] theorem clearOutstanding_hu (s : State) (r : WindowRef) : (s.clearOutstanding r).hu = s.hu := rfl
@[simp] theorem clearOutstanding_um (s : State) (r : WindowRef) : (s.clearOutstanding r).um = s.um := rfl
@[simp] theorem clearOutstanding_slp (s : State) (r : WindowRef) : (s.clearOutstanding r).slp = s.slp := rfl
@[simp] theorem clearOutstanding_rq (s : State) (r : WindowRef) : (s.clearOutstanding r).rq = s.rq := rfl
@[simp] theorem clearOutstanding_il (s : State) (r : WindowRef) : (s.clearOutstanding r).il = s.il := rfl
@[simp] theorem clearOutstanding_ports (s : State) (r : WindowRef) : (s.clearOutstanding r).ports = s.ports := rfl
@[simp] theorem clearOutstanding_resetHeld (s : State) (r : WindowRef) : (s.clearOutstanding r).resetHeld = s.resetHeld := rfl
@[simp] theorem clearOutstanding_choices (s : State) (r : WindowRef) : (s.clearOutstanding r).choices = s.choices := rfl
@[simp] theorem clearOutstanding_pending (s : State) (r : WindowRef) : (s.clearOutstanding r).pending = s.pending := rfl

/-! ### emptyDownstream -/

@[simp] theorem emptyDownstream_cb (s : State) : s.emptyDownstream.cb = s.cb := rfl
@[simp] theorem emptyDownstream_roster (s : State) : s.emptyDownstream.roster = s.roster := rfl
@[simp] theorem emptyDownstream_ee (s : State) : s.emptyDownstream.ee = s.ee := rfl
@[simp] theorem emptyDownstream_ua (s : State) : s.emptyDownstream.ua = s.ua := rfl
@[simp] theorem emptyDownstream_lw (s : State) : s.emptyDownstream.lw = s.lw := rfl
@[simp] theorem emptyDownstream_hu (s : State) : s.emptyDownstream.hu = s.hu := rfl
@[simp] theorem emptyDownstream_um (s : State) : s.emptyDownstream.um = s.um := rfl
@[simp] theorem emptyDownstream_slp (s : State) : s.emptyDownstream.slp = s.slp := rfl
@[simp] theorem emptyDownstream_rq (s : State) : s.emptyDownstream.rq = s.rq := rfl
@[simp] theorem emptyDownstream_il (s : State) : s.emptyDownstream.il = s.il := rfl
@[simp] theorem emptyDownstream_resetHeld (s : State) : s.emptyDownstream.resetHeld = s.resetHeld := rfl
@[simp] theorem emptyDownstream_choices (s : State) : s.emptyDownstream.choices = s.choices := rfl
@[simp] theorem emptyDownstream_pending (s : State) : s.emptyDownstream.pending = s.pending := rfl
@[simp] theorem emptyDownstream_trafficOut (s : State) : s.emptyDownstream.ports.trafficOut = s.ports.trafficOut := rfl
@[simp] theorem emptyDownstream_downstream (s : State) : s.emptyDownstream.ports.downstream = [] := rfl

/-! ### dequeue -/

@[simp] theorem dequeue_cb (s : State) : (s.dequeue).cb = s.cb := rfl
@[simp] theorem dequeue_roster (s : State) : (s.dequeue).roster = s.roster := rfl
@[simp] theorem dequeue_ee (s : State) : (s.dequeue).ee = s.ee := rfl
@[simp] theorem dequeue_ua (s : State) : (s.dequeue).ua = s.ua := rfl
@[simp] theorem dequeue_lw (s : State) : (s.dequeue).lw = s.lw := rfl
@[simp] theorem dequeue_hu (s : State) : (s.dequeue).hu = s.hu := rfl
@[simp] theorem dequeue_um (s : State) : (s.dequeue).um = s.um := rfl
@[simp] theorem dequeue_slp (s : State) : (s.dequeue).slp = s.slp := rfl
@[simp] theorem dequeue_rq (s : State) : (s.dequeue).rq = s.rq := rfl
@[simp] theorem dequeue_il (s : State) : (s.dequeue).il = s.il := rfl
@[simp] theorem dequeue_ports (s : State) : (s.dequeue).ports = s.ports := rfl
@[simp] theorem dequeue_resetHeld (s : State) : (s.dequeue).resetHeld = s.resetHeld := rfl
@[simp] theorem dequeue_choices (s : State) : (s.dequeue).choices = s.choices := rfl

/-! ### putFront -/

@[simp] theorem putFront_cb (s : State) (c : Instr) : (s.putFront c).cb = s.cb := rfl
@[simp] theorem putFront_roster (s : State) (c : Instr) : (s.putFront c).roster = s.roster := rfl
@[simp] theorem putFront_ee (s : State) (c : Instr) : (s.putFront c).ee = s.ee := rfl
@[simp] theorem putFront_ua (s : State) (c : Instr) : (s.putFront c).ua = s.ua := rfl
@[simp] theorem putFront_lw (s : State) (c : Instr) : (s.putFront c).lw = s.lw := rfl
@[simp] theorem putFront_hu (s : State) (c : Instr) : (s.putFront c).hu = s.hu := rfl
@[simp] theorem putFront_um (s : State) (c : Instr) : (s.putFront c).um = s.um := rfl
@[simp] theorem putFront_slp (s : State) (c : Instr) : (s.putFront c).slp = s.slp := rfl
@[simp] theorem putFront_rq (s : State) (c : Instr) : (s.putFront c).rq = s.rq := rfl
@[simp] theorem putFront_il (s : State) (c : Instr) : (s.putFront c).il = s.il := rfl
@[simp] theorem putFront_ports (s : State) (c : Instr) : (s.putFront c).ports = s.ports := rfl
@[simp] theorem putFront_resetHeld (s : State) (c : Instr) : (s.putFront c).resetHeld = s.resetHeld := rfl
@[simp] theorem putFront_choices (s : State) (c : Instr) : (s.putFront c).choices = s.choices := rfl

/-! ### withResult -/

@[simp] theorem withResult_cb (s : State) (k : RequestKind) (hd : RequestHeader) (c : ResultCode) (d : ResultData) : (s.withResult k hd c d).cb = s.cb := rfl
@[simp] theorem withResult_roster (s : State) (k : RequestKind) (hd : RequestHeader) (c : ResultCode) (d : ResultData) : (s.withResult k hd c d).roster = s.roster := rfl
@[simp] theorem withResult_ee (s : State) (k : RequestKind) (hd : RequestHeader) (c : ResultCode) (d : ResultData) : (s.withResult k hd c d).ee = s.ee := rfl
@[simp] theorem withResult_ua (s : State) (k : RequestKind) (hd : RequestHeader) (c : ResultCode) (d : ResultData) : (s.withResult k hd c d).ua = s.ua := rfl
@[simp] theorem withResult_lw (s : State) (k : RequestKind) (hd : RequestHeader) (c : ResultCode) (d : ResultData) : (s.withResult k hd c d).lw = s.lw := rfl
@[simp] theorem withResult_hu (s : State) (k : RequestKind) (hd : RequestHeader) (c : ResultCode) (d : ResultData) : (s.withResult k hd c d).hu = s.hu := rfl
@[simp] theorem withResult_um (s : State) (k : RequestKind) (hd : RequestHeader) (c : ResultCode) (d : ResultData) : (s.withResult k hd c d).um = s.um := rfl
@[simp] theorem withResult_slp (s : State) (k : RequestKind) (hd : RequestHeader) (c : ResultCode) (d : ResultData) : (s.withResult k hd c d).slp = s.slp := rfl
@[simp] theorem withResult_il (s : State) (k : RequestKind) (hd : RequestHeader) (c : ResultCode) (d : ResultData) : (s.withResult k hd c d).il = s.il := rfl
@[simp] theorem withResult_resetHeld (s : State) (k : RequestKind) (hd : RequestHeader) (c : ResultCode) (d : ResultData) : (s.withResult k hd c d).resetHeld = s.resetHeld := rfl
@[simp] theorem withResult_choices (s : State) (k : RequestKind) (hd : RequestHeader) (c : ResultCode) (d : ResultData) : (s.withResult k hd c d).choices = s.choices := rfl
@[simp] theorem withResult_pending (s : State) (k : RequestKind) (hd : RequestHeader) (c : ResultCode) (d : ResultData) : (s.withResult k hd c d).pending = s.pending := rfl

/-! ### pushEvent -/

@[simp] theorem pushEvent_cb (s : State) (e : Event) : (s.pushEvent e).cb = s.cb := by unfold State.pushEvent; split <;> rfl
@[simp] theorem pushEvent_roster (s : State) (e : Event) : (s.pushEvent e).roster = s.roster := by unfold State.pushEvent; split <;> rfl
@[simp] theorem pushEvent_ee (s : State) (e : Event) : (s.pushEvent e).ee = s.ee := by unfold State.pushEvent; split <;> rfl
@[simp] theorem pushEvent_ua (s : State) (e : Event) : (s.pushEvent e).ua = s.ua := by unfold State.pushEvent; split <;> rfl
@[simp] theorem pushEvent_lw (s : State) (e : Event) : (s.pushEvent e).lw = s.lw := by unfold State.pushEvent; split <;> rfl
@[simp] theorem pushEvent_hu (s : State) (e : Event) : (s.pushEvent e).hu = s.hu := by unfold State.pushEvent; split <;> rfl
@[simp] theorem pushEvent_um (s : State) (e : Event) : (s.pushEvent e).um = s.um := by unfold State.pushEvent; split <;> rfl
@[simp] theorem pushEvent_slp (s : State) (e : Event) : (s.pushEvent e).slp = s.slp := by unfold State.pushEvent; split <;> rfl
@[simp] theorem pushEvent_il (s : State) (e : Event) : (s.pushEvent e).il = s.il := by unfold State.pushEvent; split <;> rfl
@[simp] theorem pushEvent_ports (s : State) (e : Event) : (s.pushEvent e).ports = s.ports := by unfold State.pushEvent; split <;> rfl
@[simp] theorem pushEvent_resetHeld (s : State) (e : Event) : (s.pushEvent e).resetHeld = s.resetHeld := by unfold State.pushEvent; split <;> rfl
@[simp] theorem pushEvent_choices (s : State) (e : Event) : (s.pushEvent e).choices = s.choices := by unfold State.pushEvent; split <;> rfl
@[simp] theorem pushEvent_pending (s : State) (e : Event) : (s.pushEvent e).pending = s.pending := by unfold State.pushEvent; split <;> rfl

/-! ### placeReport -/

@[simp] theorem placeReport_cb (s : State) (a : AlarmSource) (c : AlarmContent) (b : Bool) : (s.placeReport a c b).cb = s.cb := by unfold State.placeReport; split <;> first | rfl | (split <;> rfl)
@[simp] theorem placeReport_roster (s : State) (a : AlarmSource) (c : AlarmContent) (b : Bool) : (s.placeReport a c b).roster = s.roster := by unfold State.placeReport; split <;> first | rfl | (split <;> rfl)
@[simp] theorem placeReport_ee (s : State) (a : AlarmSource) (c : AlarmContent) (b : Bool) : (s.placeReport a c b).ee = s.ee := by unfold State.placeReport; split <;> first | rfl | (split <;> rfl)
@[simp] theorem placeReport_ua (s : State) (a : AlarmSource) (c : AlarmContent) (b : Bool) : (s.placeReport a c b).ua = s.ua := by unfold State.placeReport; split <;> first | rfl | (split <;> rfl)
@[simp] theorem placeReport_lw (s : State) (a : AlarmSource) (c : AlarmContent) (b : Bool) : (s.placeReport a c b).lw = s.lw := by unfold State.placeReport; split <;> first | rfl | (split <;> rfl)
@[simp] theorem placeReport_hu (s : State) (a : AlarmSource) (c : AlarmContent) (b : Bool) : (s.placeReport a c b).hu = s.hu := by unfold State.placeReport; split <;> first | rfl | (split <;> rfl)
@[simp] theorem placeReport_um (s : State) (a : AlarmSource) (c : AlarmContent) (b : Bool) : (s.placeReport a c b).um = s.um := by unfold State.placeReport; split <;> first | rfl | (split <;> rfl)
@[simp] theorem placeReport_il (s : State) (a : AlarmSource) (c : AlarmContent) (b : Bool) : (s.placeReport a c b).il = s.il := by unfold State.placeReport; split <;> first | rfl | (split <;> rfl)
@[simp] theorem placeReport_ports (s : State) (a : AlarmSource) (c : AlarmContent) (b : Bool) : (s.placeReport a c b).ports = s.ports := by unfold State.placeReport; split <;> first | rfl | (split <;> rfl)
@[simp] theorem placeReport_resetHeld (s : State) (a : AlarmSource) (c : AlarmContent) (b : Bool) : (s.placeReport a c b).resetHeld = s.resetHeld := by unfold State.placeReport; split <;> first | rfl | (split <;> rfl)
@[simp] theorem placeReport_choices (s : State) (a : AlarmSource) (c : AlarmContent) (b : Bool) : (s.placeReport a c b).choices = s.choices := by unfold State.placeReport; split <;> first | rfl | (split <;> rfl)
@[simp] theorem placeReport_pending (s : State) (a : AlarmSource) (c : AlarmContent) (b : Bool) : (s.placeReport a c b).pending = s.pending := by unfold State.placeReport; split <;> first | rfl | (split <;> rfl)

/-! ### raiseAlarm -/

@[simp] theorem raiseAlarm_cb (s : State) (a : AlarmSource) (c : AlarmContent) : (s.raiseAlarm a c).cb = s.cb := by unfold State.raiseAlarm; repeat' (first | rfl | split | simp)
@[simp] theorem raiseAlarm_roster (s : State) (a : AlarmSource) (c : AlarmContent) : (s.raiseAlarm a c).roster = s.roster := by unfold State.raiseAlarm; repeat' (first | rfl | split | simp)
@[simp] theorem raiseAlarm_ee (s : State) (a : AlarmSource) (c : AlarmContent) : (s.raiseAlarm a c).ee = s.ee := by unfold State.raiseAlarm; repeat' (first | rfl | split | simp)
@[simp] theorem raiseAlarm_ua (s : State) (a : AlarmSource) (c : AlarmContent) : (s.raiseAlarm a c).ua = s.ua := by unfold State.raiseAlarm; repeat' (first | rfl | split | simp)
@[simp] theorem raiseAlarm_lw (s : State) (a : AlarmSource) (c : AlarmContent) : (s.raiseAlarm a c).lw = s.lw := by unfold State.raiseAlarm; repeat' (first | rfl | split | simp)
@[simp] theorem raiseAlarm_hu (s : State) (a : AlarmSource) (c : AlarmContent) : (s.raiseAlarm a c).hu = s.hu := by unfold State.raiseAlarm; repeat' (first | rfl | split | simp)
@[simp] theorem raiseAlarm_um (s : State) (a : AlarmSource) (c : AlarmContent) : (s.raiseAlarm a c).um = s.um := by unfold State.raiseAlarm; repeat' (first | rfl | split | simp)
@[simp] theorem raiseAlarm_il (s : State) (a : AlarmSource) (c : AlarmContent) : (s.raiseAlarm a c).il = s.il := by unfold State.raiseAlarm; repeat' (first | rfl | split | simp)
@[simp] theorem raiseAlarm_ports (s : State) (a : AlarmSource) (c : AlarmContent) : (s.raiseAlarm a c).ports = s.ports := by unfold State.raiseAlarm; repeat' (first | rfl | split | simp)
@[simp] theorem raiseAlarm_resetHeld (s : State) (a : AlarmSource) (c : AlarmContent) : (s.raiseAlarm a c).resetHeld = s.resetHeld := by unfold State.raiseAlarm; repeat' (first | rfl | split | simp)
@[simp] theorem raiseAlarm_choices (s : State) (a : AlarmSource) (c : AlarmContent) : (s.raiseAlarm a c).choices = s.choices := by unfold State.raiseAlarm; repeat' (first | rfl | split | simp)
@[simp] theorem raiseAlarm_pending (s : State) (a : AlarmSource) (c : AlarmContent) : (s.raiseAlarm a c).pending = s.pending := by unfold State.raiseAlarm; repeat' (first | rfl | split | simp)

/-! ### startCredit -/

@[simp] theorem startCredit_cb (s : State) (h : Nat) : (s.startCredit h).cb = s.cb := by unfold State.startCredit; split <;> first | rfl | (split <;> first | rfl | simp)
@[simp] theorem startCredit_roster (s : State) (h : Nat) : (s.startCredit h).roster = s.roster := by unfold State.startCredit; split <;> first | rfl | (split <;> first | rfl | simp)
@[simp] theorem startCredit_ee (s : State) (h : Nat) : (s.startCredit h).ee = s.ee := by unfold State.startCredit; split <;> first | rfl | (split <;> first | rfl | simp)
@[simp] theorem startCredit_ua (s : State) (h : Nat) : (s.startCredit h).ua = s.ua := by unfold State.startCredit; split <;> first | rfl | (split <;> first | rfl | simp)
@[simp] theorem startCredit_lw (s : State) (h : Nat) : (s.startCredit h).lw = s.lw := by unfold State.startCredit; split <;> first | rfl | (split <;> first | rfl | simp)
@[simp] theorem startCredit_hu (s : State) (h : Nat) : (s.startCredit h).hu = s.hu := by unfold State.startCredit; split <;> first | rfl | (split <;> first | rfl | simp)
@[simp] theorem startCredit_um (s : State) (h : Nat) : (s.startCredit h).um = s.um := by unfold State.startCredit; split <;> first | rfl | (split <;> first | rfl | simp)
@[simp] theorem startCredit_il (s : State) (h : Nat) : (s.startCredit h).il = s.il := by unfold State.startCredit; split <;> first | rfl | (split <;> first | rfl | simp)
@[simp] theorem startCredit_ports (s : State) (h : Nat) : (s.startCredit h).ports = s.ports := by unfold State.startCredit; split <;> first | rfl | (split <;> first | rfl | simp)
@[simp] theorem startCredit_resetHeld (s : State) (h : Nat) : (s.startCredit h).resetHeld = s.resetHeld := by unfold State.startCredit; split <;> first | rfl | (split <;> first | rfl | simp)
@[simp] theorem startCredit_choices (s : State) (h : Nat) : (s.startCredit h).choices = s.choices := by unfold State.startCredit; split <;> first | rfl | (split <;> first | rfl | simp)
@[simp] theorem startCredit_pending (s : State) (h : Nat) : (s.startCredit h).pending = s.pending := by unfold State.startCredit; split <;> first | rfl | (split <;> first | rfl | simp)

/-! ### changeAcct -/

@[simp] theorem changeAcct_cb (s : State) (h : Nat) (a : Account) : (s.changeAcct h a).cb = s.cb := by unfold State.changeAcct; simp only []; split <;> simp
@[simp] theorem changeAcct_roster (s : State) (h : Nat) (a : Account) : (s.changeAcct h a).roster = s.roster := by unfold State.changeAcct; simp only []; split <;> simp
@[simp] theorem changeAcct_ee (s : State) (h : Nat) (a : Account) : (s.changeAcct h a).ee = s.ee := by unfold State.changeAcct; simp only []; split <;> simp
@[simp] theorem changeAcct_ua (s : State) (h : Nat) (a : Account) : (s.changeAcct h a).ua = s.ua := by unfold State.changeAcct; simp only []; split <;> simp
@[simp] theorem changeAcct_lw (s : State) (h : Nat) (a : Account) : (s.changeAcct h a).lw = s.lw := by unfold State.changeAcct; simp only []; split <;> simp
@[simp] theorem changeAcct_hu (s : State) (h : Nat) (a : Account) : (s.changeAcct h a).hu = s.hu := by unfold State.changeAcct; simp only []; split <;> simp
@[simp] theorem changeAcct_il (s : State) (h : Nat) (a : Account) : (s.changeAcct h a).il = s.il := by unfold State.changeAcct; simp only []; split <;> simp
@[simp] theorem changeAcct_ports (s : State) (h : Nat) (a : Account) : (s.changeAcct h a).ports = s.ports := by unfold State.changeAcct; simp only []; split <;> simp
@[simp] theorem changeAcct_resetHeld (s : State) (h : Nat) (a : Account) : (s.changeAcct h a).resetHeld = s.resetHeld := by unfold State.changeAcct; simp only []; split <;> simp
@[simp] theorem changeAcct_choices (s : State) (h : Nat) (a : Account) : (s.changeAcct h a).choices = s.choices := by unfold State.changeAcct; simp only []; split <;> simp
@[simp] theorem changeAcct_pending (s : State) (h : Nat) (a : Account) : (s.changeAcct h a).pending = s.pending := by unfold State.changeAcct; simp only []; split <;> simp

/-! ### enterLost -/

@[simp] theorem enterLost_cb (s : State) (h : Nat) : (s.enterLost h).cb = s.cb := by unfold State.enterLost; simp
@[simp] theorem enterLost_ee (s : State) (h : Nat) : (s.enterLost h).ee = s.ee := by unfold State.enterLost; simp
@[simp] theorem enterLost_ua (s : State) (h : Nat) : (s.enterLost h).ua = s.ua := by unfold State.enterLost; simp
@[simp] theorem enterLost_hu (s : State) (h : Nat) : (s.enterLost h).hu = s.hu := by unfold State.enterLost; simp
@[simp] theorem enterLost_um (s : State) (h : Nat) : (s.enterLost h).um = s.um := by unfold State.enterLost; simp
@[simp] theorem enterLost_il (s : State) (h : Nat) : (s.enterLost h).il = s.il := by unfold State.enterLost; simp
@[simp] theorem enterLost_ports (s : State) (h : Nat) : (s.enterLost h).ports = s.ports := by unfold State.enterLost; simp
@[simp] theorem enterLost_resetHeld (s : State) (h : Nat) : (s.enterLost h).resetHeld = s.resetHeld := by unfold State.enterLost; simp
@[simp] theorem enterLost_choices (s : State) (h : Nat) : (s.enterLost h).choices = s.choices := by unfold State.enterLost; simp
@[simp] theorem enterLost_pending (s : State) (h : Nat) : (s.enterLost h).pending = s.pending := by unfold State.enterLost; simp

/-! ### release -/

@[simp] theorem release_cb (s : State) (h : Nat) (r : ReleaseReason) (b : Bool) : (s.release h r b).cb = s.cb := by unfold State.release; simp
@[simp] theorem release_ee (s : State) (h : Nat) (r : ReleaseReason) (b : Bool) : (s.release h r b).ee = s.ee := by unfold State.release; simp
@[simp] theorem release_hu (s : State) (h : Nat) (r : ReleaseReason) (b : Bool) : (s.release h r b).hu = s.hu := by unfold State.release; simp
@[simp] theorem release_slp (s : State) (h : Nat) (r : ReleaseReason) (b : Bool) : (s.release h r b).slp = s.slp := by unfold State.release; simp
@[simp] theorem release_il (s : State) (h : Nat) (r : ReleaseReason) (b : Bool) : (s.release h r b).il = s.il := by unfold State.release; simp
@[simp] theorem release_ports (s : State) (h : Nat) (r : ReleaseReason) (b : Bool) : (s.release h r b).ports = s.ports := by unfold State.release; simp
@[simp] theorem release_resetHeld (s : State) (h : Nat) (r : ReleaseReason) (b : Bool) : (s.release h r b).resetHeld = s.resetHeld := by unfold State.release; simp
@[simp] theorem release_choices (s : State) (h : Nat) (r : ReleaseReason) (b : Bool) : (s.release h r b).choices = s.choices := by unfold State.release; simp
@[simp] theorem release_pending (s : State) (h : Nat) (r : ReleaseReason) (b : Bool) : (s.release h r b).pending = s.pending := by unfold State.release; simp

/-! ### drainClose -/

@[simp] theorem drainClose_cb (s : State) (h : Nat) : (s.drainClose h).cb = s.cb := by unfold State.drainClose; split <;> simp
@[simp] theorem drainClose_ee (s : State) (h : Nat) : (s.drainClose h).ee = s.ee := by unfold State.drainClose; split <;> simp
@[simp] theorem drainClose_hu (s : State) (h : Nat) : (s.drainClose h).hu = s.hu := by unfold State.drainClose; split <;> simp
@[simp] theorem drainClose_slp (s : State) (h : Nat) : (s.drainClose h).slp = s.slp := by unfold State.drainClose; split <;> simp
@[simp] theorem drainClose_il (s : State) (h : Nat) : (s.drainClose h).il = s.il := by unfold State.drainClose; split <;> simp
@[simp] theorem drainClose_ports (s : State) (h : Nat) : (s.drainClose h).ports = s.ports := by unfold State.drainClose; split <;> simp
@[simp] theorem drainClose_resetHeld (s : State) (h : Nat) : (s.drainClose h).resetHeld = s.resetHeld := by unfold State.drainClose; split <;> simp
@[simp] theorem drainClose_choices (s : State) (h : Nat) : (s.drainClose h).choices = s.choices := by unfold State.drainClose; split <;> simp
@[simp] theorem drainClose_pending (s : State) (h : Nat) : (s.drainClose h).pending = s.pending := by unfold State.drainClose; split <;> simp

/-! ### fillReport -/

@[simp] theorem fillReport_cb (s : State) : (s.fillReport).cb = s.cb := by unfold State.fillReport; repeat' (first | rfl | split)
@[simp] theorem fillReport_roster (s : State) : (s.fillReport).roster = s.roster := by unfold State.fillReport; repeat' (first | rfl | split)
@[simp] theorem fillReport_ee (s : State) : (s.fillReport).ee = s.ee := by unfold State.fillReport; repeat' (first | rfl | split)
@[simp] theorem fillReport_ua (s : State) : (s.fillReport).ua = s.ua := by unfold State.fillReport; repeat' (first | rfl | split)
@[simp] theorem fillReport_lw (s : State) : (s.fillReport).lw = s.lw := by unfold State.fillReport; repeat' (first | rfl | split)
@[simp] theorem fillReport_hu (s : State) : (s.fillReport).hu = s.hu := by unfold State.fillReport; repeat' (first | rfl | split)
@[simp] theorem fillReport_um (s : State) : (s.fillReport).um = s.um := by unfold State.fillReport; repeat' (first | rfl | split)
@[simp] theorem fillReport_il (s : State) : (s.fillReport).il = s.il := by unfold State.fillReport; repeat' (first | rfl | split)
@[simp] theorem fillReport_ports (s : State) : (s.fillReport).ports = s.ports := by unfold State.fillReport; repeat' (first | rfl | split)
@[simp] theorem fillReport_resetHeld (s : State) : (s.fillReport).resetHeld = s.resetHeld := by unfold State.fillReport; repeat' (first | rfl | split)
@[simp] theorem fillReport_pending (s : State) : (s.fillReport).pending = s.pending := by unfold State.fillReport; repeat' (first | rfl | split)

/-! ### fillUsage -/

@[simp] theorem fillUsage_cb (s : State) : (s.fillUsage).cb = s.cb := by unfold State.fillUsage; repeat' (first | rfl | split)
@[simp] theorem fillUsage_roster (s : State) : (s.fillUsage).roster = s.roster := by unfold State.fillUsage; repeat' (first | rfl | split)
@[simp] theorem fillUsage_ee (s : State) : (s.fillUsage).ee = s.ee := by unfold State.fillUsage; repeat' (first | rfl | split)
@[simp] theorem fillUsage_ua (s : State) : (s.fillUsage).ua = s.ua := by unfold State.fillUsage; repeat' (first | rfl | split)
@[simp] theorem fillUsage_lw (s : State) : (s.fillUsage).lw = s.lw := by unfold State.fillUsage; repeat' (first | rfl | split)
@[simp] theorem fillUsage_hu (s : State) : (s.fillUsage).hu = s.hu := by unfold State.fillUsage; repeat' (first | rfl | split)
@[simp] theorem fillUsage_um (s : State) : (s.fillUsage).um = s.um := by unfold State.fillUsage; repeat' (first | rfl | split)
@[simp] theorem fillUsage_il (s : State) : (s.fillUsage).il = s.il := by unfold State.fillUsage; repeat' (first | rfl | split)
@[simp] theorem fillUsage_ports (s : State) : (s.fillUsage).ports = s.ports := by unfold State.fillUsage; repeat' (first | rfl | split)
@[simp] theorem fillUsage_resetHeld (s : State) : (s.fillUsage).resetHeld = s.resetHeld := by unfold State.fillUsage; repeat' (first | rfl | split)
@[simp] theorem fillUsage_choices (s : State) : (s.fillUsage).choices = s.choices := by unfold State.fillUsage; repeat' (first | rfl | split)
@[simp] theorem fillUsage_pending (s : State) : (s.fillUsage).pending = s.pending := by unfold State.fillUsage; repeat' (first | rfl | split)

/-! ### choosePresenter, orderPresenters, presentNotices -/

@[simp] theorem choosePresenter_cb (s : State) : (s.choosePresenter).cb = s.cb := by unfold State.choosePresenter; split <;> rfl
@[simp] theorem choosePresenter_roster (s : State) : (s.choosePresenter).roster = s.roster := by unfold State.choosePresenter; split <;> rfl
@[simp] theorem choosePresenter_ee (s : State) : (s.choosePresenter).ee = s.ee := by unfold State.choosePresenter; split <;> rfl
@[simp] theorem choosePresenter_ua (s : State) : (s.choosePresenter).ua = s.ua := by unfold State.choosePresenter; split <;> rfl
@[simp] theorem choosePresenter_lw (s : State) : (s.choosePresenter).lw = s.lw := by unfold State.choosePresenter; split <;> rfl
@[simp] theorem choosePresenter_hu (s : State) : (s.choosePresenter).hu = s.hu := by unfold State.choosePresenter; split <;> rfl
@[simp] theorem choosePresenter_um (s : State) : (s.choosePresenter).um = s.um := by unfold State.choosePresenter; split <;> rfl
@[simp] theorem choosePresenter_il (s : State) : (s.choosePresenter).il = s.il := by unfold State.choosePresenter; split <;> rfl
@[simp] theorem choosePresenter_rq (s : State) : (s.choosePresenter).rq = s.rq := by unfold State.choosePresenter; split <;> rfl
@[simp] theorem choosePresenter_ports (s : State) : (s.choosePresenter).ports = s.ports := by unfold State.choosePresenter; split <;> rfl
@[simp] theorem choosePresenter_resetHeld (s : State) : (s.choosePresenter).resetHeld = s.resetHeld := by unfold State.choosePresenter; split <;> rfl
@[simp] theorem choosePresenter_pending (s : State) : (s.choosePresenter).pending = s.pending := by unfold State.choosePresenter; split <;> rfl

@[simp] theorem orderPresenters_cb (s : State) : (s.orderPresenters).cb = s.cb := by unfold State.orderPresenters; split <;> simp
@[simp] theorem orderPresenters_roster (s : State) : (s.orderPresenters).roster = s.roster := by unfold State.orderPresenters; split <;> simp
@[simp] theorem orderPresenters_ee (s : State) : (s.orderPresenters).ee = s.ee := by unfold State.orderPresenters; split <;> simp
@[simp] theorem orderPresenters_ua (s : State) : (s.orderPresenters).ua = s.ua := by unfold State.orderPresenters; split <;> simp
@[simp] theorem orderPresenters_lw (s : State) : (s.orderPresenters).lw = s.lw := by unfold State.orderPresenters; split <;> simp
@[simp] theorem orderPresenters_hu (s : State) : (s.orderPresenters).hu = s.hu := by unfold State.orderPresenters; split <;> simp
@[simp] theorem orderPresenters_um (s : State) : (s.orderPresenters).um = s.um := by unfold State.orderPresenters; split <;> simp
@[simp] theorem orderPresenters_il (s : State) : (s.orderPresenters).il = s.il := by unfold State.orderPresenters; split <;> simp
@[simp] theorem orderPresenters_rq (s : State) : (s.orderPresenters).rq = s.rq := by unfold State.orderPresenters; split <;> simp
@[simp] theorem orderPresenters_ports (s : State) : (s.orderPresenters).ports = s.ports := by unfold State.orderPresenters; split <;> simp
@[simp] theorem orderPresenters_resetHeld (s : State) : (s.orderPresenters).resetHeld = s.resetHeld := by unfold State.orderPresenters; split <;> simp
@[simp] theorem orderPresenters_pending (s : State) : (s.orderPresenters).pending = s.pending := by unfold State.orderPresenters; split <;> simp

@[simp] theorem presentNotices_cb (s : State) : (s.presentNotices).cb = s.cb := rfl
@[simp] theorem presentNotices_roster (s : State) : (s.presentNotices).roster = s.roster := rfl
@[simp] theorem presentNotices_ee (s : State) : (s.presentNotices).ee = s.ee := rfl
@[simp] theorem presentNotices_ua (s : State) : (s.presentNotices).ua = s.ua := rfl
@[simp] theorem presentNotices_lw (s : State) : (s.presentNotices).lw = s.lw := rfl
@[simp] theorem presentNotices_hu (s : State) : (s.presentNotices).hu = s.hu := rfl
@[simp] theorem presentNotices_um (s : State) : (s.presentNotices).um = s.um := rfl
@[simp] theorem presentNotices_il (s : State) : (s.presentNotices).il = s.il := rfl
@[simp] theorem presentNotices_ports (s : State) : (s.presentNotices).ports = s.ports := rfl
@[simp] theorem presentNotices_resetHeld (s : State) : (s.presentNotices).resetHeld = s.resetHeld := rfl
@[simp] theorem presentNotices_pending (s : State) : (s.presentNotices).pending = s.pending := rfl

/-! ### settle -/

@[simp] theorem settle_cb (s : State) : (s.settle).cb = s.cb := by unfold State.settle; simp
@[simp] theorem settle_roster (s : State) : (s.settle).roster = s.roster := by unfold State.settle; simp
@[simp] theorem settle_ee (s : State) : (s.settle).ee = s.ee := by unfold State.settle; simp
@[simp] theorem settle_ua (s : State) : (s.settle).ua = s.ua := by unfold State.settle; simp
@[simp] theorem settle_lw (s : State) : (s.settle).lw = s.lw := by unfold State.settle; simp
@[simp] theorem settle_hu (s : State) : (s.settle).hu = s.hu := by unfold State.settle; simp
@[simp] theorem settle_um (s : State) : (s.settle).um = s.um := by unfold State.settle; simp
@[simp] theorem settle_il (s : State) : (s.settle).il = s.il := by unfold State.settle; simp
@[simp] theorem settle_ports (s : State) : (s.settle).ports = s.ports := by unfold State.settle; simp
@[simp] theorem settle_resetHeld (s : State) : (s.settle).resetHeld = s.resetHeld := by unfold State.settle; simp
@[simp] theorem settle_pending (s : State) : (s.settle).pending = s.pending := by unfold State.settle; simp

/-! ### openHunt -/

@[simp] theorem openHunt_cb (s : State) : (s.openHunt).cb = s.cb := by unfold State.openHunt; split <;> rfl
@[simp] theorem openHunt_roster (s : State) : (s.openHunt).roster = s.roster := by unfold State.openHunt; split <;> rfl
@[simp] theorem openHunt_ee (s : State) : (s.openHunt).ee = s.ee := by unfold State.openHunt; split <;> rfl
@[simp] theorem openHunt_ua (s : State) : (s.openHunt).ua = s.ua := by unfold State.openHunt; split <;> rfl
@[simp] theorem openHunt_lw (s : State) : (s.openHunt).lw = s.lw := by unfold State.openHunt; split <;> rfl
@[simp] theorem openHunt_um (s : State) : (s.openHunt).um = s.um := by unfold State.openHunt; split <;> rfl
@[simp] theorem openHunt_rq (s : State) : (s.openHunt).rq = s.rq := by unfold State.openHunt; split <;> rfl
@[simp] theorem openHunt_il (s : State) : (s.openHunt).il = s.il := by unfold State.openHunt; split <;> rfl
@[simp] theorem openHunt_ports (s : State) : (s.openHunt).ports = s.ports := by unfold State.openHunt; split <;> rfl
@[simp] theorem openHunt_resetHeld (s : State) : (s.openHunt).resetHeld = s.resetHeld := by unfold State.openHunt; split <;> rfl
@[simp] theorem openHunt_choices (s : State) : (s.openHunt).choices = s.choices := by unfold State.openHunt; split <;> rfl
@[simp] theorem openHunt_pending (s : State) : (s.openHunt).pending = s.pending := by unfold State.openHunt; split <;> rfl

/-! ### yieldOpening -/

@[simp] theorem yieldOpening_cb (s : State) : (s.yieldOpening).cb = s.cb := by unfold State.yieldOpening; split <;> rfl
@[simp] theorem yieldOpening_roster (s : State) : (s.yieldOpening).roster = s.roster := by unfold State.yieldOpening; split <;> rfl
@[simp] theorem yieldOpening_ee (s : State) : (s.yieldOpening).ee = s.ee := by unfold State.yieldOpening; split <;> rfl
@[simp] theorem yieldOpening_ua (s : State) : (s.yieldOpening).ua = s.ua := by unfold State.yieldOpening; split <;> rfl
@[simp] theorem yieldOpening_lw (s : State) : (s.yieldOpening).lw = s.lw := by unfold State.yieldOpening; split <;> rfl
@[simp] theorem yieldOpening_um (s : State) : (s.yieldOpening).um = s.um := by unfold State.yieldOpening; split <;> rfl
@[simp] theorem yieldOpening_rq (s : State) : (s.yieldOpening).rq = s.rq := by unfold State.yieldOpening; split <;> rfl
@[simp] theorem yieldOpening_il (s : State) : (s.yieldOpening).il = s.il := by unfold State.yieldOpening; split <;> rfl
@[simp] theorem yieldOpening_ports (s : State) : (s.yieldOpening).ports = s.ports := by unfold State.yieldOpening; split <;> rfl
@[simp] theorem yieldOpening_resetHeld (s : State) : (s.yieldOpening).resetHeld = s.resetHeld := by unfold State.yieldOpening; split <;> rfl
@[simp] theorem yieldOpening_choices (s : State) : (s.yieldOpening).choices = s.choices := by unfold State.yieldOpening; split <;> rfl
@[simp] theorem yieldOpening_pending (s : State) : (s.yieldOpening).pending = s.pending := by unfold State.yieldOpening; split <;> rfl

/-! ### takeDeferred -/

@[simp] theorem takeDeferred_cb (s : State) : (s.takeDeferred).cb = s.cb := by unfold State.takeDeferred; simp only []; repeat' (first | rfl | split | simp)
@[simp] theorem takeDeferred_roster (s : State) : (s.takeDeferred).roster = s.roster := by unfold State.takeDeferred; simp only []; repeat' (first | rfl | split | simp)
@[simp] theorem takeDeferred_ee (s : State) : (s.takeDeferred).ee = s.ee := by unfold State.takeDeferred; simp only []; repeat' (first | rfl | split | simp)
@[simp] theorem takeDeferred_ua (s : State) : (s.takeDeferred).ua = s.ua := by unfold State.takeDeferred; simp only []; repeat' (first | rfl | split | simp)
@[simp] theorem takeDeferred_lw (s : State) : (s.takeDeferred).lw = s.lw := by unfold State.takeDeferred; simp only []; repeat' (first | rfl | split | simp)
@[simp] theorem takeDeferred_um (s : State) : (s.takeDeferred).um = s.um := by unfold State.takeDeferred; simp only []; repeat' (first | rfl | split | simp)
@[simp] theorem takeDeferred_rq (s : State) : (s.takeDeferred).rq = s.rq := by unfold State.takeDeferred; simp only []; repeat' (first | rfl | split | simp)
@[simp] theorem takeDeferred_il (s : State) : (s.takeDeferred).il = s.il := by unfold State.takeDeferred; simp only []; repeat' (first | rfl | split | simp)
@[simp] theorem takeDeferred_ports (s : State) : (s.takeDeferred).ports = s.ports := by unfold State.takeDeferred; simp only []; repeat' (first | rfl | split | simp)
@[simp] theorem takeDeferred_resetHeld (s : State) : (s.takeDeferred).resetHeld = s.resetHeld := by unfold State.takeDeferred; simp only []; repeat' (first | rfl | split | simp)
@[simp] theorem takeDeferred_choices (s : State) : (s.takeDeferred).choices = s.choices := by unfold State.takeDeferred; simp only []; repeat' (first | rfl | split | simp)
@[simp] theorem takeDeferred_pending (s : State) : (s.takeDeferred).pending = s.pending := by unfold State.takeDeferred; simp only []; repeat' (first | rfl | split | simp)

/-! ### ownCarried -/

@[simp] theorem ownCarried_cb (s : State) : (s.ownCarried).cb = s.cb := by unfold State.ownCarried; split <;> simp
@[simp] theorem ownCarried_roster (s : State) : (s.ownCarried).roster = s.roster := by unfold State.ownCarried; split <;> simp
@[simp] theorem ownCarried_ee (s : State) : (s.ownCarried).ee = s.ee := by unfold State.ownCarried; split <;> simp
@[simp] theorem ownCarried_ua (s : State) : (s.ownCarried).ua = s.ua := by unfold State.ownCarried; split <;> simp
@[simp] theorem ownCarried_lw (s : State) : (s.ownCarried).lw = s.lw := by unfold State.ownCarried; split <;> simp
@[simp] theorem ownCarried_hu (s : State) : (s.ownCarried).hu = s.hu := by unfold State.ownCarried; split <;> simp
@[simp] theorem ownCarried_um (s : State) : (s.ownCarried).um = s.um := by unfold State.ownCarried; split <;> simp
@[simp] theorem ownCarried_il (s : State) : (s.ownCarried).il = s.il := by unfold State.ownCarried; split <;> simp
@[simp] theorem ownCarried_resetHeld (s : State) : (s.ownCarried).resetHeld = s.resetHeld := by unfold State.ownCarried; split <;> simp
@[simp] theorem ownCarried_choices (s : State) : (s.ownCarried).choices = s.choices := by unfold State.ownCarried; split <;> simp
@[simp] theorem ownCarried_pending (s : State) : (s.ownCarried).pending = s.pending := by unfold State.ownCarried; split <;> simp

end Sys2Proof.Machine
end

