-- ==== Sys2Proof/Laws/Exec.lean ====
section
/-! SUPPORT. The machine stops nowhere: every command answers a next state, in every state. -/

namespace Sys2Proof.Machine

/-- The outcome is a next state. -/
def Continues (o : Host.Outcome State Fault Refusal) : Prop := ∃ t, o = .next t

theorem continues_next (t : State) : Continues (.next t) := ⟨t, rfl⟩

theorem hearNotice_continues (src : Source) (n : Notice) (act : State → State) (s : State) :
    Continues (hearNotice src n act s) := by
  unfold hearNotice
  split
  · exact continues_next _
  · split
    · split <;> exact continues_next _
    · exact continues_next _

theorem request_continues {α : Type} (kind : RequestKind) (hd : RequestHeader) (args : Option α) (act : α → State → Answer)
    (s : State) : Continues (request kind hd args act s) := by
  unfold request
  repeat' split
  all_goals exact continues_next _

theorem broadcast_continues {α : Type} (hd : RequestHeader) (args : Option α) (act : α → State → State) (s : State) :
    Continues (broadcast hd args act s) := by
  unfold broadcast
  repeat' split
  all_goals exact continues_next _

theorem execImageLoadComplete_continues (words : List ImageWord) (s : State) :
    Continues (execImageLoadComplete words s) := by
  unfold execImageLoadComplete
  repeat' split
  all_goals exact continues_next _

theorem execNoImage_continues (s : State) :
    Continues (execNoImage s) := by
  unfold execNoImage
  repeat' split
  all_goals exact continues_next _

theorem execCycleStart_continues (s : State) :
    Continues (execCycleStart s) := by
  unfold execCycleStart
  repeat' split
  all_goals exact continues_next _

theorem execMessageFailure_continues (handle : Nat) (s : State) :
    Continues (execMessageFailure handle s) := by
  unfold execMessageFailure
  repeat' split
  all_goals exact continues_next _

theorem execReleaseDropped_continues (handle : Nat) (s : State) :
    Continues (execReleaseDropped handle s) := by
  unfold execReleaseDropped
  repeat' split
  all_goals exact continues_next _

theorem execDataRangeObservation_continues (window : WindowRef) (obs : BurstObs) (s : State) :
    Continues (execDataRangeObservation window obs s) := by
  unfold execDataRangeObservation
  repeat' split
  all_goals exact continues_next _

theorem execDiscoverObservation_continues (window : WindowRef) (obs : DiscoverObs) (s : State) :
    Continues (execDiscoverObservation window obs s) := by
  unfold execDiscoverObservation
  repeat' split
  all_goals exact continues_next _

theorem execQuietObservation_continues (window : WindowRef) (light : Bool) (s : State) :
    Continues (execQuietObservation window light s) := by
  unfold execQuietObservation
  repeat' split
  all_goals exact continues_next _

theorem execDownstreamPacket_continues (handle label bytes : Nat) (s : State) :
    Continues (execDownstreamPacket handle label bytes s) := by
  unfold execDownstreamPacket
  repeat' split
  all_goals exact continues_next _

theorem execCarriedIgnoredFrame_continues (cls : BitVec 3) (sender : Station) (kind : BitVec 4) (s : State) :
    Continues (execCarriedIgnoredFrame cls sender kind s) := by
  unfold execCarriedIgnoredFrame
  split <;> exact continues_next _

theorem execFrameCheckFailed_continues (frame : RawFrame) (s : State) :
    Continues (execFrameCheckFailed frame s) := by
  unfold execFrameCheckFailed
  repeat' split
  all_goals exact continues_next _

theorem execLineIdleContend_continues (rival : Option (BitVec 11)) (s : State) :
    Continues (execLineIdleContend rival s) := by
  unfold execLineIdleContend
  repeat' split
  all_goals exact continues_next _

theorem execOwnFrameVoided_continues (droveVoid : Bool) (s : State) :
    Continues (execOwnFrameVoided droveVoid s) := by
  unfold execOwnFrameVoided
  repeat' split
  all_goals exact continues_next _

theorem execDetachTimerExpiry_continues (s : State) :
    Continues (execDetachTimerExpiry s) := by
  unfold execDetachTimerExpiry
  repeat' split
  all_goals exact continues_next _

theorem execResultCarried_continues (straps : Station) (s : State) :
    Continues (execResultCarried straps s) := by
  unfold execResultCarried
  repeat' split
  all_goals exact continues_next _

theorem execReportCarried_continues (s : State) :
    Continues (execReportCarried s) := by
  unfold execReportCarried
  repeat' split
  all_goals exact continues_next _

theorem execUsageFirstPartCarried_continues (s : State) :
    Continues (execUsageFirstPartCarried s) := by
  unfold execUsageFirstPartCarried
  repeat' split
  all_goals exact continues_next _

theorem execUsageRecordCarried_continues (s : State) :
    Continues (execUsageRecordCarried s) := by
  unfold execUsageRecordCarried
  repeat' split
  all_goals exact continues_next _

theorem execDrainComplete_continues (straps : Station) (s : State) :
    Continues (execDrainComplete straps s) := by
  unfold execDrainComplete
  repeat' split
  all_goals exact continues_next _

theorem execDrainTimerExpiry_continues (straps : Station) (s : State) :
    Continues (execDrainTimerExpiry straps s) := by
  unfold execDrainTimerExpiry
  repeat' split
  all_goals exact continues_next _

theorem execClaimHoldExpiry_continues (handle : Nat) (s : State) :
    Continues (execClaimHoldExpiry handle s) := by
  unfold execClaimHoldExpiry
  repeat' split
  all_goals exact continues_next _

theorem execLostTimerExpiry_continues (handle : Nat) (s : State) :
    Continues (execLostTimerExpiry handle s) := by
  unfold execLostTimerExpiry
  repeat' split
  all_goals exact continues_next _

theorem execHandoverTimerExpiry_continues (handle : Nat) (s : State) :
    Continues (execHandoverTimerExpiry handle s) := by
  unfold execHandoverTimerExpiry
  repeat' split
  all_goals exact continues_next _

theorem execInboundTimerExpiry_continues (handle : Nat) (s : State) :
    Continues (execInboundTimerExpiry handle s) := by
  unfold execInboundTimerExpiry
  repeat' split
  all_goals exact continues_next _

theorem execGuardExpiry_continues (s : State) :
    Continues (execGuardExpiry s) := by
  unfold execGuardExpiry
  repeat' split
  all_goals exact continues_next _

theorem execJoinTimerExpiry_continues (s : State) :
    Continues (execJoinTimerExpiry s) := by
  unfold execJoinTimerExpiry
  repeat' split
  all_goals exact continues_next _

theorem execReadyTimerExpiry_continues (s : State) :
    Continues (execReadyTimerExpiry s) := by
  unfold execReadyTimerExpiry
  repeat' split
  all_goals exact continues_next _

theorem execListeningTimerExpiry_continues (s : State) :
    Continues (execListeningTimerExpiry s) := by
  unfold execListeningTimerExpiry
  repeat' split
  all_goals exact continues_next _

theorem execRepeatTimerExpiry_continues (source : AlarmSource) (s : State) :
    Continues (execRepeatTimerExpiry source s) := by
  unfold execRepeatTimerExpiry
  repeat' split
  all_goals exact continues_next _

theorem execClaim_continues (src : Source) (serial : Serial) (channel : Nat) (s : State) : Continues (execClaim src serial channel s) := by
  unfold execClaim
  exact hearNotice_continues ..

theorem execHeld_continues (src : Source) (serial : Serial) (channel : Nat) (s : State) : Continues (execHeld src serial channel s) := by
  unfold execHeld
  exact hearNotice_continues ..

theorem execOffer_continues (src : Source) (serial : Serial) (fromChannel toChannel assured peak weight eqDelay : Nat) (s : State) : Continues (execOffer src serial fromChannel toChannel assured peak weight eqDelay s) := by
  unfold execOffer
  exact hearNotice_continues ..

theorem execAccept_continues (src : Source) (serial : Serial) (channel newHandle : Nat) (s : State) : Continues (execAccept src serial channel newHandle s) := by
  unfold execAccept
  exact hearNotice_continues ..

theorem execRefuse_continues (src : Source) (serial : Serial) (channel : Nat) (reason : RefuseReason) (s : State) : Continues (execRefuse src serial channel reason s) := by
  unfold execRefuse
  exact hearNotice_continues ..

theorem execAccount_continues (src : Source) (serial : Serial) (fromChannel : Nat) (mode : Mode) (credit base lowWater residueUp residueDown period : Nat) (s : State) : Continues (execAccount src serial fromChannel mode credit base lowWater residueUp residueDown period s) := by
  unfold execAccount
  exact hearNotice_continues ..

theorem execTaken_continues (src : Source) (serial : Serial) (channel : Nat) (s : State) : Continues (execTaken src serial channel s) := by
  unfold execTaken
  exact hearNotice_continues ..

theorem execReclaim_continues (src : Source) (serial : Serial) (fromChannel : Nat) (s : State) : Continues (execReclaim src serial fromChannel s) := by
  unfold execReclaim
  exact hearNotice_continues ..

theorem execHuntOpen_continues (src : Source) (id : HuntId) (s : State) : Continues (execHuntOpen src id s) := by
  unfold execHuntOpen
  exact hearNotice_continues ..

theorem execHuntJoin_continues (src : Source) (id : HuntId) (channel count : Nat) (s : State) : Continues (execHuntJoin src id channel count s) := by
  unfold execHuntJoin
  exact hearNotice_continues ..

theorem execHuntStep_continues (src : Source) (id : HuntId) (step : Nat) (selector : Selector) (s : State) : Continues (execHuntStep src id step selector s) := by
  unfold execHuntStep
  exact hearNotice_continues ..

theorem execHuntReady_continues (src : Source) (id : HuntId) (channel step : Nat) (named : Option HomeRef) (s : State) : Continues (execHuntReady src id channel step named s) := by
  unfold execHuntReady
  exact hearNotice_continues ..

theorem execHuntClose_continues (src : Source) (id : HuntId) (outcome : HuntOutcome) (s : State) : Continues (execHuntClose src id outcome s) := by
  unfold execHuntClose
  exact hearNotice_continues ..

theorem execPresent_continues (src : Source) (channel : Nat) (incumbent : Bool) (s : State) : Continues (execPresent src channel incumbent s) := by
  unfold execPresent
  exact hearNotice_continues ..

theorem execSetProfile_continues (hd : RequestHeader) (data : List Byte) (s : State) : Continues (execSetProfile hd data s) := by
  unfold execSetProfile
  exact request_continues ..

theorem execSetAccount_continues (hd : RequestHeader) (data : List Byte) (s : State) : Continues (execSetAccount hd data s) := by
  unfold execSetAccount
  exact request_continues ..

theorem execRefill_continues (hd : RequestHeader) (data : List Byte) (s : State) : Continues (execRefill hd data s) := by
  unfold execRefill
  exact request_continues ..

theorem execMove_continues (hd : RequestHeader) (data : List Byte) (s : State) : Continues (execMove hd data s) := by
  unfold execMove
  exact request_continues ..

theorem execRemove_continues (hd : RequestHeader) (data : List Byte) (s : State) : Continues (execRemove hd data s) := by
  unfold execRemove
  exact request_continues ..

theorem execHold_continues (hd : RequestHeader) (data : List Byte) (s : State) : Continues (execHold hd data s) := by
  unfold execHold
  exact request_continues ..

theorem execClearHold_continues (hd : RequestHeader) (data : List Byte) (s : State) : Continues (execClearHold hd data s) := by
  unfold execClearHold
  exact request_continues ..

theorem execQueryHome_continues (hd : RequestHeader) (data : List Byte) (s : State) : Continues (execQueryHome hd data s) := by
  unfold execQueryHome
  exact request_continues ..

theorem execListHomes_continues (hd : RequestHeader) (data : List Byte) (s : State) : Continues (execListHomes hd data s) := by
  unfold execListHomes
  exact request_continues ..

theorem execSetTariff_continues (hd : RequestHeader) (data : List Byte) (guardPin : Bool) (s : State) : Continues (execSetTariff hd data guardPin s) := by
  unfold execSetTariff
  exact request_continues ..

theorem execFixTariff_continues (hd : RequestHeader) (data : List Byte) (guardPin : Bool) (s : State) : Continues (execFixTariff hd data guardPin s) := by
  unfold execFixTariff
  exact request_continues ..

theorem execSetDiscovery_continues (hd : RequestHeader) (data : List Byte) (s : State) : Continues (execSetDiscovery hd data s) := by
  unfold execSetDiscovery
  exact request_continues ..

theorem execStartHunt_continues (hd : RequestHeader) (data : List Byte) (s : State) : Continues (execStartHunt hd data s) := by
  unfold execStartHunt
  exact request_continues ..

theorem execRestart_continues (hd : RequestHeader) (data : List Byte) (s : State) : Continues (execRestart hd data s) := by
  unfold execRestart
  exact request_continues ..

theorem execBand_continues (hd : RequestHeader) (data : List Byte) (s : State) : Continues (execBand hd data s) := by
  unfold execBand
  exact broadcast_continues ..

theorem execClosePeriod_continues (hd : RequestHeader) (data : List Byte) (s : State) : Continues (execClosePeriod hd data s) := by
  unfold execClosePeriod
  exact broadcast_continues ..

theorem execSetFreeLabels_continues (hd : RequestHeader) (data : List Byte) (s : State) : Continues (execSetFreeLabels hd data s) := by
  unfold execSetFreeLabels
  exact broadcast_continues ..

theorem execPowerOnReset_continues (straps : Station) (s : State) : Continues (execPowerOnReset straps s) := continues_next _

theorem execResetAsserted_continues (s : State) : Continues (execResetAsserted s) := continues_next _

/-- Every command answers a next state. -/
theorem exec_continues (i : Instr) (s : State) : Continues (exec i s) := by
  cases i with
  | claim src serial channel => exact execClaim_continues src serial channel s
  | held src serial channel => exact execHeld_continues src serial channel s
  | offer src serial fromChannel toChannel assured peak weight eqDelay => exact execOffer_continues src serial fromChannel toChannel assured peak weight eqDelay s
  | accept src serial channel newHandle => exact execAccept_continues src serial channel newHandle s
  | refuse src serial channel reason => exact execRefuse_continues src serial channel reason s
  | account src serial fromChannel mode credit base lowWater residueUp residueDown period => exact execAccount_continues src serial fromChannel mode credit base lowWater residueUp residueDown period s
  | taken src serial channel => exact execTaken_continues src serial channel s
  | reclaim src serial fromChannel => exact execReclaim_continues src serial fromChannel s
  | huntOpen src id => exact execHuntOpen_continues src id s
  | huntJoin src id channel count => exact execHuntJoin_continues src id channel count s
  | huntStep src id step selector => exact execHuntStep_continues src id step selector s
  | huntReady src id channel step named => exact execHuntReady_continues src id channel step named s
  | huntClose src id outcome => exact execHuntClose_continues src id outcome s
  | present src channel incumbent => exact execPresent_continues src channel incumbent s
  | setProfile hd data => exact execSetProfile_continues hd data s
  | setAccount hd data => exact execSetAccount_continues hd data s
  | refill hd data => exact execRefill_continues hd data s
  | move hd data => exact execMove_continues hd data s
  | remove hd data => exact execRemove_continues hd data s
  | hold hd data => exact execHold_continues hd data s
  | clearHold hd data => exact execClearHold_continues hd data s
  | queryHome hd data => exact execQueryHome_continues hd data s
  | listHomes hd data => exact execListHomes_continues hd data s
  | setTariff hd data guardPin => exact execSetTariff_continues hd data guardPin s
  | fixTariff hd data guardPin => exact execFixTariff_continues hd data guardPin s
  | setDiscovery hd data => exact execSetDiscovery_continues hd data s
  | startHunt hd data => exact execStartHunt_continues hd data s
  | restart hd data => exact execRestart_continues hd data s
  | band hd data => exact execBand_continues hd data s
  | closePeriod hd data => exact execClosePeriod_continues hd data s
  | setFreeLabels hd data => exact execSetFreeLabels_continues hd data s
  | powerOnReset straps => exact execPowerOnReset_continues straps s
  | resetAsserted => exact execResetAsserted_continues s
  | imageLoadComplete words => exact execImageLoadComplete_continues words s
  | noImage => exact execNoImage_continues s
  | cycleStart => exact execCycleStart_continues s
  | messageFailure handle => exact execMessageFailure_continues handle s
  | releaseDropped handle => exact execReleaseDropped_continues handle s
  | dataRangeObservation window obs => exact execDataRangeObservation_continues window obs s
  | discoverObservation window obs => exact execDiscoverObservation_continues window obs s
  | quietObservation window light => exact execQuietObservation_continues window light s
  | downstreamPacket handle label bytes => exact execDownstreamPacket_continues handle label bytes s
  | carriedIgnoredFrame cls sender kind => exact execCarriedIgnoredFrame_continues cls sender kind s
  | frameCheckFailed frame => exact execFrameCheckFailed_continues frame s
  | lineIdleContend rival => exact execLineIdleContend_continues rival s
  | ownFrameVoided droveVoid => exact execOwnFrameVoided_continues droveVoid s
  | detachTimerExpiry => exact execDetachTimerExpiry_continues s
  | resultCarried straps => exact execResultCarried_continues straps s
  | reportCarried => exact execReportCarried_continues s
  | usageFirstPartCarried => exact execUsageFirstPartCarried_continues s
  | usageRecordCarried => exact execUsageRecordCarried_continues s
  | drainComplete straps => exact execDrainComplete_continues straps s
  | drainTimerExpiry straps => exact execDrainTimerExpiry_continues straps s
  | claimHoldExpiry handle => exact execClaimHoldExpiry_continues handle s
  | lostTimerExpiry handle => exact execLostTimerExpiry_continues handle s
  | handoverTimerExpiry handle => exact execHandoverTimerExpiry_continues handle s
  | inboundTimerExpiry handle => exact execInboundTimerExpiry_continues handle s
  | guardExpiry => exact execGuardExpiry_continues s
  | joinTimerExpiry => exact execJoinTimerExpiry_continues s
  | readyTimerExpiry => exact execReadyTimerExpiry_continues s
  | listeningTimerExpiry => exact execListeningTimerExpiry_continues s
  | repeatTimerExpiry source => exact execRepeatTimerExpiry_continues source s

end Sys2Proof.Machine
end

