-- ==== Sys2Proof/Laws/Offering.lean ====
section
/-! SUPPORT. What the end of a command can do: notices are presented and the offer slots filled, and nothing else changes (R168, R176, R183, R184). -/

namespace Sys2Proof.Machine

/-! ### Notices (R176) -/

/-- A producer's notices as the port holds them. -/
def LinePort.outgoing (p : LinePort) (who : Producer) : List Notice :=
  ((p.noticeSlot.toList.map SlotNotice.notice).filter fun n => n.producer = who) ++
    (p.presented.filter fun n => n.producer = who) ++ p.queue who

theorem outgoing_eq (s : State) (who : Producer) : s.outgoing who = s.slp.outgoing who := rfl

/-- The port without what offering notices may change. -/
def LinePort.bareNotices (p : LinePort) : LinePort := { p with queued := [], presented := [], noticeSlot := none }

theorem holds_false (p : LinePort) (who : Producer) (h : p.holds who = false) :
    ((p.noticeSlot.toList.map SlotNotice.notice).filter fun n => n.producer = who) = [] ∧
      (p.presented.filter fun n => n.producer = who) = [] := by
  unfold LinePort.holds at h
  rw [Bool.or_eq_false_iff] at h
  constructor
  · cases hs : p.noticeSlot with
    | none => rfl
    | some x =>
      have h2 := h.2
      rw [hs] at h2
      simpa using h2
  · rw [List.filter_eq_nil_iff]
    intro n hn
    have := (List.any_eq_false.mp h.1) n hn
    simpa using this

theorem presentOne_bare (p : LinePort) (who : Producer) : (p.presentOne who).bareNotices = p.bareNotices := by
  unfold LinePort.presentOne
  split
  · rfl
  · split <;> rfl

theorem presentOne_slot (p : LinePort) (who : Producer) : (p.presentOne who).noticeSlot = p.noticeSlot := by
  unfold LinePort.presentOne
  split
  · rfl
  · split <;> rfl

/-- Taking the first of a producer's notices out of a list leaves the others' alone and drops it from its own. -/
theorem filter_eraseP {α : Type} (q : α → Bool) (xs : List α) (x : α) (hx : xs.find? q = some x) :
    xs.filter q = x :: (xs.eraseP q).filter q ∧
      ∀ r : α → Bool, (∀ y, q y = true → r y = false) → (xs.eraseP q).filter r = xs.filter r := by
  induction xs with
  | nil => simp at hx
  | cons y ys ih =>
    by_cases hy : q y = true
    · rw [List.find?_cons_of_pos hy] at hx
      cases hx
      rw [List.eraseP_cons_of_pos hy, List.filter_cons_of_pos hy]
      exact ⟨rfl, fun r hr => by rw [List.filter_cons_of_neg (by simp [hr x hy])]⟩
    · rw [List.find?_cons_of_neg hy] at hx
      obtain ⟨h1, h2⟩ := ih hx
      rw [List.eraseP_cons_of_neg hy]
      refine ⟨by rw [List.filter_cons_of_neg hy, List.filter_cons_of_neg hy]; exact h1, fun r hr => ?_⟩
      by_cases hr' : r y = true
      · rw [List.filter_cons_of_pos hr', List.filter_cons_of_pos hr', h2 r hr]
      · rw [List.filter_cons_of_neg hr', List.filter_cons_of_neg hr', h2 r hr]

/-- Presenting keeps every producer's notices in order. -/
theorem presentOne_outgoing (p : LinePort) (who other : Producer) :
    (p.presentOne who).outgoing other = p.outgoing other := by
  unfold LinePort.presentOne
  split
  · rfl
  · rename_i hh
    rw [Bool.not_eq_true, Bool.or_eq_false_iff] at hh
    replace hh := hh.1
    split
    · rfl
    · rename_i n hn
      obtain ⟨h1, h2⟩ := filter_eraseP _ _ _ hn
      have hp : n.producer = who := by simpa using List.find?_some hn
      unfold LinePort.outgoing LinePort.queue
      by_cases ho : other = who
      · subst ho
        rw [h1, (holds_false p other hh).1, List.filter_append, (holds_false p other hh).2]
        simp [hp]
      · have hne : n.producer ≠ other := by rw [hp]; exact fun e => ho e.symm
        have h3 := h2 (fun m => decide (m.producer = other)) (fun y hy => by
          simp only [decide_eq_true_eq] at hy
          simp only [decide_eq_false_iff_not]
          rw [hy]; exact fun e => ho e.symm)
        simp only [List.filter_append, h3]
        simp [hne]

theorem presentOne_line (p : LinePort) (who : Producer) : (p.presentOne who).lineState = p.lineState := by
  have h : (p.presentOne who).bareNotices.lineState = p.bareNotices.lineState := by rw [presentOne_bare]
  exact h

@[simp] theorem presentOne_holdsBack (p : LinePort) (who other : Producer) :
    (p.presentOne who).holdsBack other = p.holdsBack other := by
  unfold LinePort.holdsBack
  rw [presentOne_line]

/-- While the port is DETACHED no producer's presenting touches the Enrolment Engine's queue (R59). -/
theorem presentOne_heldBack (p : LinePort) (who : Producer) (h : p.lineState = .detached) :
    (p.presentOne who).queue .enrolment = p.queue .enrolment := by
  unfold LinePort.presentOne
  split
  · rfl
  · rename_i hh
    rw [Bool.not_eq_true, Bool.or_eq_false_iff] at hh
    have hne : who ≠ .enrolment := by
      intro e
      have := hh.2
      simp [LinePort.holdsBack, e, h] at this
    split
    · rfl
    · rename_i n hn
      exact (filter_eraseP _ _ _ hn).2 (fun m => decide (m.producer = .enrolment)) (fun y hy => by
        simp only [decide_eq_true_eq] at hy
        simp only [decide_eq_false_iff_not]
        rw [hy]; exact hne)

/-- After a producer that is not held back has presented, nothing with the port means nothing queued. -/
theorem presentOne_done (p : LinePort) (who : Producer) (hb : p.holdsBack who = false)
    (h : (p.presentOne who).holds who = false) : (p.presentOne who).queue who = [] := by
  by_cases hh : p.holds who = true
  · have e : p.presentOne who = p := by unfold LinePort.presentOne; rw [if_pos (by rw [hh]; rfl)]
    rw [e, hh] at h
    exact absurd h (by decide)
  · have e : p.presentOne who = match p.queued.find? fun n => n.producer = who with
        | none => p
        | some n => { p with queued := p.queued.eraseP fun n => n.producer = who, presented := p.presented ++ [n] } := by
      unfold LinePort.presentOne
      exact if_neg (by rw [hb, Bool.or_false]; exact hh)
    rw [e] at h ⊢
    cases hf : p.queued.find? fun n => n.producer = who with
    | none =>
      rw [hf] at h
      dsimp only
      rw [LinePort.queue, List.filter_eq_nil_iff]
      intro n hn
      simpa using (List.find?_eq_none.mp hf) n hn
    | some n =>
      rw [hf] at h
      have hp : n.producer = who := by simpa using List.find?_some hf
      exfalso
      simp [LinePort.holds, hp] at h

/-- The port after all producers have presented, before the slot is filled. -/
def LinePort.presentFour (p : LinePort) : LinePort :=
  (((p.presentOne .enrolment).presentOne .transfer).presentOne .hunt).presentOne .loader

theorem presentAll_eq (p : LinePort) : p.presentAll = p.presentFour.fillNotice := rfl

theorem presentFour_outgoing (p : LinePort) (who : Producer) : p.presentFour.outgoing who = p.outgoing who := by
  simp only [LinePort.presentFour, presentOne_outgoing]

theorem presentFour_bare (p : LinePort) : p.presentFour.bareNotices = p.bareNotices := by
  simp only [LinePort.presentFour, presentOne_bare]

theorem presentFour_slot (p : LinePort) : p.presentFour.noticeSlot = p.noticeSlot := by
  simp only [LinePort.presentFour, presentOne_slot]

theorem presented_grows (p : LinePort) (who : Producer) : ∃ l, (p.presentOne who).presented = p.presented ++ l := by
  unfold LinePort.presentOne
  split
  · exact ⟨[], by simp⟩
  · split
    · exact ⟨[], by simp⟩
    · exact ⟨_, rfl⟩

/-- With the slot empty and nothing presented once all have presented, no producer that is not held back has a notice left. -/
theorem presentFour_empty (p : LinePort) (hs : p.presentFour.noticeSlot = none) (hp : p.presentFour.presented = [])
    (who : Producer) (hb : p.holdsBack who = false) : p.presentFour.outgoing who = [] := by
  have hs0 : p.noticeSlot = none := by rw [← presentFour_slot p]; exact hs
  have nil {a b : List Notice} (h : ∃ l, a = b ++ l) (ha : a = []) : b = [] := by
    obtain ⟨l, hl⟩ := h
    rw [ha] at hl
    exact (List.append_eq_nil_iff.mp hl.symm).1
  have h4 : (((p.presentOne .enrolment).presentOne .transfer).presentOne .hunt).presented = [] :=
    nil (presented_grows _ .loader) hp
  have h3 : ((p.presentOne .enrolment).presentOne .transfer).presented = [] := nil (presented_grows _ .hunt) h4
  have h2 : (p.presentOne .enrolment).presented = [] := nil (presented_grows _ .transfer) h3
  have done (q : LinePort) (w : Producer) (hq : (q.presentOne w).presented = []) (hn : q.noticeSlot = none)
      (hb : q.holdsBack w = false) : (q.presentOne w).outgoing w = [] := by
    have hsl : (q.presentOne w).noticeSlot = none := by rw [presentOne_slot]; exact hn
    have hh : (q.presentOne w).holds w = false := by simp [LinePort.holds, hq, hsl]
    unfold LinePort.outgoing
    rw [presentOne_done q w hb hh, hq, hsl]
    rfl
  cases who
  · rw [LinePort.presentFour]; simp only [presentOne_outgoing]
    have := done p .enrolment h2 hs0 hb
    simpa only [presentOne_outgoing] using this
  · rw [LinePort.presentFour]; simp only [presentOne_outgoing]
    have := done (p.presentOne .enrolment) .transfer h3 (by simp only [presentOne_slot]; exact hs0) (by simpa using hb)
    simpa only [presentOne_outgoing] using this
  · rw [LinePort.presentFour]; simp only [presentOne_outgoing]
    have := done ((p.presentOne .enrolment).presentOne .transfer) .hunt h4 (by simp only [presentOne_slot]; exact hs0)
      (by simpa using hb)
    simpa only [presentOne_outgoing] using this
  · exact done _ .loader hp (by simp only [presentOne_slot]; exact hs0) (by simpa using hb)

theorem fillNotice_bare (p : LinePort) : p.fillNotice.bareNotices = p.bareNotices := by
  unfold LinePort.fillNotice
  split <;> rfl

theorem fillNotice_outgoing (p : LinePort) (who : Producer) : p.fillNotice.outgoing who = p.outgoing who := by
  unfold LinePort.fillNotice
  split
  · rename_i n rest hs hp
    unfold LinePort.outgoing
    rw [hs, hp]
    simp only [Option.toList, List.map_cons, List.map_nil, List.filter_nil, List.nil_append]
    by_cases h : n.producer = who <;> simp [h, LinePort.queue]
  · rfl
  · rfl

theorem fillNotice_kept (p : LinePort) (x : SlotNotice) (h : p.noticeSlot = some x) : p.fillNotice.noticeSlot = some x := by
  unfold LinePort.fillNotice
  rw [h]
  exact h

theorem presentAll_bare (p : LinePort) : p.presentAll.bareNotices = p.bareNotices := by
  rw [presentAll_eq, fillNotice_bare, presentFour_bare]

theorem presentAll_outgoing (p : LinePort) (who : Producer) : p.presentAll.outgoing who = p.outgoing who := by
  rw [presentAll_eq, fillNotice_outgoing, presentFour_outgoing]

theorem presentAll_kept (p : LinePort) (x : SlotNotice) (h : p.noticeSlot = some x) : p.presentAll.noticeSlot = some x := by
  rw [presentAll_eq]
  exact fillNotice_kept _ _ (by rw [presentFour_slot]; exact h)

theorem presentFour_heldBack (p : LinePort) (h : p.lineState = .detached) :
    p.presentFour.queue .enrolment = p.queue .enrolment := by
  unfold LinePort.presentFour
  rw [presentOne_heldBack _ _ (by simp only [presentOne_line]; exact h),
    presentOne_heldBack _ _ (by simp only [presentOne_line]; exact h),
    presentOne_heldBack _ _ (by simp only [presentOne_line]; exact h), presentOne_heldBack _ _ h]

theorem presentAll_line (p : LinePort) : p.presentAll.lineState = p.lineState := by
  have h : p.presentAll.bareNotices.lineState = p.bareNotices.lineState := by rw [presentAll_bare]
  exact h

/-- While the port is DETACHED the Enrolment Engine's queue is kept (R59). -/
theorem presentAll_heldBack (p : LinePort) (h : p.lineState = .detached) :
    p.presentAll.queue .enrolment = p.queue .enrolment := by
  rw [presentAll_eq, ← presentFour_heldBack p h]
  unfold LinePort.fillNotice LinePort.queue
  split <;> rfl

theorem presentAll_full (p : LinePort) (h : p.presentAll.noticeSlot = none) (who : Producer)
    (hb : p.presentAll.holdsBack who = false) : p.presentAll.outgoing who = [] := by
  have hb' : p.holdsBack who = false := by
    unfold LinePort.holdsBack at hb ⊢
    rwa [presentAll_line] at hb
  rw [presentAll_eq] at h ⊢
  rw [fillNotice_outgoing]
  have hs : p.presentFour.noticeSlot = none := by
    cases hx : p.presentFour.noticeSlot with
    | none => rfl
    | some x => rw [fillNotice_kept _ x hx] at h; cases h
  refine presentFour_empty p hs ?_ who hb'
  cases hp : p.presentFour.presented with
  | nil => rfl
  | cons n rest =>
    exfalso
    simp [LinePort.fillNotice, hs, hp] at h

theorem presentAll_report (p : LinePort) : p.presentAll.reportSlot = p.reportSlot := by
  have h : p.presentAll.bareNotices.reportSlot = p.bareNotices.reportSlot := by rw [presentAll_bare]
  exact h

theorem presentAll_usage (p : LinePort) : p.presentAll.usageSlot = p.usageSlot := by
  have h : p.presentAll.bareNotices.usageSlot = p.bareNotices.usageSlot := by rw [presentAll_bare]
  exact h

/-! ### Alarm places (R183) -/

theorem ageAlarms_content (ps : List AlarmPlace) (seen : Bool) :
    (ageAlarms ps seen).map AlarmPlace.content4 = ps.map AlarmPlace.content4 := by
  induction ps generalizing seen with
  | nil => rfl
  | cons p ps ih =>
    unfold ageAlarms
    split
    · simp only [List.map_cons, ih]; rfl
    · simp only [List.map_cons, ih]

/-! ### The three stages (R168, R176, R183) -/

theorem choosePresenter_cases (s : State) :
    s.choosePresenter = s ∨
      ∃ who, s.choosePresenter = { s with slp := s.slp.presentOne who, choices := s.choices + 1 } := by
  unfold State.choosePresenter
  split
  · exact .inr ⟨_, rfl⟩
  · exact .inl rfl
  · exact .inl rfl

/-- What the choice of a producer leaves alone. -/
structure Chosen (s t : State) : Prop where
  rest : t.bare = s.bare
  notices : ∀ who, t.outgoing who = s.outgoing who
  slot : t.slp.noticeSlot = s.slp.noticeSlot
  report : t.slp.reportSlot = s.slp.reportSlot
  usage : t.slp.usageSlot = s.slp.usageSlot
  requests : t.rq = s.rq
  heldBack : s.slp.lineState = .detached → t.slp.queue .enrolment = s.slp.queue .enrolment

theorem presentOne_report (p : LinePort) (who : Producer) : (p.presentOne who).reportSlot = p.reportSlot := by
  have h : (p.presentOne who).bareNotices.reportSlot = p.bareNotices.reportSlot := by rw [presentOne_bare]
  exact h

theorem presentOne_usage (p : LinePort) (who : Producer) : (p.presentOne who).usageSlot = p.usageSlot := by
  have h : (p.presentOne who).bareNotices.usageSlot = p.bareNotices.usageSlot := by rw [presentOne_bare]
  exact h

theorem choosePresenter_chosen (s : State) : Chosen s s.choosePresenter := by
  obtain h | ⟨who, h⟩ := choosePresenter_cases s <;> rw [h]
  · exact ⟨rfl, fun _ => rfl, rfl, rfl, rfl, rfl, fun _ => rfl⟩
  · refine ⟨?_, fun other => presentOne_outgoing _ _ _, presentOne_slot _ _, presentOne_report _ _, presentOne_usage _ _, rfl,
      presentOne_heldBack _ _⟩
    have h2 : ({ s.slp.presentOne who with queued := [], presented := [], noticeSlot := none, reportSlot := none, usageSlot := none } : LinePort)
        = { s.slp with queued := [], presented := [], noticeSlot := none, reportSlot := none, usageSlot := none } :=
      congrArg (fun q : LinePort => { q with reportSlot := none, usageSlot := none }) (presentOne_bare s.slp who)
    unfold State.bare
    dsimp only
    rw [h2]

theorem Chosen.line {s t : State} (h : Chosen s t) : t.slp.lineState = s.slp.lineState := by
  have e : t.bare.slp.lineState = s.bare.slp.lineState := by rw [h.rest]
  exact e

theorem Chosen.trans {s t u : State} (h : Chosen s t) (k : Chosen t u) : Chosen s u where
  rest := k.rest.trans h.rest
  notices who := (k.notices who).trans (h.notices who)
  slot := k.slot.trans h.slot
  report := k.report.trans h.report
  usage := k.usage.trans h.usage
  requests := k.requests.trans h.requests
  heldBack hd := (k.heldBack (by rw [h.line]; exact hd)).trans (h.heldBack hd)

theorem orderPresenters_chosen (s : State) : Chosen s s.orderPresenters := by
  unfold State.orderPresenters
  split
  · exact ((choosePresenter_chosen s).trans (choosePresenter_chosen _)).trans (choosePresenter_chosen _)
  · exact ⟨rfl, fun _ => rfl, rfl, rfl, rfl, rfl, fun _ => rfl⟩

theorem orderPresenters_places (s : State) : s.orderPresenters.places = s.places := by
  unfold State.places
  rw [(orderPresenters_chosen s).report, (orderPresenters_chosen s).requests]

/-- The state with its notices presented and its alarm places aged. -/
def State.presented (s : State) : State := s.orderPresenters.presentNotices

theorem settle_eq (s : State) : s.settle = s.presented.fillReport.fillUsage := rfl

theorem presentNotices_slp (s : State) : s.presentNotices.slp = s.slp.presentAll := rfl

theorem presented_slp (s : State) : s.presented.slp = s.orderPresenters.slp.presentAll := presentNotices_slp s.orderPresenters

theorem presentNotices_bare (s : State) : s.presentNotices.bare = s.bare := by
  have h2 : ({ s.slp.presentAll with queued := [], presented := [], noticeSlot := none, reportSlot := none, usageSlot := none } : LinePort)
      = { s.slp with queued := [], presented := [], noticeSlot := none, reportSlot := none, usageSlot := none } :=
    congrArg (fun q : LinePort => { q with reportSlot := none, usageSlot := none }) (presentAll_bare s.slp)
  unfold State.presentNotices State.bare
  dsimp only
  rw [h2]

theorem presentNotices_places (s : State) : s.presentNotices.places = s.places := by
  unfold State.places State.presentNotices
  dsimp only
  rw [presentAll_report, List.map_append, List.map_append, ageAlarms_content]

theorem presented_bare (s : State) : s.presented.bare = s.bare :=
  (presentNotices_bare s.orderPresenters).trans (orderPresenters_chosen s).rest

theorem presented_places (s : State) : s.presented.places = s.places :=
  (presentNotices_places s.orderPresenters).trans (orderPresenters_places s)

theorem fillReport_bare (s : State) : s.fillReport.bare = s.bare := by
  unfold State.fillReport
  repeat' (first | rfl | split)

theorem fillReport_notices (s : State) (who : Producer) : s.fillReport.outgoing who = s.outgoing who := by
  unfold State.fillReport
  repeat' (first | rfl | split)

theorem fillReport_slot (s : State) : s.fillReport.slp.noticeSlot = s.slp.noticeSlot := by
  unfold State.fillReport
  repeat' (first | rfl | split)

theorem fillReport_port (s : State) : s.fillReport.slp.queued = s.slp.queued ∧ s.fillReport.slp.lineState = s.slp.lineState := by
  unfold State.fillReport
  repeat' (first | exact ⟨rfl, rfl⟩ | split)

theorem fillUsage_port (s : State) : s.fillUsage.slp.queued = s.slp.queued ∧ s.fillUsage.slp.lineState = s.slp.lineState := by
  unfold State.fillUsage
  repeat' (first | exact ⟨rfl, rfl⟩ | split)

theorem settle_queued (s : State) : s.settle.slp.queued = s.orderPresenters.slp.presentAll.queued := by
  rw [settle_eq, (fillUsage_port _).1, (fillReport_port _).1, presented_slp]

theorem settle_line (s : State) : s.settle.slp.lineState = s.orderPresenters.slp.presentAll.lineState := by
  rw [settle_eq, (fillUsage_port _).2, (fillReport_port _).2, presented_slp]

theorem fillReport_usage (s : State) : s.fillReport.slp.usageSlot = s.slp.usageSlot := by
  unfold State.fillReport
  repeat' (first | rfl | split)

theorem fillReport_kept (s : State) (x : ReportFrame) (h : s.slp.reportSlot = some x) : s.fillReport = s := by
  unfold State.fillReport
  rw [h]

/-- Taking the k-th place of a list and leaving the rest is a reordering. -/
theorem perm_eraseIdx {α : Type} (xs : List α) (k : Nat) (x : α) (h : xs[k]? = some x) : (x :: xs.eraseIdx k).Perm xs := by
  induction xs generalizing k with
  | nil => simp at h
  | cons y ys ih =>
    cases k with
    | zero => simp at h; subst h; exact List.Perm.refl _
    | succ k =>
      rw [List.getElem?_cons_succ] at h
      rw [List.eraseIdx_cons_succ]
      exact (List.Perm.swap y x _).trans ((ih k h).cons y)

theorem fillReport_places (s : State) : s.fillReport.places.Perm s.places := by
  cases hr : s.slp.reportSlot with
  | some x => rw [fillReport_kept s x hr]
  | none =>
    cases ha : s.rq.alarms with
    | nil =>
      cases he : s.rq.events with
      | nil =>
        have e : s.fillReport = s := by unfold State.fillReport; rw [hr, ha, he]
        rw [e]
      | cons ev evs =>
        have e : s.fillReport.places = s.places := by
          unfold State.fillReport State.places
          rw [hr, ha, he]
          simp [ReportFrame.alarm, ha]
        rw [e]
    | cons p rest =>
      by_cases ht : (tiedPlaces rest).isEmpty = true
      · have e : s.fillReport.places = s.places := by
          unfold State.fillReport State.places
          rw [hr, ha]
          simp only [ht, if_true]
          simp [ReportFrame.alarm]
        rw [e]
      · have hk : Config.choice s.choices % ((tiedPlaces rest).length + 1) < (p :: rest).length := by
          have h1 : (tiedPlaces rest).length ≤ rest.length := (List.takeWhile_prefix _).length_le
          have h2 : Config.choice s.choices % ((tiedPlaces rest).length + 1) < (tiedPlaces rest).length + 1 :=
            Nat.mod_lt _ (by omega)
          simp only [List.length_cons]
          omega
        generalize hkk : Config.choice s.choices % ((tiedPlaces rest).length + 1) = k at hk
        have hx : (p :: rest)[k]? = some ((p :: rest)[k]'hk) := List.getElem?_eq_getElem hk
        have e : s.fillReport.places = (((p :: rest)[k]'hk) :: (p :: rest).eraseIdx k).map AlarmPlace.content4 := by
          unfold State.fillReport State.places
          rw [hr, ha]
          simp only [ht, hkk, hx]
          simp [ReportFrame.alarm]
        have e2 : s.places = (p :: rest).map AlarmPlace.content4 := by
          unfold State.places
          rw [hr, ha]
          rfl
        rw [e, e2]
        exact (perm_eraseIdx _ k _ hx).map _

theorem fillReport_full (s : State) (h : s.fillReport.slp.reportSlot = none) :
    s.fillReport.places = [] ∧ s.fillReport.rq.events = [] := by
  cases hr : s.slp.reportSlot with
  | some x => rw [fillReport_kept s x hr, hr] at h; cases h
  | none =>
    cases ha : s.rq.alarms with
    | nil =>
      cases he : s.rq.events with
      | nil =>
        have e : s.fillReport = s := by unfold State.fillReport; rw [hr, ha, he]
        rw [e]
        exact ⟨by unfold State.places; rw [hr, ha]; rfl, he⟩
      | cons ev evs => exfalso; unfold State.fillReport at h; rw [hr, ha, he] at h; cases h
    | cons p rest =>
      exfalso
      unfold State.fillReport at h
      rw [hr, ha] at h
      dsimp only at h
      split at h <;> cases h

theorem fillUsage_bare (s : State) : s.fillUsage.bare = s.bare := by
  unfold State.fillUsage
  repeat' (first | rfl | split)

theorem fillUsage_notices (s : State) (who : Producer) : s.fillUsage.outgoing who = s.outgoing who := by
  unfold State.fillUsage
  repeat' (first | rfl | split)

theorem fillUsage_slot (s : State) : s.fillUsage.slp.noticeSlot = s.slp.noticeSlot := by
  unfold State.fillUsage
  repeat' (first | rfl | split)

theorem fillUsage_report (s : State) : s.fillUsage.slp.reportSlot = s.slp.reportSlot := by
  unfold State.fillUsage
  repeat' (first | rfl | split)

theorem fillUsage_places (s : State) : s.fillUsage.places = s.places := by
  unfold State.fillUsage
  repeat' (first | rfl | split)

theorem fillUsage_events (s : State) : s.fillUsage.rq.events = s.rq.events := by
  unfold State.fillUsage
  repeat' (first | rfl | split)

theorem fillUsage_acct (s : State) (h : Nat) : s.fillUsage.acct h = s.acct h := by
  unfold State.acct
  rw [fillUsage_um]

theorem fillUsage_kept (s : State) (x : UsageFrame) (h : s.slp.usageSlot = some x) : s.fillUsage = s := by
  unfold State.fillUsage
  rw [h]

theorem fillUsage_full (s : State) (h : s.fillUsage.slp.usageSlot = none) :
    ∀ k ∈ handles, (s.acct k).bind Account.snapshot = none := by
  cases hu : s.slp.usageSlot with
  | some x => rw [fillUsage_kept s x hu, hu] at h; cases h
  | none =>
    cases hn : s.nextRecord with
    | some r => exfalso; unfold State.fillUsage at h; rw [hu, hn] at h; cases h
    | none =>
      intro k hk
      unfold State.nextRecord at hn
      have := (List.findSome?_eq_none_iff.mp hn) k hk
      cases hs : (s.acct k).bind Account.snapshot with
      | none => rfl
      | some sn => rw [hs] at this; cases this

/-! ### What an empty slot takes (R168, R175, R176, R183, R184) -/

/-- The notices with the port, as the port holds them. -/
def LinePort.withPort (p : LinePort) : List Notice := p.noticeSlot.toList.map SlotNotice.notice ++ p.presented

theorem withPort_eq (s : State) : s.withPort = s.slp.withPort := rfl

theorem presentOne_withPort (p : LinePort) (who : Producer) :
    ∃ later, (p.presentOne who).withPort = p.withPort ++ later := by
  obtain ⟨l, hl⟩ := presented_grows p who
  exact ⟨l, by rw [LinePort.withPort, presentOne_slot, hl, LinePort.withPort, List.append_assoc]⟩

theorem fillNotice_withPort (p : LinePort) : p.fillNotice.withPort = p.withPort := by
  unfold LinePort.fillNotice LinePort.withPort
  split <;> simp_all

theorem presentAll_withPort (p : LinePort) : ∃ later, p.presentAll.withPort = p.withPort ++ later := by
  obtain ⟨a, ha⟩ := presentOne_withPort p .enrolment
  obtain ⟨b, hb⟩ := presentOne_withPort (p.presentOne .enrolment) .transfer
  obtain ⟨c, hc⟩ := presentOne_withPort ((p.presentOne .enrolment).presentOne .transfer) .hunt
  obtain ⟨d, hd⟩ := presentOne_withPort (((p.presentOne .enrolment).presentOne .transfer).presentOne .hunt) .loader
  refine ⟨a ++ (b ++ (c ++ d)), ?_⟩
  rw [LinePort.presentAll, fillNotice_withPort, hd, hc, hb, ha]
  simp only [List.append_assoc]

theorem choosePresenter_withPort (s : State) : ∃ later, s.choosePresenter.withPort = s.withPort ++ later := by
  obtain h | ⟨who, h⟩ := choosePresenter_cases s <;> rw [h]
  · exact ⟨[], (List.append_nil _).symm⟩
  · exact presentOne_withPort s.slp who

theorem orderPresenters_withPort (s : State) : ∃ later, s.orderPresenters.withPort = s.withPort ++ later := by
  unfold State.orderPresenters
  split
  · obtain ⟨a, ha⟩ := choosePresenter_withPort s
    obtain ⟨b, hb⟩ := choosePresenter_withPort s.choosePresenter
    obtain ⟨c, hc⟩ := choosePresenter_withPort s.choosePresenter.choosePresenter
    exact ⟨a ++ (b ++ c), by rw [hc, hb, ha]; simp only [List.append_assoc]⟩
  · exact ⟨[], (List.append_nil _).symm⟩

theorem fillNotice_taken (p : LinePort) (h : p.noticeSlot = none) (x : SlotNotice) (hx : p.fillNotice.noticeSlot = some x) :
    x.withdrawn = false := by
  unfold LinePort.fillNotice at hx
  rw [h] at hx
  cases hp : p.presented with
  | nil => rw [hp] at hx; exact absurd (h.symm.trans hx) (by simp)
  | cons n rest => rw [hp] at hx; cases hx; rfl

theorem fillNotice_left (p : LinePort) (h : p.fillNotice.noticeSlot = none) : p.fillNotice.presented = [] := by
  unfold LinePort.fillNotice at h ⊢
  split <;> simp_all

/-- Ageing ties to the first place exactly those of its moment (R183). -/
theorem tiedPlaces_age (rest : List AlarmPlace) (seen : Bool) :
    (tiedPlaces (ageAlarms rest seen)).map AlarmPlace.content4 =
      (rest.takeWhile fun q => q.age = .tied || (seen && q.age = .fresh)).map AlarmPlace.content4 := by
  unfold tiedPlaces
  induction rest generalizing seen with
  | nil => rfl
  | cons p ps ih =>
    unfold ageAlarms
    cases seen <;> cases ha : p.age <;> simp [ha, ih, AlarmPlace.content4]

theorem presented_rq (s : State) : s.presented.rq = { s.rq with alarms := ageAlarms s.rq.alarms false } := by
  have h : s.presented.rq = { s.orderPresenters.rq with alarms := ageAlarms s.orderPresenters.rq.alarms false } := rfl
  rw [h, orderPresenters_rq]

theorem presented_report (s : State) : s.presented.slp.reportSlot = s.slp.reportSlot := by
  rw [presented_slp, presentAll_report, (orderPresenters_chosen s).report]

theorem presented_usage (s : State) : s.presented.slp.usageSlot = s.slp.usageSlot := by
  rw [presented_slp, presentAll_usage, (orderPresenters_chosen s).usage]

/-- The earliest places once aged are those of the list before (R183). -/
theorem presented_earliest (s : State) (p : AlarmPlace) (rest : List AlarmPlace) (h : s.presented.rq.alarms = p :: rest) :
    (p :: tiedPlaces rest).map AlarmPlace.content4 = s.earliest.map AlarmPlace.content4 := by
  rw [presented_rq] at h
  unfold State.earliest
  cases hs : s.rq.alarms with
  | nil => rw [hs] at h; cases h
  | cons q qs =>
    rw [hs] at h
    unfold ageAlarms at h
    by_cases hf : q.age = .fresh
    · simp only [hf, if_true] at h
      obtain ⟨rfl, rfl⟩ := List.cons.inj h
      rw [List.map_cons, List.map_cons, tiedPlaces_age]
      simp [hf, AlarmPlace.content4]
    · simp only [hf, if_false] at h
      obtain ⟨rfl, rfl⟩ := List.cons.inj h
      rw [List.map_cons, List.map_cons, tiedPlaces_age]
      simp [hf]

/-- What the empty report slot takes from aged places (R183, R184). -/
theorem fillReport_takes (s : State) (h : s.slp.reportSlot = none) (f : ReportFrame)
    (hf : s.fillReport.slp.reportSlot = some f) :
    f.number = s.rq.reportNumber ∧ s.fillReport.rq.reportNumber = s.rq.reportNumber + 1 ∧
      ((∃ p rest, s.rq.alarms = p :: rest ∧ ∃ q ∈ p :: tiedPlaces rest, f.body = .alarm q none) ∨
        (s.rq.alarms = [] ∧ ∃ e rest, s.rq.events = e :: rest ∧ f.body = .event e s.rq.dropped)) := by
  unfold State.fillReport at hf ⊢
  rw [h] at hf ⊢
  cases ha : s.rq.alarms with
  | nil =>
    cases he : s.rq.events with
    | nil => rw [ha, he] at hf; exact absurd (h.symm.trans hf) (by simp)
    | cons e es =>
      rw [ha, he] at hf
      cases hf
      exact ⟨rfl, rfl, .inr ⟨rfl, e, es, rfl, rfl⟩⟩
  | cons p rest =>
    rw [ha] at hf
    dsimp only at hf ⊢
    split at hf
    · rename_i ht
      cases hf
      exact ⟨rfl, by rw [if_pos ht], .inl ⟨p, rest, rfl, p, List.mem_cons_self .., rfl⟩⟩
    · rename_i ht
      cases hf
      refine ⟨rfl, by rw [if_neg ht], .inl ⟨p, rest, rfl, _, ?_, rfl⟩⟩
      have hk : Config.choice s.choices % ((tiedPlaces rest).length + 1) < (p :: tiedPlaces rest).length := by
        simp only [List.length_cons]; exact Nat.mod_lt _ (by omega)
      generalize Config.choice s.choices % ((tiedPlaces rest).length + 1) = k at hk
      obtain ⟨more, hmore⟩ : ∃ more, tiedPlaces rest ++ more = rest :=
        List.takeWhile_prefix (fun p : AlarmPlace => decide (p.age = .tied))
      have hget : (p :: rest)[k]? = some ((p :: tiedPlaces rest)[k]) := by
        have e : p :: rest = (p :: tiedPlaces rest) ++ more := by rw [List.cons_append, hmore]
        rw [e, List.getElem?_append_left hk, List.getElem?_eq_getElem hk]
      rw [hget]
      exact List.getElem_mem hk

theorem fillReport_presented (s : State) : s.fillReport.slp.presented = s.slp.presented := by
  unfold State.fillReport
  repeat' (first | rfl | split)

theorem fillUsage_presented (s : State) : s.fillUsage.slp.presented = s.slp.presented := by
  unfold State.fillUsage
  repeat' (first | rfl | split)

theorem fillReport_recordNumber (s : State) : s.fillReport.rq.recordNumber = s.rq.recordNumber := by
  unfold State.fillReport
  repeat' (first | rfl | split)

theorem fillUsage_reportNumber (s : State) : s.fillUsage.rq.reportNumber = s.rq.reportNumber := by
  unfold State.fillUsage
  repeat' (first | rfl | split)

theorem fillReport_number (s : State) (h : s.slp.reportSlot ≠ none ∨ s.fillReport.slp.reportSlot = none) :
    s.fillReport.rq.reportNumber = s.rq.reportNumber := by
  cases hr : s.slp.reportSlot with
  | some x => rw [fillReport_kept s x hr]
  | none =>
    obtain h | h := h
    · exact absurd hr h
    · unfold State.fillReport at h ⊢
      rw [hr] at h ⊢
      cases ha : s.rq.alarms with
      | nil =>
        cases he : s.rq.events with
        | nil => rfl
        | cons e es => rw [ha, he] at h; cases h
      | cons p rest =>
        rw [ha] at h
        dsimp only at h
        split at h <;> cases h

/-- What the empty usage slot takes (R168). -/
theorem fillUsage_takes (s : State) (h : s.slp.usageSlot = none) (f : UsageFrame) (hf : s.fillUsage.slp.usageSlot = some f) :
    UsageTaken s s.fillUsage f := by
  unfold State.fillUsage at hf ⊢
  rw [h] at hf ⊢
  cases hn : s.nextRecord with
  | none => rw [hn] at hf; exact absurd (h.symm.trans hf) (by simp)
  | some r =>
    obtain ⟨k, sn⟩ := r
    rw [hn] at hf
    cases hf
    unfold State.nextRecord at hn
    obtain ⟨before, x, after, hsplit, hx, hb⟩ := List.findSome?_eq_some_iff.mp hn
    obtain ⟨sn', hs, hp⟩ := Option.map_eq_some_iff.mp hx
    cases hp
    have hsorted : handles.Pairwise (· < ·) := by decide
    rw [hsplit] at hsorted
    refine ⟨rfl, by rw [hsplit]; simp, fun j hj hlt => ?_, sn, hs, rfl⟩
    rw [hsplit] at hj
    rcases List.mem_append.mp hj with hj | hj
    · have := hb j hj
      rcases hsj : (s.acct j).bind Account.snapshot with _ | y
      · rfl
      · rw [hsj] at this; cases this
    · exfalso
      have ho := (List.pairwise_append.mp hsorted).2.1
      rcases List.mem_cons.mp hj with rfl | hj
      · exact Nat.lt_irrefl _ hlt
      · exact Nat.lt_asymm hlt ((List.pairwise_cons.mp ho).1 j hj)

theorem fillUsage_number (s : State) (h : s.slp.usageSlot ≠ none ∨ s.fillUsage.slp.usageSlot = none) :
    s.fillUsage.rq.recordNumber = s.rq.recordNumber := by
  cases hr : s.slp.usageSlot with
  | some x => rw [fillUsage_kept s x hr]
  | none =>
    obtain h | h := h
    · exact absurd hr h
    · unfold State.fillUsage at h ⊢
      rw [hr] at h ⊢
      cases hn : s.nextRecord with
      | none => rfl
      | some r => rw [hn] at h; cases h

/-- Everything the end of a command can do: the frames are offered, and nothing else changes (R168, R176, R183, R184). -/
theorem settle_offered (s : State) : Offered s s.settle where
  rest := by rw [settle_eq, fillUsage_bare, fillReport_bare, presented_bare]
  notices who := by
    rw [settle_eq, fillUsage_notices, fillReport_notices]
    exact (presentAll_outgoing s.orderPresenters.slp who).trans ((orderPresenters_chosen s).notices who)
  places := by
    rw [settle_eq, fillUsage_places, ← presented_places s]
    exact fillReport_places _
  noticeKept x hx := by
    rw [settle_eq, fillUsage_slot, fillReport_slot]
    exact presentAll_kept s.orderPresenters.slp x ((orderPresenters_chosen s).slot.trans hx)
  reportKept x hx := by
    have hp : s.presented.slp.reportSlot = some x := by
      rw [presented_slp, presentAll_report, (orderPresenters_chosen s).report, hx]
    rw [settle_eq, fillUsage_report, fillReport_kept _ x hp]
    exact hp
  usageKept x hx := by
    have hp : s.presented.fillReport.slp.usageSlot = some x := by
      rw [fillReport_usage, presented_slp, presentAll_usage, (orderPresenters_chosen s).usage, hx]
    rw [settle_eq, fillUsage_kept _ x hp]
    exact hp
  noticeOrder := by
    obtain ⟨a, ha⟩ := orderPresenters_withPort s
    obtain ⟨b, hb⟩ := presentAll_withPort s.orderPresenters.slp
    have e : s.settle.withPort = s.presented.slp.withPort := by
      rw [settle_eq, withPort_eq, LinePort.withPort, fillUsage_slot, fillReport_slot, fillUsage_presented, fillReport_presented]
      rfl
    exact ⟨a ++ b, by rw [e, presented_slp, hb, ← withPort_eq, ha, List.append_assoc]⟩
  noticeTaken h x hx := by
    rw [settle_eq, fillUsage_slot, fillReport_slot, presented_slp, presentAll_eq] at hx
    refine fillNotice_taken _ ?_ x hx
    rw [presentFour_slot, (orderPresenters_chosen s).slot, h]
  noticeLeft h := by
    rw [settle_eq, fillUsage_slot, fillReport_slot, presented_slp, presentAll_eq] at h
    rw [settle_eq, fillUsage_presented, fillReport_presented, presented_slp, presentAll_eq]
    exact fillNotice_left _ h
  reportTaken h f hf := by
    rw [settle_eq, fillUsage_report] at hf
    obtain ⟨hn, hadv, hbody⟩ := fillReport_takes s.presented ((presented_report s).trans h) f hf
    rw [presented_rq] at hn hadv
    refine ⟨hn, by rw [settle_eq, fillUsage_reportNumber]; exact hadv, ?_⟩
    obtain ⟨p, rest, ha, q, hq, hb⟩ | ⟨ha, e, rest, he, hb⟩ := hbody
    · refine .inl ?_
      have hm : q.content4 ∈ s.earliest.map AlarmPlace.content4 := by
        rw [← presented_earliest s p rest ha]
        exact List.mem_map_of_mem hq
      obtain ⟨y, hy, hyq⟩ := List.mem_map.mp hm
      exact ⟨y, hy, q, hb, hyq.symm⟩
    · refine .inr ⟨?_, e, rest, ?_, ?_⟩
      · rw [presented_rq] at ha
        cases hs : s.rq.alarms with
        | nil => rfl
        | cons p ps => rw [hs] at ha; unfold ageAlarms at ha; dsimp only at ha; split at ha <;> cases ha
      · rw [presented_rq] at he; exact he
      · rw [presented_rq] at hb; exact hb
  reportNumber h := by
    rw [settle_eq, fillUsage_reportNumber, fillReport_number, presented_rq]
    obtain h | h := h
    · exact .inl (by rw [presented_report]; exact h)
    · exact .inr (by rw [settle_eq, fillUsage_report] at h; exact h)
  usageTaken h f hf := by
    have hk := fillUsage_takes s.presented.fillReport
      ((fillReport_usage _).trans ((presented_usage s).trans h)) f hf
    have ha (k : Nat) : s.presented.fillReport.acct k = s.acct k := by
      unfold State.acct State.presented; simp
    have he (k : Nat) : s.presented.fillReport.entry k = s.entry k := by
      unfold State.entry State.presented; simp
    have hc : s.presented.fillReport.channel = s.channel := by
      unfold State.channel State.img State.presented; simp
    have hr : s.presented.fillReport.rq.recordNumber = s.rq.recordNumber := by
      rw [fillReport_recordNumber, presented_rq]
    obtain ⟨h1, h2, h3, sn, h4, h5⟩ := hk
    rw [hr] at h1 h5
    rw [ha] at h4
    rw [he, hc] at h5
    exact ⟨h1, h2, fun k hk hlt => by rw [← ha k]; exact h3 k hk hlt, sn, h4, h5⟩
  recordNumber h := by
    rw [settle_eq, fillUsage_number, fillReport_recordNumber, presented_rq]
    obtain h | h := h
    · exact .inl (by rw [fillReport_usage, presented_usage]; exact h)
    · exact .inr (by rw [settle_eq] at h; exact h)
  noticeFull h who hb := by
    rw [settle_eq, fillUsage_slot, fillReport_slot] at h
    rw [settle_eq, fillUsage_notices, fillReport_notices]
    refine presentAll_full s.orderPresenters.slp h who ?_
    unfold LinePort.holdsBack at hb ⊢
    rwa [settle_line] at hb
  heldBack h := by
    rw [settle_line, presentAll_line] at h
    have h' : s.slp.lineState = .detached := by rw [← (orderPresenters_chosen s).line]; exact h
    rw [← (orderPresenters_chosen s).heldBack h', ← presentAll_heldBack _ h]
    unfold LinePort.queue
    rw [settle_queued]
  reportFull h := by
    rw [settle_eq, fillUsage_report] at h
    rw [settle_eq, fillUsage_places, fillUsage_events]
    exact fillReport_full _ h
  usageFull h k hk := by
    rw [settle_eq] at h
    rw [settle_eq, fillUsage_acct]
    exact fillUsage_full _ h k hk

end Sys2Proof.Machine
end

