-- ==== Sys2Proof/Laws/Ops.lean ====
section
/-! SUPPORT. What each shared operation does, said once: the mailbox, events and alarms, and the entering of FREE, LOST and CLOSING. -/

namespace Sys2Proof.Machine

/-! ### Entries, accounts and drift data through the operations -/

theorem entry_of_roster (s t : State) (h : t.roster = s.roster) (k : Nat) : t.entry k = s.entry k := by
  unfold State.entry; rw [h]

theorem acct_of_um (s t : State) (h : t.um = s.um) (k : Nat) : t.acct k = s.acct k := by
  unfold State.acct; rw [h]

theorem drift_of_lw (s t : State) (h : t.lw = s.lw) (k : Nat) : t.drift k = s.drift k := by
  unfold State.drift; rw [h]

/-- Outside the roster every entry reads FREE. -/
theorem entry_outside (s : State) (h : Nat) (ho : ¬(1 ≤ h ∧ h ≤ 64)) : s.entry h = Entry.free :=
  tableGet_outside _ _ _ ho

theorem acct_outside (s : State) (h : Nat) (ho : ¬(1 ≤ h ∧ h ≤ 64)) : s.acct h = none := tableGet_outside _ _ _ ho

theorem drift_outside (s : State) (h : Nat) (ho : ¬(1 ≤ h ∧ h ≤ 64)) : s.drift h = Drift.clear := tableGet_outside _ _ _ ho

/-! ### Events and alarms -/

/-- A raised event is the newest of the queue, or dropped with the flag set (R184). -/
theorem pushEvent_raised (s : State) (e : Event) : Raised s (s.pushEvent e) e := by
  unfold Raised State.pushEvent Config.eventPlaces
  split <;> exact ⟨rfl, rfl⟩

/-- An alarm of a kind that is OFF changes nothing (R182). -/
theorem raiseAlarm_off (s : State) (a : AlarmSource) (c : AlarmContent) (h : s.img.alarmModes.get a.kind = .off) :
    s.raiseAlarm a c = s := by
  unfold State.raiseAlarm; rw [h]

/-- A report placed leaves a place of its source that is not idle (R183). -/
theorem placeReport_places (s : State) (a : AlarmSource) (c : AlarmContent) (r : Bool) :
    ∃ p ∈ (s.placeReport a c r).places, p.1 = a := by
  unfold State.placeReport
  split
  · next h =>
    cases hs : s.slp.reportSlot with
    | none => simp [LinePort.alarmInSlot, hs] at h
    | some f =>
      rcases hb : f.body with ⟨p, l⟩ | ⟨e, m⟩
      · simp only [LinePort.alarmInSlot, hs, hb, decide_eq_true_eq] at h
        cases l <;>
          simp [State.places, LinePort.recordLater, hs, hb, ReportFrame.alarm, AlarmPlace.content4, h]
      · simp [LinePort.alarmInSlot, hs, hb] at h
  · split
    · next h =>
      simp only [List.any_eq_true, decide_eq_true_eq] at h
      obtain ⟨p, hp, he⟩ := h
      refine ⟨(p.merge c r).content4, ?_, ?_⟩
      · unfold State.places
        refine List.mem_map.2 ⟨p.merge c r, ?_, rfl⟩
        exact List.mem_append_right _ (List.mem_map.2 ⟨p, hp, by rw [if_pos he]⟩)
      · exact he
    · refine ⟨(AlarmPlace.new a c r).content4, ?_, rfl⟩
      unfold State.places
      exact List.mem_map.2 ⟨AlarmPlace.new a c r, List.mem_append_right _ (List.mem_append_right _ (List.mem_singleton.2 rfl)), rfl⟩

/-! ### The mailbox (R31) -/

/-- An empty mailbox takes the message with the complement of the sequence bit. -/
theorem post_empty (e : Entry) (k : MsgKind) (h : e.mailbox = none) :
    e.post k = { e with mailbox := some { kind := k, seqBit := !e.seqBit, carried := 0, firstMap := none },
                        seqBit := !e.seqBit } := by
  unfold Entry.post; rw [h]

/-- A message of higher rank refuses the new one. -/
theorem post_outranked (e : Entry) (k : MsgKind) (m : Message) (h : e.mailbox = some m) (hr : k.rank < m.kind.rank) :
    e.post k = e := by
  unfold Entry.post; rw [h]; exact if_pos hr

/-- One of equal or lower rank that no map carried is replaced, its bit kept. -/
theorem post_unseen (e : Entry) (k : MsgKind) (m : Message) (h : e.mailbox = some m) (hr : m.kind.rank ≤ k.rank)
    (hc : m.carried = 0) :
    e.post k = { e with mailbox := some { kind := k, seqBit := m.seqBit, carried := 0, firstMap := none } } := by
  unfold Entry.post; rw [h]; simp only []; rw [if_neg (Nat.not_lt.2 hr), if_pos hc]

/-- One of equal or lower rank that a map carried is replaced with the complement of the sequence bit. -/
theorem post_replaces (e : Entry) (k : MsgKind) (m : Message) (h : e.mailbox = some m) (hr : m.kind.rank ≤ k.rank)
    (hc : m.carried ≠ 0) :
    e.post k = { e with mailbox := some { kind := k, seqBit := !e.seqBit, carried := 0, firstMap := none },
                        seqBit := !e.seqBit } := by
  unfold Entry.post; rw [h]; simp only []; rw [if_neg (Nat.not_lt.2 hr), if_neg hc]

/-- Posting changes the mailbox and the sequence bit alone. -/
theorem post_else (e : Entry) (k : MsgKind) : ∃ m b, e.post k = { e with mailbox := m, seqBit := b } := by
  unfold Entry.post
  split
  · exact ⟨_, _, rfl⟩
  · split
    · exact ⟨_, _, rfl⟩
    · split
      · exact ⟨_, _, rfl⟩
      · exact ⟨_, _, rfl⟩

/-! ### FREE, LOST, CLOSING -/

/-- Entering FREE clears the entry at the handle and no other (R45). -/
theorem freeEntry_entry (s : State) (h k : Nat) : (s.freeEntry h).entry k = if k = h then Entry.free else s.entry k := by
  have e : (s.freeEntry h).entry k = ((s.unbook h).setEntry h Entry.free).entry k := rfl
  rw [e, entry_setEntry]
  by_cases hk : k = h
  · subst hk
    by_cases ho : 1 ≤ k ∧ k ≤ 64
    · rw [if_pos ⟨rfl, ho⟩, if_pos rfl]
    · rw [if_neg (fun x => ho x.2), if_pos rfl]; exact entry_outside _ _ ho
  · rw [if_neg (fun x => hk x.1), if_neg hk]; rfl

/-- Entering FREE empties the account at the handle and no other. -/
theorem freeEntry_acct (s : State) (h k : Nat) : (s.freeEntry h).acct k = if k = h then none else s.acct k := by
  have e : (s.freeEntry h).acct k = (s.setAcct h none).acct k := rfl
  rw [e, acct_setAcct]
  by_cases hk : k = h
  · subst hk
    by_cases ho : 1 ≤ k ∧ k ≤ 64
    · rw [if_pos ⟨rfl, ho⟩, if_pos rfl]
    · rw [if_neg (fun x => ho x.2), if_pos rfl]; exact acct_outside _ _ ho
  · rw [if_neg (fun x => hk x.1), if_neg hk]

/-- Entering FREE clears the drift data at the handle and no other (R87). -/
theorem freeEntry_drift (s : State) (h k : Nat) : (s.freeEntry h).drift k = if k = h then Drift.clear else s.drift k := by
  have e : (s.freeEntry h).drift k = (s.setDrift h Drift.clear).drift k := rfl
  rw [e, drift_setDrift]
  by_cases hk : k = h
  · subst hk
    by_cases ho : 1 ≤ k ∧ k ≤ 64
    · rw [if_pos ⟨rfl, ho⟩, if_pos rfl]
    · rw [if_neg (fun x => ho x.2), if_pos rfl]; exact drift_outside _ _ ho
  · rw [if_neg (fun x => hk x.1), if_neg hk]

/-- Entering FREE takes the term out of the booked sum (R82). -/
theorem freeEntry_booked (s : State) (h : Nat) : (s.freeEntry h).ua.booked = s.ua.booked - (s.entry h).bookedTerm := rfl

/-- Entering FREE changes one home, raises nothing, and leaves the line, the maps and the image as they were. -/
theorem freeEntry_frame (s : State) (h : Nat) : HomeFrame s (s.freeEntry h) h ∧ NoEvent s (s.freeEntry h) := by
  refine ⟨⟨fun k hk => ⟨?_, ?_, ?_⟩, ⟨rfl, rfl, rfl, rfl⟩, ⟨rfl, rfl, rfl, rfl, rfl, rfl⟩, rfl, rfl, rfl, rfl, rfl, rfl, rfl, rfl, rfl, rfl⟩,
    ⟨rfl, rfl⟩⟩
  · rw [freeEntry_entry, if_neg hk]
  · rw [freeEntry_acct, if_neg hk]
  · rw [freeEntry_drift, if_neg hk]

/-- Entering CLOSING: the entry, and no other (R43, R44). -/
theorem enterClosing_entry (s : State) (h k : Nat) (kind : RecordKind) (release : Bool) :
    (s.enterClosing h kind release).entry k =
      if k = h ∧ 1 ≤ h ∧ h ≤ 64 then (s.entry h).toClosing release else s.entry k := by
  have e : (s.enterClosing h kind release).entry k =
      (((s.unbook h).setAcct h ((s.acct h).map fun a => a.finish kind (s.bandAt s.um.band) s.um.period)).setEntry h
        ((s.entry h).toClosing release)).entry k := rfl
  rw [e, entry_setEntry]; rfl

/-- Entering CLOSING: the account is finished, and no other is touched (R159, R166). -/
theorem enterClosing_acct (s : State) (h k : Nat) (kind : RecordKind) (release : Bool) :
    (s.enterClosing h kind release).acct k =
      if k = h ∧ 1 ≤ h ∧ h ≤ 64 then (s.acct h).map (fun a => a.finish kind (s.bandAt s.um.band) s.um.period)
      else s.acct k := by
  have e : (s.enterClosing h kind release).acct k =
      ((s.unbook h).setAcct h ((s.acct h).map fun a => a.finish kind (s.bandAt s.um.band) s.um.period)).acct k := rfl
  rw [e, acct_setAcct]; rfl

/-- Entering LOST: the entry, and no other (R38). -/
theorem enterLost_entry (s : State) (h k : Nat) :
    (s.enterLost h).entry k = if k = h ∧ 1 ≤ h ∧ h ≤ 64 then (s.entry h).toLost s.img.lostTime else s.entry k := by
  have e : (s.enterLost h).entry k = (s.setEntry h ((s.entry h).toLost s.img.lostTime)).entry k :=
    entry_of_roster _ _ (by simp [State.enterLost]) k
  rw [e, entry_setEntry]

/-- Entering CLOSING ends every repeat timer of the home's conditions (R96, R147). -/
theorem enterClosing_repeats (s : State) (h : Nat) (kind : RecordKind) (release : Bool) :
    ∀ r ∈ (s.enterClosing h kind release).rq.repeats,
      r.source ≠ { kind := .homeDrift, handle := h } ∧ r.source ≠ { kind := .homeLost, handle := h } ∧
        r.source ≠ { kind := .creditLow, handle := h } ∧ r.source ≠ { kind := .creditExhausted, handle := h } := by
  intro r hr
  simp only [State.enterClosing, State.endConditions, State.endCredit, State.endCondition, List.mem_filter,
    decide_eq_true_eq] at hr
  exact ⟨hr.1.1.1.2, hr.1.1.2, hr.1.2, hr.2⟩

/-- While DRAINING an entry that stands ACTIVE or LOST closes with a RESTART record and RELEASE (R192). -/
theorem drainClose_closes (s : State) (h : Nat) (hd : s.draining = true)
    (ha : (s.entry h).state = .active ∨ (s.entry h).state = .lost) : s.drainClose h = s.enterClosing h .restart true :=
  if_pos ⟨hd, ha⟩

/-- Outside DRAINING no entry closes on its own (R192). -/
theorem drainClose_stands (s : State) (h : Nat) (hd : s.draining = false) : s.drainClose h = s :=
  if_neg fun x => by rw [hd] at x; exact absurd x.1 (by decide)

/-- What the close of a draining part leaves of an entry that stood ACTIVE or LOST (R43, R192). -/
theorem drainClose_closed (s : State) (h : Nat) (hd : s.draining = true) (hh : 1 ≤ h ∧ h ≤ 64)
    (ha : (s.entry h).state = .active ∨ (s.entry h).state = .lost) : DrainClosed s (s.drainClose h) h (s.entry h) := by
  rw [drainClose_closes s h hd ha]
  refine ⟨?_, rfl, rfl, ?_, enterClosing_repeats s h .restart true, rfl, fun k hk => ⟨?_, ?_, ?_⟩⟩
  · rw [enterClosing_entry, if_pos ⟨rfl, hh⟩]; rfl
  · have e : (s.enterClosing h .restart true).drift h = (s.setDrift h { s.drift h with phase := .off }).drift h := rfl
    rw [e, drift_setDrift, if_pos ⟨rfl, hh⟩]
  · rw [enterClosing_entry, if_neg fun x => hk x.1]
  · rw [enterClosing_acct, if_neg fun x => hk x.1]
  · have e : (s.enterClosing h .restart true).drift k = (s.setDrift h { s.drift h with phase := .off }).drift k := rfl
    rw [e, drift_setDrift, if_neg fun x => hk x.1]

/-! ### The re-range of an entry (R95) -/

/-- An entry that is not ACTIVE is in no re-range. -/
@[simp] theorem reRanging_state (e : Entry) (h : e.state ≠ .active) : e.reRanging = false := by simp [Entry.reRanging, h]

/-- An entry without the DRIFT hold is in no re-range. -/
@[simp] theorem reRanging_drift (e : Entry) (h : e.holds.drift = false) : e.reRanging = false := by simp [Entry.reRanging, h]

/-! ### What the port and the windows let through -/

/-- An ATTACHED port holds no producer back (R59). -/
theorem holdsBack_attached (p : LinePort) (who : Producer) (h : p.lineState = .attached) : p.holdsBack who = false := by
  simp [LinePort.holdsBack, h]

/-- Only the Enrolment Engine is ever held back (R59). -/
theorem holdsBack_others (p : LinePort) (who : Producer) (h : who ≠ .enrolment) : p.holdsBack who = false := by
  simp [LinePort.holdsBack, h]

/-- A window whose span allows an arrival point allows every earlier one not below 0 (R13). -/
theorem spans_earlier (w : Window) (d e : Int) (h : w.spans d = true) (lo : 0 ≤ e) (hi : e ≤ d) :
    w.spans e = true := by
  have k := of_decide_eq_true h
  simp only [Config.overheadWords, Config.guardWords] at k
  refine decide_eq_true ?_
  simp only [Config.overheadWords, Config.guardWords]
  omega

end Sys2Proof.Machine
end

