-- ==== Sys2Proof/Laws/PerInstr.lean ====
section
/-! SUPPORT. One lemma for each command: what its well-formedness says of the handles, channels and data bytes it names. -/

namespace Sys2Proof.Laws

theorem all_one {α : Type} {f : α → Bool} {x : α} (h : f x = true) : [x].all f = true := by simp [h]

theorem all_two {α : Type} {f : α → Bool} {x y : α} (hx : f x = true) (hy : f y = true) : [x, y].all f = true := by
  simp [hx, hy]

theorem left2 {a b c : Bool} (h : (a && b && c) = true) : a = true := by
  cases a <;> simp_all

/-- The handles, channels and data bytes a command names directly. -/
structure Named where
  handles : List Nat
  channels : List Nat
  data : List Byte

/-- What each command names. -/
def namedBy : Instr → Named
  | .powerOnReset _ => { handles := [], channels := [], data := [] }
  | .resetAsserted => { handles := [], channels := [], data := [] }
  | .imageLoadComplete _ => { handles := [], channels := [], data := [] }
  | .noImage => { handles := [], channels := [], data := [] }
  | .cycleStart => { handles := [], channels := [], data := [] }
  | .messageFailure handle => { handles := [handle], channels := [], data := [] }
  | .releaseDropped handle => { handles := [handle], channels := [], data := [] }
  | .dataRangeObservation _ _ => { handles := [], channels := [], data := [] }
  | .discoverObservation _ _ => { handles := [], channels := [], data := [] }
  | .quietObservation _ _ => { handles := [], channels := [], data := [] }
  | .downstreamPacket _ _ _ => { handles := [], channels := [], data := [] }
  | .claim _ _ channel => { handles := [], channels := [channel], data := [] }
  | .held _ _ channel => { handles := [], channels := [channel], data := [] }
  | .offer _ _ fromChannel toChannel _ _ _ _ => { handles := [], channels := [fromChannel, toChannel], data := [] }
  | .accept _ _ channel newHandle => { handles := [newHandle], channels := [channel], data := [] }
  | .refuse _ _ channel _ => { handles := [], channels := [channel], data := [] }
  | .account _ _ fromChannel _ _ _ _ _ _ _ => { handles := [], channels := [fromChannel], data := [] }
  | .taken _ _ channel => { handles := [], channels := [channel], data := [] }
  | .reclaim _ _ fromChannel => { handles := [], channels := [fromChannel], data := [] }
  | .huntOpen _ _ => { handles := [], channels := [], data := [] }
  | .huntJoin _ _ channel _ => { handles := [], channels := [channel], data := [] }
  | .huntStep _ _ _ _ => { handles := [], channels := [], data := [] }
  | .huntReady _ _ channel _ _ => { handles := [], channels := [channel], data := [] }
  | .huntClose _ _ _ => { handles := [], channels := [], data := [] }
  | .present _ channel _ => { handles := [], channels := [channel], data := [] }
  | .carriedIgnoredFrame _ _ _ => { handles := [], channels := [], data := [] }
  | .frameCheckFailed _ => { handles := [], channels := [], data := [] }
  | .lineIdleContend _ => { handles := [], channels := [], data := [] }
  | .ownFrameVoided _ => { handles := [], channels := [], data := [] }
  | .detachTimerExpiry => { handles := [], channels := [], data := [] }
  | .resultCarried _ => { handles := [], channels := [], data := [] }
  | .reportCarried => { handles := [], channels := [], data := [] }
  | .usageFirstPartCarried => { handles := [], channels := [], data := [] }
  | .usageRecordCarried => { handles := [], channels := [], data := [] }
  | .drainComplete _ => { handles := [], channels := [], data := [] }
  | .drainTimerExpiry _ => { handles := [], channels := [], data := [] }
  | .claimHoldExpiry handle => { handles := [handle], channels := [], data := [] }
  | .lostTimerExpiry handle => { handles := [handle], channels := [], data := [] }
  | .handoverTimerExpiry handle => { handles := [handle], channels := [], data := [] }
  | .inboundTimerExpiry handle => { handles := [handle], channels := [], data := [] }
  | .guardExpiry => { handles := [], channels := [], data := [] }
  | .joinTimerExpiry => { handles := [], channels := [], data := [] }
  | .readyTimerExpiry => { handles := [], channels := [], data := [] }
  | .listeningTimerExpiry => { handles := [], channels := [], data := [] }
  | .repeatTimerExpiry _ => { handles := [], channels := [], data := [] }
  | .setProfile _ data => { handles := [], channels := [], data := data }
  | .setAccount _ data => { handles := [], channels := [], data := data }
  | .refill _ data => { handles := [], channels := [], data := data }
  | .move _ data => { handles := [], channels := [], data := data }
  | .remove _ data => { handles := [], channels := [], data := data }
  | .hold _ data => { handles := [], channels := [], data := data }
  | .clearHold _ data => { handles := [], channels := [], data := data }
  | .queryHome _ data => { handles := [], channels := [], data := data }
  | .listHomes _ data => { handles := [], channels := [], data := data }
  | .setTariff _ data _ => { handles := [], channels := [], data := data }
  | .fixTariff _ data _ => { handles := [], channels := [], data := data }
  | .setDiscovery _ data => { handles := [], channels := [], data := data }
  | .startHunt _ data => { handles := [], channels := [], data := data }
  | .restart _ data => { handles := [], channels := [], data := data }
  | .band _ data => { handles := [], channels := [], data := data }
  | .closePeriod _ data => { handles := [], channels := [], data := data }
  | .setFreeLabels _ data => { handles := [], channels := [], data := data }

/-- A well-formed command names handles 1 to 64 (R22), channels 0 to 3, and at most 48 data bytes (R173). -/
def Bounds.Statement (i : Instr) : Prop :=
  i.wf = true →
    (∀ h ∈ (namedBy i).handles, 1 ≤ h ∧ h ≤ 64) ∧ (∀ c ∈ (namedBy i).channels, c < 4) ∧ (namedBy i).data.length ≤ 48

/-- The statement for a command whose named parts are these. -/
theorem bounds_of (i : Instr) (p : Named) (e : namedBy i = p)
    (h : i.wf = true → p.handles.all handleOk = true ∧ p.channels.all channelOk = true ∧ dataOk p.data = true) :
    Bounds.Statement i := by
  subst e
  intro hw
  obtain ⟨h1, h2, h3⟩ := h hw
  simp only [List.all_eq_true, handleOk, channelOk, dataOk, Bool.and_eq_true, decide_eq_true_eq] at h1 h2 h3
  exact ⟨h1, h2, h3⟩

theorem Bounds.powerOnReset (straps : Station) : Bounds.Statement (.powerOnReset straps) :=
  bounds_of _ _ rfl fun _ => ⟨rfl, rfl, rfl⟩

theorem Bounds.resetAsserted : Bounds.Statement (.resetAsserted) :=
  bounds_of _ _ rfl fun _ => ⟨rfl, rfl, rfl⟩

theorem Bounds.imageLoadComplete (words : List ImageWord) : Bounds.Statement (.imageLoadComplete words) :=
  bounds_of _ _ rfl fun _ => ⟨rfl, rfl, rfl⟩

theorem Bounds.noImage : Bounds.Statement (.noImage) :=
  bounds_of _ _ rfl fun _ => ⟨rfl, rfl, rfl⟩

theorem Bounds.cycleStart : Bounds.Statement (.cycleStart) :=
  bounds_of _ _ rfl fun _ => ⟨rfl, rfl, rfl⟩

theorem Bounds.messageFailure (handle : Nat) : Bounds.Statement (.messageFailure handle) :=
  bounds_of _ _ rfl fun h => ⟨all_one h, rfl, rfl⟩

theorem Bounds.releaseDropped (handle : Nat) : Bounds.Statement (.releaseDropped handle) :=
  bounds_of _ _ rfl fun h => ⟨all_one h, rfl, rfl⟩

theorem Bounds.dataRangeObservation (window : WindowRef) (obs : BurstObs) : Bounds.Statement (.dataRangeObservation window obs) :=
  bounds_of _ _ rfl fun _ => ⟨rfl, rfl, rfl⟩

theorem Bounds.discoverObservation (window : WindowRef) (obs : DiscoverObs) : Bounds.Statement (.discoverObservation window obs) :=
  bounds_of _ _ rfl fun _ => ⟨rfl, rfl, rfl⟩

theorem Bounds.quietObservation (window : WindowRef) (light : Bool) : Bounds.Statement (.quietObservation window light) :=
  bounds_of _ _ rfl fun _ => ⟨rfl, rfl, rfl⟩

theorem Bounds.downstreamPacket (handle : Nat) (label : Nat) (bytes : Nat) : Bounds.Statement (.downstreamPacket handle label bytes) :=
  bounds_of _ _ rfl fun _ => ⟨rfl, rfl, rfl⟩

theorem Bounds.claim (src : Source) (serial : Serial) (channel : Nat) : Bounds.Statement (.claim src serial channel) :=
  bounds_of _ _ rfl fun h => ⟨rfl, all_one h, rfl⟩

theorem Bounds.held (src : Source) (serial : Serial) (channel : Nat) : Bounds.Statement (.held src serial channel) :=
  bounds_of _ _ rfl fun h => ⟨rfl, all_one h, rfl⟩

theorem Bounds.offer (src : Source) (serial : Serial) (fromChannel : Nat) (toChannel : Nat) (assured : Nat) (peak : Nat) (weight : Nat) (eqDelay : Nat) : Bounds.Statement (.offer src serial fromChannel toChannel assured peak weight eqDelay) :=
  bounds_of _ _ rfl fun h => ⟨rfl, all_two (Bool.and_eq_true_iff.1 (left2 h)).1 (Bool.and_eq_true_iff.1 (left2 h)).2, rfl⟩

theorem Bounds.accept (src : Source) (serial : Serial) (channel : Nat) (newHandle : Nat) : Bounds.Statement (.accept src serial channel newHandle) :=
  bounds_of _ _ rfl fun h => ⟨all_one (Bool.and_eq_true_iff.1 h).2, all_one (Bool.and_eq_true_iff.1 h).1, rfl⟩

theorem Bounds.refuse (src : Source) (serial : Serial) (channel : Nat) (reason : RefuseReason) : Bounds.Statement (.refuse src serial channel reason) :=
  bounds_of _ _ rfl fun h => ⟨rfl, all_one h, rfl⟩

theorem Bounds.account (src : Source) (serial : Serial) (fromChannel : Nat) (mode : Mode) (credit : Nat) (base : Nat) (lowWater : Nat) (residueUp : Nat) (residueDown : Nat) (period : Nat) : Bounds.Statement (.account src serial fromChannel mode credit base lowWater residueUp residueDown period) :=
  bounds_of _ _ rfl fun h => ⟨rfl, all_one (left2 (left2 (left2 h))), rfl⟩

theorem Bounds.taken (src : Source) (serial : Serial) (channel : Nat) : Bounds.Statement (.taken src serial channel) :=
  bounds_of _ _ rfl fun h => ⟨rfl, all_one h, rfl⟩

theorem Bounds.reclaim (src : Source) (serial : Serial) (fromChannel : Nat) : Bounds.Statement (.reclaim src serial fromChannel) :=
  bounds_of _ _ rfl fun h => ⟨rfl, all_one h, rfl⟩

theorem Bounds.huntOpen (src : Source) (id : HuntId) : Bounds.Statement (.huntOpen src id) :=
  bounds_of _ _ rfl fun _ => ⟨rfl, rfl, rfl⟩

theorem Bounds.huntJoin (src : Source) (id : HuntId) (channel : Nat) (count : Nat) : Bounds.Statement (.huntJoin src id channel count) :=
  bounds_of _ _ rfl fun h => ⟨rfl, all_one (Bool.and_eq_true_iff.1 h).1, rfl⟩

theorem Bounds.huntStep (src : Source) (id : HuntId) (step : Nat) (selector : Selector) : Bounds.Statement (.huntStep src id step selector) :=
  bounds_of _ _ rfl fun _ => ⟨rfl, rfl, rfl⟩

theorem Bounds.huntReady (src : Source) (id : HuntId) (channel : Nat) (step : Nat) (named : Option HomeRef) : Bounds.Statement (.huntReady src id channel step named) :=
  bounds_of _ _ rfl fun h => ⟨rfl, all_one (Bool.and_eq_true_iff.1 (left2 h)).1, rfl⟩

theorem Bounds.huntClose (src : Source) (id : HuntId) (outcome : HuntOutcome) : Bounds.Statement (.huntClose src id outcome) :=
  bounds_of _ _ rfl fun _ => ⟨rfl, rfl, rfl⟩

theorem Bounds.present (src : Source) (channel : Nat) (incumbent : Bool) : Bounds.Statement (.present src channel incumbent) :=
  bounds_of _ _ rfl fun h => ⟨rfl, all_one h, rfl⟩

theorem Bounds.carriedIgnoredFrame (cls : BitVec 3) (sender : Station) (kind : BitVec 4) : Bounds.Statement (.carriedIgnoredFrame cls sender kind) :=
  bounds_of _ _ rfl fun _ => ⟨rfl, rfl, rfl⟩

theorem Bounds.frameCheckFailed (frame : RawFrame) : Bounds.Statement (.frameCheckFailed frame) :=
  bounds_of _ _ rfl fun _ => ⟨rfl, rfl, rfl⟩

theorem Bounds.lineIdleContend (rival : Option (BitVec 11)) : Bounds.Statement (.lineIdleContend rival) :=
  bounds_of _ _ rfl fun _ => ⟨rfl, rfl, rfl⟩

theorem Bounds.ownFrameVoided (droveVoid : Bool) : Bounds.Statement (.ownFrameVoided droveVoid) :=
  bounds_of _ _ rfl fun _ => ⟨rfl, rfl, rfl⟩

theorem Bounds.detachTimerExpiry : Bounds.Statement (.detachTimerExpiry) :=
  bounds_of _ _ rfl fun _ => ⟨rfl, rfl, rfl⟩

theorem Bounds.resultCarried (straps : Station) : Bounds.Statement (.resultCarried straps) :=
  bounds_of _ _ rfl fun _ => ⟨rfl, rfl, rfl⟩

theorem Bounds.reportCarried : Bounds.Statement (.reportCarried) :=
  bounds_of _ _ rfl fun _ => ⟨rfl, rfl, rfl⟩

theorem Bounds.usageFirstPartCarried : Bounds.Statement (.usageFirstPartCarried) :=
  bounds_of _ _ rfl fun _ => ⟨rfl, rfl, rfl⟩

theorem Bounds.usageRecordCarried : Bounds.Statement (.usageRecordCarried) :=
  bounds_of _ _ rfl fun _ => ⟨rfl, rfl, rfl⟩

theorem Bounds.drainComplete (straps : Station) : Bounds.Statement (.drainComplete straps) :=
  bounds_of _ _ rfl fun _ => ⟨rfl, rfl, rfl⟩

theorem Bounds.drainTimerExpiry (straps : Station) : Bounds.Statement (.drainTimerExpiry straps) :=
  bounds_of _ _ rfl fun _ => ⟨rfl, rfl, rfl⟩

theorem Bounds.claimHoldExpiry (handle : Nat) : Bounds.Statement (.claimHoldExpiry handle) :=
  bounds_of _ _ rfl fun h => ⟨all_one h, rfl, rfl⟩

theorem Bounds.lostTimerExpiry (handle : Nat) : Bounds.Statement (.lostTimerExpiry handle) :=
  bounds_of _ _ rfl fun h => ⟨all_one h, rfl, rfl⟩

theorem Bounds.handoverTimerExpiry (handle : Nat) : Bounds.Statement (.handoverTimerExpiry handle) :=
  bounds_of _ _ rfl fun h => ⟨all_one h, rfl, rfl⟩

theorem Bounds.inboundTimerExpiry (handle : Nat) : Bounds.Statement (.inboundTimerExpiry handle) :=
  bounds_of _ _ rfl fun h => ⟨all_one h, rfl, rfl⟩

theorem Bounds.guardExpiry : Bounds.Statement (.guardExpiry) :=
  bounds_of _ _ rfl fun _ => ⟨rfl, rfl, rfl⟩

theorem Bounds.joinTimerExpiry : Bounds.Statement (.joinTimerExpiry) :=
  bounds_of _ _ rfl fun _ => ⟨rfl, rfl, rfl⟩

theorem Bounds.readyTimerExpiry : Bounds.Statement (.readyTimerExpiry) :=
  bounds_of _ _ rfl fun _ => ⟨rfl, rfl, rfl⟩

theorem Bounds.listeningTimerExpiry : Bounds.Statement (.listeningTimerExpiry) :=
  bounds_of _ _ rfl fun _ => ⟨rfl, rfl, rfl⟩

theorem Bounds.repeatTimerExpiry (source : AlarmSource) : Bounds.Statement (.repeatTimerExpiry source) :=
  bounds_of _ _ rfl fun _ => ⟨rfl, rfl, rfl⟩

theorem Bounds.setProfile (hd : RequestHeader) (data : List Byte) : Bounds.Statement (.setProfile hd data) :=
  bounds_of _ _ rfl fun h => ⟨rfl, rfl, h⟩

theorem Bounds.setAccount (hd : RequestHeader) (data : List Byte) : Bounds.Statement (.setAccount hd data) :=
  bounds_of _ _ rfl fun h => ⟨rfl, rfl, h⟩

theorem Bounds.refill (hd : RequestHeader) (data : List Byte) : Bounds.Statement (.refill hd data) :=
  bounds_of _ _ rfl fun h => ⟨rfl, rfl, h⟩

theorem Bounds.move (hd : RequestHeader) (data : List Byte) : Bounds.Statement (.move hd data) :=
  bounds_of _ _ rfl fun h => ⟨rfl, rfl, h⟩

theorem Bounds.remove (hd : RequestHeader) (data : List Byte) : Bounds.Statement (.remove hd data) :=
  bounds_of _ _ rfl fun h => ⟨rfl, rfl, h⟩

theorem Bounds.hold (hd : RequestHeader) (data : List Byte) : Bounds.Statement (.hold hd data) :=
  bounds_of _ _ rfl fun h => ⟨rfl, rfl, h⟩

theorem Bounds.clearHold (hd : RequestHeader) (data : List Byte) : Bounds.Statement (.clearHold hd data) :=
  bounds_of _ _ rfl fun h => ⟨rfl, rfl, h⟩

theorem Bounds.queryHome (hd : RequestHeader) (data : List Byte) : Bounds.Statement (.queryHome hd data) :=
  bounds_of _ _ rfl fun h => ⟨rfl, rfl, h⟩

theorem Bounds.listHomes (hd : RequestHeader) (data : List Byte) : Bounds.Statement (.listHomes hd data) :=
  bounds_of _ _ rfl fun h => ⟨rfl, rfl, h⟩

theorem Bounds.setTariff (hd : RequestHeader) (data : List Byte) (guardPin : Bool) : Bounds.Statement (.setTariff hd data guardPin) :=
  bounds_of _ _ rfl fun h => ⟨rfl, rfl, h⟩

theorem Bounds.fixTariff (hd : RequestHeader) (data : List Byte) (guardPin : Bool) : Bounds.Statement (.fixTariff hd data guardPin) :=
  bounds_of _ _ rfl fun h => ⟨rfl, rfl, h⟩

theorem Bounds.setDiscovery (hd : RequestHeader) (data : List Byte) : Bounds.Statement (.setDiscovery hd data) :=
  bounds_of _ _ rfl fun h => ⟨rfl, rfl, h⟩

theorem Bounds.startHunt (hd : RequestHeader) (data : List Byte) : Bounds.Statement (.startHunt hd data) :=
  bounds_of _ _ rfl fun h => ⟨rfl, rfl, h⟩

theorem Bounds.restart (hd : RequestHeader) (data : List Byte) : Bounds.Statement (.restart hd data) :=
  bounds_of _ _ rfl fun h => ⟨rfl, rfl, h⟩

theorem Bounds.band (hd : RequestHeader) (data : List Byte) : Bounds.Statement (.band hd data) :=
  bounds_of _ _ rfl fun h => ⟨rfl, rfl, h⟩

theorem Bounds.closePeriod (hd : RequestHeader) (data : List Byte) : Bounds.Statement (.closePeriod hd data) :=
  bounds_of _ _ rfl fun h => ⟨rfl, rfl, h⟩

theorem Bounds.setFreeLabels (hd : RequestHeader) (data : List Byte) : Bounds.Statement (.setFreeLabels hd data) :=
  bounds_of _ _ rfl fun h => ⟨rfl, rfl, h⟩

end Sys2Proof.Laws
end

