-- ==== Sys2Proof/Laws/Requests.lean ====
section
/-! SUPPORT. Requests: the numbers in their data bytes, and what a request does that is taken. -/

namespace Sys2Proof.Machine

/-! ### Data bytes (R180) -/

theorem beBytes_length (n x : Nat) : (beBytes n x).length = n := by
  induction n generalizing x with
  | zero => rfl
  | succ n ih => simp [beBytes, ih]

theorem beNat_append (a : List Byte) (b : Byte) : beNat (a ++ [b]) = beNat a * 256 + b.toNat := by simp [beNat]

/-- Reading the bytes of a number gives it back modulo the range of the bytes. -/
theorem beNat_beBytes (n x : Nat) : beNat (beBytes n x) = x % 256 ^ n := by
  induction n generalizing x with
  | zero => simp [beBytes, beNat, Nat.mod_one]
  | succ n ih =>
    rw [beBytes, beNat_append, ih, pow_succ, BitVec.toNat_ofNat, Nat.mul_comm (256 ^ n) 256, Nat.mod_mul]
    omega

/-- The number at its place between what comes before and after it. -/
theorem bytesAt_mid (a b c : List Byte) (i n : Nat) (ha : a.length = i) (hb : b.length = n) :
    bytesAt (a ++ (b ++ c)) i n = beNat b := by
  subst ha hb; simp [bytesAt]

/-- The number that ends the data. -/
theorem bytesAt_end (a b : List Byte) (i n : Nat) (ha : a.length = i) (hb : b.length = n) :
    bytesAt (a ++ b) i n = beNat b := by
  subst ha hb; simp [bytesAt]

/-- A serial written first is read back. -/
theorem serialAt_write (x : Serial) (rest : List Byte) : serialAt (beBytes 8 x.toNat ++ rest) = x := by
  unfold serialAt bytesAt
  rw [List.drop_zero, List.take_left' (beBytes_length _ _), beNat_beBytes]
  apply BitVec.eq_of_toNat_eq
  rw [BitVec.toNat_ofNat]
  have := x.isLt
  omega

/-! ### Taking -/

/-- A well-formed request that is taken answers its owner's answer, with the result queued (R180). -/
theorem request_takes {α : Type} (kind : RequestKind) (hd : RequestHeader) (args : Option α) (act : α → State → Answer)
    (s : State) (ht : s.takes hd) (x : α) (hx : args = some x) :
    request kind hd args act s = .next (queueResult kind hd (act x s.lineHeard)).settle := by
  obtain ⟨h1, h2, h3, h4, h5⟩ := ht
  subst hx
  have hc : s.cannotAnswer = false := by
    unfold State.cannotAnswer Config.resultPlaces
    rcases h5 with h | h | h <;> simp [h] <;> omega
  have hf : s.il.startup ≠ .configFault := by rcases h5 with h | h | h <;> simp [h]
  have ha : s.lineHeard.answer kind (some x) act = act x s.lineHeard := by
    unfold State.answer
    rw [if_neg (fun h => hf h.1)]
  simp [request, h1, h2, h3, hc, ha]

/-- A taken request of the wrong length is answered RANGE (R180). -/
theorem request_malformed {α : Type} (kind : RequestKind) (hd : RequestHeader) (act : α → State → Answer) (s : State)
    (ht : s.takes hd) :
    request kind hd none act s = .next (s.withResult kind hd .range .nothing).settle := by
  obtain ⟨h1, h2, h3, h4, h5⟩ := ht
  have hc : s.cannotAnswer = false := by
    unfold State.cannotAnswer Config.resultPlaces
    rcases h5 with h | h | h <;> simp [h] <;> omega
  have hf : s.il.startup ≠ .configFault := by rcases h5 with h | h | h <;> simp [h]
  have ha : s.lineHeard.answer kind none act = s.lineHeard.refusedWith .range := by
    unfold State.answer
    rw [if_neg (fun h => hf h.1)]
  simp only [request, h1, h2, h3, hc, ha, Bool.false_eq_true, if_false, if_true]
  rfl

/-- A well-formed broadcast that is taken has its owner's effect (R180). -/
theorem broadcast_takes {α : Type} (hd : RequestHeader) (args : Option α) (act : α → State → State) (s : State)
    (ht : s.takesBroadcast hd) (x : α) (hx : args = some x) : broadcast hd args act s = .next (act x s.lineHeard).settle := by
  obtain ⟨h1, h2, h3, h5⟩ := ht
  subst hx
  have hl : s.il.startup ≠ .loading := by rcases h5 with h | h | h <;> simp [h]
  have hf : s.il.startup ≠ .configFault := by rcases h5 with h | h | h <;> simp [h]
  simp [broadcast, h1, h2, h3, hl, hf]

end Sys2Proof.Machine
end

