-- ==== Sys2Proof/Tests/Slice0.lean ====
section
/-! SUPPORT. The model's own tests: an ill-formed command for each check, the worked examples of the manual, and for each statement with hypotheses a state that meets them. -/

namespace Sys2Proof.Tests

open Sys2Proof.Machine

/-! ### Helpers -/

/-- The next state, where the outcome is one. -/
def after (o : Host.Outcome State Fault Refusal) : State :=
  match o with
  | .next t => t
  | .fault _ => State.reset
  | .refused _ => State.reset

/-- An image in the ranges of R189, every alarm LEVEL: channel 1, the reach of section 3.2 and the windows of section 4.6. -/
def image : Image :=
  { channel := 1, rLow := 88000, rHigh := 112000, wDisc := 4008, pDisc := 16, qLen := 64, qPeriod := 2, kPoll := 8,
    lifeline := 64, defaultProfile := { assured := 100, peak := 1000, weight := 4 }, defaultMode := .oneShot,
    claimHold := 20, handoverTime := 200, lostTime := 400, sThr := 2, autoHunt := false, tariffGuard := true,
    alarmModes := { strayLight := .level, homeDrift := .level, homeLost := .level, creditLow := .level,
                    creditExhausted := .level, rogueFound := .level, huntEnded := .level, duplicateSerial := .level } }

/-- The words of that image, with its sum. -/
def imageWords : List ImageWord :=
  let w : List ImageWord := [1, 1, 22464, 1, 46464, 4008, 16, 64, 2, 8, 64, 100, 1000, 4, 1, 20, 200, 400, 2, 0, 1,
    2, 2, 2, 2, 2, 2, 2, 2]
  w ++ [imageSum w]

/-- A map of cycle 8 with one window of each kind, the DATA and RANGE windows for handle 9. -/
def ring : List MapRecord :=
  [{ number := 8, dark := [], messages := [], preDelay := none,
     windows :=
       [{ kind := .discover, handle := 0, start := 0, length := 4008, serial := none, outstanding := true },
        { kind := .quiet, handle := 0, start := 4012, length := 64, serial := none, outstanding := true },
        { kind := .range, handle := 9, start := 4080, length := 64, serial := some 7, outstanding := true },
        { kind := .data, handle := 9, start := 4148, length := 36, serial := some 7, outstanding := true }] }]

/-- Station 5 OPERATING in cycle 10 with that image and that map. -/
def base : State :=
  { State.reset with
    il := { ImageLoader.reset with startup := .operating, image := some image }
    slp := LinePort.reset 5
    cb := { cycle := 10, ring := ring, reached := some 8 }
    ua := { rho := 0, booked := 0, floor := 5784 } }

/-- Home 7 as an ACTIVE entry. -/
def active : Entry :=
  { Entry.free with state := .active, serial := some 7, roundTrip := some 110537, eqDelay := some 49463,
                    profile := some { assured := 100, peak := 1000, weight := 4 } }

/-- An account in ONE_SHOT with a credit of 5,000 millis. -/
def account : Account := { Account.opening .oneShot 41 with credit := 5000, adjusted := 5000, quota := .opened }

/-- `base` with an entry at handle 9 and its account. -/
def holding (e : Entry) (a : Option Account) : State :=
  { (base.setEntry 9 e).setAcct 9 a with ua := { rho := 0, booked := e.bookedTerm, floor := 5784 } }

/-- A handover context with the channel 2. -/
def context (d : Direction) : Handover :=
  { direction := d, peer := 2, timer := some 1, newHandle := some 14, reclaim := none, burstInHand := false,
    accountInHand := false }

/-- Home 7 in a state with a context. -/
def moving (st : HomeState) (d : Direction) : Entry := { active with state := st, handover := some (context d) }

/-- A state with its own notice in transmission. -/
def sending (s : State) (n : Notice) : State :=
  { s with slp := { s.slp with noticeSlot := some { notice := n, withdrawn := false }, transmitting := some .notice } }

/-- The state while DRAINING, the drain timer about to expire. -/
def draining (s : State) : State := { s with il := { s.il with startup := .draining, drainTimer := some 1 } }

/-- A window of the map of cycle 8. -/
def window (kind : WindowKind) (h start : Nat) : WindowRef := { map := 8, kind := kind, handle := h, start := start }

def dataWindow : WindowRef := window .data 9 4148
def rangeWindow : WindowRef := window .range 9 4080
def discoverWindow : WindowRef := window .discover 0 0
def quietWindow : WindowRef := window .quiet 0 4012

/-- A request header from station 14 to this terminator. -/
def header : RequestHeader := { requester := 14, dest := 5, tag := 3, voidedByOther := false }

/-! ### Ill-formed commands are refused (Sys2Proof/WellFormed.lean) -/

theorem test_wf_handles :
    (Instr.messageFailure 0).wf = false ∧ (Instr.lostTimerExpiry 65).wf = false ∧ (Instr.lostTimerExpiry 64).wf = true := by decide

theorem test_wf_channels :
    (Instr.claim .own 7 4).wf = false ∧ (Instr.claim .own 7 3).wf = true ∧ (Instr.huntJoin .own ⟨5, 0⟩ 1 65).wf = false := by decide

theorem test_wf_bursts :
    (Instr.dataRangeObservation dataWindow (.clean (-97) 9 true 0 [])).wf = false ∧
    (Instr.dataRangeObservation dataWindow (.clean 0 9 true 65536 [])).wf = false ∧
    (Instr.dataRangeObservation dataWindow (.clean 0 9 true 0 [{ label := 4096, bytes := 1, intact := true }])).wf = false ∧
    (Instr.dataRangeObservation quietWindow .dark).wf = false ∧
    (Instr.dataRangeObservation { dataWindow with start := 10000 } .dark).wf = false ∧
    (Instr.dataRangeObservation { dataWindow with handle := 0 } .dark).wf = false ∧
    (Instr.dataRangeObservation dataWindow (.clean (-96) 9 true 65535 [])).wf = true := by decide

theorem test_wf_discovery :
    (Instr.discoverObservation discoverWindow (.clean [])).wf = false ∧
    (Instr.discoverObservation discoverWindow (.clean [{ arrival := 0, serial := 7, delayIndex := 16 }])).wf = false ∧
    (Instr.quietObservation discoverWindow true).wf = false ∧ (Instr.downstreamPacket 9 4096 1).wf = false := by decide

theorem test_wf_moves :
    (Instr.offer .own 7 1 2 101 100 4 0).wf = false ∧ (Instr.offer .own 7 1 2 100 100 0 0).wf = false ∧
    (Instr.offer .own 7 1 2 100 100 1 160001).wf = false ∧ (Instr.account .own 7 1 .refill (2 ^ 32) 0 0 0 0 0).wf = false ∧
    (Instr.account .own 7 1 .refill 0 0 0 65536 0 0).wf = false := by decide

theorem test_wf_hunts :
    (Instr.huntStep .own ⟨5, 0⟩ 0 .noChannel).wf = false ∧ (Instr.huntStep .own ⟨5, 0⟩ 13 .noChannel).wf = false ∧
    (Instr.huntStep .own ⟨5, 0⟩ 1 (.part 1 7 0)).wf = false ∧ (Instr.huntStep .own ⟨5, 0⟩ 1 (.part 1 2 4)).wf = false ∧
    (Instr.huntReady .own ⟨5, 0⟩ 1 1 (some { handle := 65, serial := 7 })).wf = false ∧
    (Instr.huntClose .own ⟨5, 0⟩ (.found 4 { handle := 1, serial := 7 })).wf = false := by decide

theorem test_wf_frames :
    (Instr.carriedIgnoredFrame 1 0 0).wf = false ∧ (Instr.imageLoadComplete []).wf = false ∧
    (Instr.frameCheckFailed
      { cls := 0, sender := 0, kind := 0, dest := 0, tag := 0, length := 2, data := [1], check := 0 }).wf = false ∧
    (Instr.repeatTimerExpiry { kind := .rogueFound, handle := 1 }).wf = false ∧
    (Instr.repeatTimerExpiry { kind := .strayLight, handle := 1 }).wf = false ∧
    (Instr.setProfile header (List.replicate 49 0)).wf = false := by decide

/-! ### The worked examples of the manual -/

/-- Section 3.2: R of the homes X, Y and Z. -/
theorem test_round_trips :
    replyRoundTrip { arrival := 18765, serial := 1, delayIndex := 3 } 88000 = 105229 ∧
    replyRoundTrip { arrival := 7200, serial := 2, delayIndex := 15 } 88000 = 87520 ∧
    replyRoundTrip { arrival := 25620, serial := 3, delayIndex := 6 } 88000 = 110548 := by decide

/-- Section 3.4: home Z's E after a success at d = −11. -/
theorem test_confirmed_delay : clampDelay image (49452 - (-11)) = 49463 ∧ 160000 - 49463 = 110537 := by decide

/-- Section 4.6: the admission floor. -/
theorem test_admission_floor : admissionFloor image = 5784 := by decide

/-- Section 4.5: the four entries, C_data = 9,932 and ρ = 2. -/
def fourEntries : List AllocIn :=
  [{ handle := 1, weight := 4, demand := 3000, idle := 0, assuredCap := 500, peakCap := 4000 },
   { handle := 2, weight := 2, demand := 100, idle := 0, assuredCap := 200, peakCap := 2000 },
   { handle := 3, weight := 1, demand := 7000, idle := 2, assuredCap := 0, peakCap := 64 },
   { handle := 5, weight := 8, demand := 9000, idle := 0, assuredCap := 300, peakCap := 8000 }]

/-- Section 4.5: stage 1 and pass A, S0 = 8,984 and W = 13. -/
theorem test_allocation_stages :
    fourEntries.map (stage1 8) = [500, 100, 0, 300] ∧
    passA 8984 13 { input := fourEntries[2], g := 0, x := 0, y := 0 } = 64 ∧
    passA 8984 13 { input := fourEntries[3], g := 300, x := 0, y := 0 } = 5528 ∧
    passA 8984 13 { input := fourEntries[0], g := 500, x := 0, y := 0 } = 2500 := by decide

/-- R113: the parts of level 2 for n = 13 have sizes 3, 3, 3 and 4. -/
theorem test_parts_of_thirteen : (List.range 4).map (partSize 13 2) = [3, 3, 3, 4] := by decide

/-- Section 6.6: the steps of the worked hunt, from the guilty channel 2 of 13 homes to the verify step. -/
theorem test_hunt_strategy :
    continueFrom 13 7 (0, 0) = ((0, 0), (1, 0)) ∧ continueFrom 13 7 (1, 1) = ((1, 1), (2, 2)) ∧
    continueFrom 13 7 (2, 3) = ((2, 3), (3, 6)) ∧ continueFrom 13 7 (3, 6) = ((3, 6), (4, 12)) ∧
    continueFrom 13 7 (4, 13) = ((4, 13), (4, 13)) := by decide

/-- Section 9.5: the account of handle 8 at the close of period 41. -/
def refillAccount : Account :=
  { Account.opening .refill 41 with
    credit := 6000, base := 10000, quota := .opened, creditOpen := 10000, adjusted := 2000
    counters := { upCharged := 3000000, downCharged := 9000000, upFree := 0, downFree := 500000, charged := 6000,
                  overdraw := 0 } }

/-- Section 9.5: the first close. -/
theorem test_first_close :
    (refillAccount.closePeriod 41).credit = 10000 ∧ (refillAccount.closePeriod 41).periodFirst = 42 ∧
    ((refillAccount.closePeriod 41).snapshot.map fun x => (x.opening, x.closing, x.counters.charged, x.adjusted, x.rolled)) =
      some (10000, 6000, 6000, 2000, 0) := by decide

/-- Section 9.5: period 42 used up, as the second close finds it. -/
def spentAccount : Account :=
  { refillAccount.closePeriod 41 with
    credit := 0, quota := .exhausted
    counters := { upCharged := 5000000, downCharged := 14000000, upFree := 0, downFree := 0, charged := 11500,
                  overdraw := 1500 } }

/-- Section 9.5: the second close merges. -/
theorem test_second_close :
    ((spentAccount.closePeriod 42).snapshot.map fun x => (x.firstPeriod, x.closing, x.counters.charged, x.rolled)) =
      some (41, 0, 17500, 4000) := by decide

/-- Section 9.5: the carriage of record A leaves the remainder of period 42. -/
theorem test_remainder :
    (((spentAccount.closePeriod 42).snapshot.bind fun x =>
        (spentAccount.snapshot).bind fun a => x.afterCarriage a).map fun x =>
      (x.firstPeriod, x.opening, x.counters.charged, x.rolled)) = some (42, 6000, 11500, 4000) := by decide

/-! ### Observations -/

/-- The DATA and RANGE windows of the map of cycle 8. -/
def dataW : Window := { kind := .data, handle := 9, start := 4148, length := 36, serial := some 7, outstanding := true }
def rangeW : Window := { kind := .range, handle := 9, start := 4080, length := 64, serial := some 7, outstanding := true }
def discoverW : Window := { kind := .discover, handle := 0, start := 0, length := 4008, serial := none, outstanding := true }
def quietW : Window := { kind := .quiet, handle := 0, start := 4012, length := 64, serial := none, outstanding := true }

/-- The hypotheses on the window that every statement about an observation shares. -/
def Observed (s : State) (r : WindowRef) (w : Window) : Prop :=
  s.resetHeld = false ∧ s.observable r = true ∧ s.findWindow r = some w

def home : State := holding active (some account)
def missedSix : State := holding { active with missed := 6 } (some account)
def missedSeven : State := holding { active with missed := 7 } (some account)

theorem witness_MissedDataWindow :
    Observed missedSeven dataWindow dataW ∧ (missedSeven.entry 9).serial = dataW.serial ∧
    (missedSeven.entry 9).state.served = true ∧ (missedSeven.entry 9).missed = 7 ∧
    (missedSeven.entry 9).state = .active ∧ missedSeven.draining = false ∧ dataW.spans (-96) = true ∧ 8 ≠ dataWindow.handle := by unfold Observed; decide

theorem witness_MissedDataWindow_counting :
    Observed missedSix dataWindow dataW ∧ (missedSix.entry 9).state.served = true ∧ (missedSix.entry 9).missed < 7 := by
  unfold Observed; decide

theorem witness_MissedDataWindow_draining :
    Observed (draining missedSeven) dataWindow dataW ∧ ((draining missedSeven).entry 9).state = .active ∧
    7 ≤ ((draining missedSeven).entry 9).missed ∧ (draining missedSeven).draining = true ∧
    missedSeven.img.alarmModes.get .homeLost ≠ .off ∧
    missedSeven.slp.alarmInSlot { kind := .homeLost, handle := 9 } = false := by unfold Observed; decide

/-- R37, R38: the eighth missed window takes an ACTIVE home to LOST. -/
theorem test_eighth_miss :
    ((after (exec (.dataRangeObservation dataWindow .dark) missedSeven)).entry 9).state = .lost ∧
    ((after (exec (.dataRangeObservation dataWindow .dark) missedSix)).entry 9).state = .active := by decide

def secondMisplaced : State := holding { active with misplaced := 2 } (some account)

theorem witness_CleanDataBurst :
    Observed home dataWindow dataW ∧ (home.entry 9).serial = dataW.serial ∧ (home.entry 9).state = .active ∧
    (home.entry 9).mailbox = none ∧ (home.drift 9).phase = .off ∧ (24 : Int).natAbs ≤ 24 ∧
    dataW.spans 24 = true := by unfold Observed; decide

theorem witness_CleanDataBurst_misplaced :
    Observed secondMisplaced dataWindow dataW ∧ (secondMisplaced.entry 9).serial = dataW.serial ∧
    (secondMisplaced.entry 9).state = .active ∧ (secondMisplaced.entry 9).mailbox = none ∧
    (secondMisplaced.drift 9).phase = .off ∧ (secondMisplaced.entry 9).misplaced = 2 ∧ 25 ≤ (-25 : Int).natAbs ∧
    dataW.spans (-25) = true := by
  unfold Observed; decide

/-- R91, R92: 4 steps ask for no correction, 5 do, and 25 make the third misplaced burst (R93). -/
theorem test_offsets :
    ((after (exec (.dataRangeObservation dataWindow (.clean 4 9 true 50 [])) home)).entry 9).mailbox = none ∧
    (((after (exec (.dataRangeObservation dataWindow (.clean 5 9 true 50 [])) home)).entry 9).mailbox.map Message.kind) =
      some (.adjust 49458) ∧
    ((after (exec (.dataRangeObservation dataWindow (.clean 25 9 true 50 [])) secondMisplaced)).entry 9).holds.drift = true := by
  decide

/-- Section 3.4: home Z CONFIRMING, its ASSIGN carried first in map 8. -/
def confirming : State :=
  holding { active with
    state := .confirming, eqDelay := some 49452, roundTrip := some 110548, seqBit := true
    mailbox := some { kind := .assign 7 9 49452, seqBit := true, carried := 2, firstMap := some 8 } } none

theorem witness_ConfirmationSucceeds :
    Observed confirming rangeWindow rangeW ∧ (confirming.entry 9).serial = some 7 ∧ rangeW.serial = some 7 ∧
    (confirming.entry 9).state = .confirming ∧
    (confirming.entry 9).mailbox = some { kind := .assign 7 9 49452, seqBit := true, carried := 2, firstMap := some 8 } ∧
    (confirming.entry 9).eqDelay = some 49452 ∧ (24 : Int).natAbs ≤ 24 ∧ rangeW.spans 24 = true ∧
    confirming.draining = false := by
  unfold Observed; decide

theorem witness_ConfirmationSucceeds_draining :
    Observed (draining confirming) rangeWindow rangeW ∧ ((draining confirming).entry 9).state = .confirming ∧
    (draining confirming).draining = true ∧ ((draining confirming).entry 9).bookedTerm = 116 := by unfold Observed; decide

/-- Section 3.4: a success at d = −11 stores E = 49,463 and posts ADJUST with bit 0. -/
theorem test_confirmation :
    ((after (exec (.dataRangeObservation rangeWindow (.clean (-11) 9 true 0 [])) confirming)).entry 9).eqDelay = some 49463 ∧
    ((after (exec (.dataRangeObservation rangeWindow (.clean (-11) 9 true 0 [])) confirming)).entry 9).mailbox =
      some { kind := .adjust 49463, seqBit := false, carried := 0, firstMap := none } := by decide +kernel

/-- The entry's state, the kinds of its message and of its snapshot. -/
def ending (s : State) : HomeState × Option MsgKind × Option RecordKind :=
  ((s.entry 9).state, (s.entry 9).mailbox.map Message.kind, ((s.acct 9).bind Account.snapshot).map Snapshot.kind)

/-- R64, R192: what becomes ACTIVE or LOST while DRAINING closes in the same change. -/
theorem test_draining_closes :
    ending (after (exec (.dataRangeObservation rangeWindow (.clean 0 9 true 0 [])) (draining confirming))) =
      (.closing, some .release, some .restart) ∧
    ending (after (exec (.dataRangeObservation dataWindow .dark) (draining missedSeven))) =
      (.closing, some .release, some .restart) := by decide +kernel

def tuning : State :=
  holding { moving .tuning .outbound with
    seqBit := true, mailbox := some { kind := .tune 2 14, seqBit := true, carried := 1, firstMap := some 8 } } (some account)

theorem witness_TuneAcknowledged :
    Observed tuning dataWindow dataW ∧ (tuning.entry 9).serial = some 7 ∧ dataW.serial = some 7 ∧
    (tuning.entry 9).state = .tuning ∧
    (tuning.entry 9).mailbox = some { kind := .tune 2 14, seqBit := true, carried := 1, firstMap := some 8 } ∧
    tuning.acct 9 = some account ∧ dataW.spans (-96) = true ∧ dataW.spans 223 = true := by unfold Observed; decide

theorem test_tune_acknowledged :
    ((after (exec (.dataRangeObservation dataWindow (.clean 0 9 true 50 [])) tuning)).entry 9).state = .handed ∧
    (after (exec (.dataRangeObservation dataWindow (.clean 0 9 true 50 [])) tuning)).outgoing .transfer =
      [.account 7 1 .oneShot 5000 0 0 0 0 41] := by decide

/-! ### Discovery and quiet windows -/

def discovering : State := { base with ee := { Enrolment.reset with discoveryEnable := true } }

/-- A reply of home 7 with a delay index of 0, whose R is R_low and its arrival point. -/
def reply (arrival : Int) : Reply := { arrival := arrival, serial := 7, delayIndex := 0 }

theorem witness_CaptureClaims :
    Observed discovering discoverWindow discoverW ∧ discovering.captures = true ∧
    discovering.ee.captures = [none, none, none, none] ∧ replyRoundTrip (reply 0) 88000 = 88000 ∧
    replyRoundTrip (reply 24000) 88000 = 112000 ∧ discovering.img.rLow = 88000 ∧ discovering.img.rHigh = 112000 ∧
    discovering.find 7 = none ∧ discovering.freeHandle = some 1 ∧
    discovering.admits discovering.img.defaultProfile.assured = true ∧ discoverW.spans 0 = true ∧
    discoverW.spans 24000 = true := by unfold Observed; decide

theorem witness_CaptureClaims_discarded :
    Observed base discoverWindow discoverW ∧ base.ee.discoveryEnable = false ∧
    DiscoverObs.inSpan discoverW .dark = true := by unfold Observed; decide

theorem witness_OutOfReach :
    Observed discovering discoverWindow discoverW ∧ discovering.captures = true ∧
    discovering.ee.captures = [none, none, none, none] ∧
    (discovering.img.rLow : Int) + (-1) - 512 * 0 < discovering.img.rLow ∧
    (discovering.img.rHigh : Int) < discovering.img.rLow + 24001 - 512 * 0 ∧ discoverW.spans (-1) = true ∧
    discoverW.spans 24001 = true := by unfold Observed; decide

theorem test_capture :
    ((after (exec (.discoverObservation discoverWindow (.clean [reply 24000])) discovering)).entry 1).eqDelay = some 48000 ∧
    (after (exec (.discoverObservation discoverWindow (.clean [reply 24001])) discovering)).rq.events =
      [.outOfReach 7 0 112001] := by decide

def oneLight : State := { base with lw := { base.lw with history := [false, true, false, false, false, false, false, false] } }

theorem witness_QuietTaken :
    Observed oneLight quietWindow quietW ∧ oneLight.hu.role = .noRole ∧ oneLight.img.autoHunt = false ∧
    oneLight.lw.condition = false ∧ oneLight.img.alarmModes.strayLight ≠ .off := by unfold Observed; decide

/-- R98: the second LIGHT of eight starts the stray condition at S_thr = 2. -/
theorem test_stray_light :
    (after (exec (.quietObservation quietWindow true) oneLight)).lw.condition = true ∧
    (after (exec (.quietObservation quietWindow false) oneLight)).lw.condition = false := by decide

/-- An owner in a phase, with a hunt of its own. -/
def hunting (o : OwnerPart) : State :=
  { base with hu := { Hunt.reset with role := .owner o, flag := some ⟨5, 0⟩, huntId := some ⟨5, 0⟩, guardTimer := some 1 } }

def measuring : OwnerPart := { OwnerPart.opening with phase := .measuring, tally := 2 }

theorem witness_QuietTaken_owner :
    Observed (hunting measuring) quietWindow quietW ∧ (hunting measuring).hu.role = .owner measuring ∧
    measuring.phase = .measuring ∧ measuring.tally < 3 := by unfold Observed; decide

def participating : State :=
  { home with hu := { Hunt.reset with
      role := .participant, flag := some ⟨6, 0⟩, huntId := some ⟨6, 0⟩, guardTimer := some 1,
      frozen := [{ home := { handle := 9, serial := 7 }, dead := false }] } }

/-- The second LIGHT outcome becomes a suspicion: auto-hunt is set. -/
def suspecting (h : Hunt) : State :=
  { oneLight with il := { oneLight.il with image := some { image with autoHunt := true } }, hu := h }

theorem witness_HuntOpenHeard_suspicion :
    Observed (suspecting Hunt.reset) quietWindow quietW ∧ (suspecting Hunt.reset).hu.role = .noRole ∧
    (suspecting Hunt.reset).img.sThr ≤ lightCount ((oneLight.lw.history ++ [true]).drop 1) ∧
    (suspecting Hunt.reset).img.autoHunt = true ∧ (suspecting Hunt.reset).operating = true ∧ Hunt.reset.flag = none ∧
    Hunt.reset.opening = false ∧
    Observed (suspecting { Hunt.reset with flag := some ⟨6, 0⟩, guardTimer := some 1 }) quietWindow quietW ∧
    oneLight.img.autoHunt = false := by unfold Observed; decide

/-- R99, R107, R110: a suspicion opens a hunt, and one while a hunt runs is deferred. -/
theorem test_suspicion :
    (after (exec (.quietObservation quietWindow true) (suspecting Hunt.reset))).outgoing .hunt = [.huntOpen ⟨5, 0⟩] ∧
    (after (exec (.quietObservation quietWindow true)
      (suspecting { Hunt.reset with flag := some ⟨6, 0⟩, guardTimer := some 1 }))).hu.deferred = true := by decide

theorem witness_QuietTaken_participant :
    Observed participating quietWindow quietW ∧ participating.hu.role = .participant := by unfold Observed; decide

/-! ### The downstream gate -/

def spent : State := holding active (some { account with credit := 0, quota := .exhausted })

theorem witness_DownstreamGate :
    home.resetHeld = false ∧ home.acct 9 = some account ∧ (home.entry 9).state.served = true ∧ account.quota ≠ .exhausted ∧
    spent.acct 9 = some { account with credit := 0, quota := .exhausted } ∧ freeDown spent.um.freeLabels 3 = false := by decide

theorem test_gate :
    (after (exec (.downstreamPacket 9 3 1000) home)).ports.opticalOut = some { handle := 9, label := 3, bytes := 1000 } ∧
    (after (exec (.downstreamPacket 9 3 1000) spent)).ports.opticalOut = none := by decide

/-! ### Claims on the line -/

/-- Home 7 CLAIMING at handle 9, its capture in the first place. -/
def claimingWith (p : ClaimPart) : State :=
  { holding { active with state := .claiming } none with
    ee := { discoveryEnable := true,
            captures := [some { serial := 7, arrival := 0, delayIndex := 0, claim := some p }, none, none, none] } }

def claimQueued : ClaimPart := { handle := 9, carried := false, holdTimer := none }
def claimCarried : ClaimPart := { handle := 9, carried := true, holdTimer := some 1 }
def claiming : State := sending (claimingWith claimQueued) (.claim 7 1)
def claimHeldOut : State := claimingWith claimCarried

theorem witness_ClaimCarriedAndHeld :
    claiming.resetHeld = false ∧ claiming.slp.transmitting = some .notice ∧
    claiming.slp.noticeSlot = some { notice := .claim 7 claiming.channel, withdrawn := false } ∧
    claiming.slp.detachSpan = none ∧
    claiming.ee.captures = [some { serial := 7, arrival := 0, delayIndex := 0, claim := some claimQueued }, none, none, none] ∧
    (claiming.entry 9).state = .claiming ∧ (claiming.entry 9).serial = some 7 := by decide

theorem witness_ClaimCarriedAndHeld_expiry :
    claimHeldOut.claimAt 9 = some claimCarried ∧ claimCarried.holdTimer = some 1 ∧ (claimHeldOut.entry 9).state = .claiming ∧
    (claimHeldOut.entry 9).serial = some 7 ∧ (claimHeldOut.entry 9).eqDelay = some 49463 ∧
    (claimHeldOut.entry 9).mailbox = none ∧ (claimHeldOut.entry 9).seqBit = false ∧ claimHeldOut.draining = false := by decide

theorem witness_ClaimCarriedAndHeld_draining :
    { claimHeldOut with il := { claimHeldOut.il with startup := .draining } : State }.draining = true := by decide

theorem test_claim_carried :
    (after (exec (.claim .own 7 1) claiming)).claimAt 9 = some { handle := 9, carried := true, holdTimer := some 20 } := by decide

theorem test_claim_hold_over :
    ((after (exec (.claimHoldExpiry 9) claimHeldOut)).entry 9).mailbox =
      some { kind := .assign 7 9 49463, seqBit := true, carried := 0, firstMap := none } ∧
    ((after (exec (.claimHoldExpiry 9) claimHeldOut)).entry 9).state = .confirming := by decide

def lost : State := holding { active with state := .lost, lostTimer := some 1 } (some account)
def closing : State := holding { active with state := .closing } (some account)

theorem witness_PeerClaim :
    base.find 7 = none ∧ closing.find 7 = some 9 ∧ (closing.entry 9).state = .closing ∧
    claimHeldOut.find 7 = some 9 ∧ (claimHeldOut.claimAt 9).any ClaimPart.carried = true ∧
    (claiming.claimAt 9).any ClaimPart.carried = false ∧ lost.find 7 = some 9 ∧ (lost.entry 9).state = .lost ∧
    home.find 7 = some 9 ∧ home.slp.stands (.held 7 home.channel) = false ∧
    (sending home (.held 7 1)).slp.stands (.held 7 1) = true := by decide

theorem test_peer_claim :
    (after (exec (.claim (.other 6) 7 2) home)).outgoing .enrolment = [.held 7 1] ∧
    ((after (exec (.claim (.other 6) 7 2) lost)).entry 9).state = .closing := by decide

theorem witness_OfferAnswersHeard_held :
    (sending home (.held 7 1)).slp.transmitting = some .notice ∧
    (sending home (.held 7 1)).slp.noticeSlot = some { notice := .held 7 1, withdrawn := false } ∧
    base.find 7 = none ∧ closing.find 7 = some 9 ∧ (closing.entry 9).state = .closing ∧ claimHeldOut.find 7 = some 9 ∧
    (claimHeldOut.entry 9).state = .claiming ∧ confirming.find 7 = some 9 ∧ (confirming.entry 9).state = .confirming ∧
    home.find 7 = some 9 ∧ (home.entry 9).state = .active := by decide

theorem test_held :
    (after (exec (.held (.other 6) 7 2) confirming)).entry 9 = Entry.free ∧
    (after (exec (.held (.other 6) 7 2) claimHeldOut)).entry 9 = Entry.free := by decide

/-! ### Moves -/

theorem witness_OfferAnswered :
    base.builds = true ∧ base.operating = true ∧ base.channel = 1 ∧ base.slp.lineState = .attached ∧ base.find 7 = none ∧
    base.freeHandle = some 1 ∧ base.ua.booked + (max 100 4 + 16) ≤ base.ua.floor ∧
    base.ua.floor < base.ua.booked + (max 5769 4 + 16) ∧ home.find 7 ≠ none := by decide

/-- R128: a term that reaches the floor is taken, one word more is refused. -/
theorem test_offer :
    (after (exec (.offer (.other 6) 7 2 1 100 1000 4 49463) base)).outgoing .transfer = [.accept 7 1 1] ∧
    (after (exec (.offer (.other 6) 7 2 1 5769 8000 4 49463) base)).outgoing .transfer = [.refuse 7 1 .overbook] := by decide

def leaving : State := holding (moving .leaving .outbound) (some account)

theorem witness_OfferAnswersHeard :
    (sending base (.accept 7 1 1)).slp.noticeSlot = some { notice := .accept 7 1 1, withdrawn := false } ∧
    leaving.find 7 = some 9 ∧ (leaving.entry 9).state = .leaving ∧ (leaving.entry 9).handover = some (context .outbound) ∧
    (context .outbound).direction = .outbound ∧ (context .outbound).peer = 2 ∧ (leaving.entry 9).mailbox = none ∧
    (leaving.entry 9).missed < 8 ∧ (leaving.entry 9).misplaced < 3 ∧ home.find 7 = some 9 ∧
    (home.entry 9).state ≠ .leaving := by decide

theorem test_accept :
    ((after (exec (.accept (.other 6) 7 2 14) leaving)).entry 9).mailbox =
      some { kind := .tune 2 14, seqBit := true, carried := 0, firstMap := none } := by decide

theorem test_refuse :
    (after (exec (.refuse (.other 6) 7 2 .busy) leaving)).rq.events = [.homeMoved 7 1 2 (some 14) (.returnedRefused .busy)] ∧
    ((after (exec (.refuse (.other 6) 7 3 .busy) leaving)).entry 9).state = .leaving := by decide

/-- A LEAVING home that met its third misplaced burst or its eighth missed window on the move, or with an ADJUST pending. -/
def leavingLate (misplaced missed : Nat) (m : Option Message) : State :=
  holding { moving .leaving .outbound with misplaced := misplaced, missed := missed, mailbox := m } (some account)

/-- An ADJUST whose first map was 7. -/
def adjusting (carried : Nat) : Message :=
  { kind := .adjust 49463, seqBit := true, carried := carried, firstMap := if carried = 0 then none else some 7 }

theorem witness_OfferAnswersHeard_late :
    ((leavingLate 3 0 none).entry 9).misplaced = 3 ∧ ((leavingLate 3 0 none).entry 9).missed < 8 ∧
    8 ≤ ((leavingLate 0 8 none).entry 9).missed ∧ (leavingLate 0 8 none).draining = false ∧
    ((leavingLate 0 0 (some (adjusting 0))).entry 9).mailbox = some (adjusting 0) ∧ (adjusting 0).carried = 0 ∧
    (adjusting 1).carried ≠ 0 ∧ (leavingLate 0 0 (some (adjusting 1))).find 7 = some 9 := by decide

theorem witness_OfferAnswersHeard_draining :
    (draining leaving).draining = true ∧ (draining leaving).find 7 = some 9 ∧ ((draining leaving).entry 9).state = .leaving ∧
    8 ≤ ((draining (leavingLate 0 8 none)).entry 9).missed ∧ 3 ≤ ((draining (leavingLate 3 0 none)).entry 9).misplaced ∧
    ((draining (leavingLate 3 0 none)).entry 9).missed < 8 ∧
    leaving.img.alarmModes.get .homeDrift ≠ .off := by decide

/-- R192: the move that returns while DRAINING closes, and HOME_MOVED is raised all the same. -/
theorem test_draining_return :
    ending (after (exec (.refuse (.other 6) 7 2 .busy) (draining leaving))) = (.closing, some .release, some .restart) ∧
    (after (exec (.refuse (.other 6) 7 2 .busy) (draining leaving))).rq.events =
      [.homeMoved 7 1 2 (some 14) (.returnedRefused .busy)] := by decide +kernel

/-- R31, R37, R93: TUNE stands in place of an ADJUST, and a return finds what fell due on the move. -/
theorem test_late_return :
    (((after (exec (.accept (.other 6) 7 2 14) (leavingLate 0 0 (some (adjusting 0))))).entry 9).mailbox.map fun m =>
      (m.kind, m.seqBit)) = some (.tune 2 14, true) ∧
    ((after (exec (.refuse (.other 6) 7 2 .busy) (leavingLate 3 0 none))).entry 9).holds.drift = true ∧
    ((after (exec (.refuse (.other 6) 7 2 .busy) (leavingLate 0 8 none))).entry 9).state = .lost := by decide

def arrivingWith (burst : Bool) : State :=
  holding { active with state := .arriving, handover := some { context .inbound with burstInHand := burst } } none

theorem witness_AccountInstalled :
    (arrivingWith true).find 7 = some 9 ∧ ((arrivingWith true).entry 9).state = .arriving ∧
    ((arrivingWith true).entry 9).handover = some { context .inbound with burstInHand := true } ∧
    (context .inbound).direction = .inbound ∧ (context .inbound).peer = 2 ∧ (context .inbound).accountInHand = false ∧
    ((arrivingWith false).entry 9).state = .arriving := by decide

theorem test_account :
    ((after (exec (.account (.other 6) 7 2 .oneShot 5000 0 0 1 2 41) (arrivingWith true))).entry 9).state = .taking ∧
    ((after (exec (.account (.other 6) 7 2 .oneShot 5000 0 0 1 2 41) (arrivingWith false))).entry 9).state = .arriving := by
  decide

def taking : State := sending (holding (moving .taking .inbound) (some account)) (.taken 7 1)
def handed : State := holding (moving .handed .outbound) (some account)

theorem witness_TakenCarried :
    taking.slp.transmitting = some .notice ∧ taking.slp.noticeSlot = some { notice := .taken 7 1, withdrawn := false } ∧
    taking.slp.detachSpan = none ∧ taking.draining = false ∧ taking.find 7 = some 9 ∧ (taking.entry 9).state = .taking ∧
    (taking.entry 9).handover = some (context .inbound) ∧ taking.acct 9 = some account := by decide

/-- The TAKEN in transmission, withdrawn at the start of draining. -/
def takenWithdrawn : State :=
  { draining taking with slp := { taking.slp with noticeSlot := some { notice := .taken 7 1, withdrawn := true } } }

theorem witness_TakenCarried_draining :
    takenWithdrawn.slp.transmitting = some .notice ∧
    takenWithdrawn.slp.noticeSlot = some { notice := .taken 7 1, withdrawn := true } ∧ takenWithdrawn.slp.detachSpan = none ∧
    takenWithdrawn.draining = true ∧ takenWithdrawn.find 7 = some 9 ∧ (takenWithdrawn.entry 9).state = .taking ∧
    (takenWithdrawn.entry 9).handover = some (context .inbound) ∧ takenWithdrawn.acct 9 = some account := by decide

theorem witness_TakenCarried_old :
    handed.find 7 = some 9 ∧ (handed.entry 9).state = .handed ∧ (handed.entry 9).handover = some (context .outbound) ∧
    (context .outbound).direction = .outbound ∧ (context .outbound).peer = 2 ∧ lost.find 7 = some 9 ∧
    (lost.entry 9).state = .lost := by decide

/-- R140, R192: a TAKEN carried while DRAINING leaves the entry CLOSING with a RESTART record. -/
theorem test_taken_draining :
    ending (after (exec (.taken .own 7 1) takenWithdrawn)) = (.closing, some .release, some .restart) ∧
    (after (exec (.taken .own 7 1) takenWithdrawn)).rq.events = [.homeMoved 7 2 1 (some 9) .arrived] := by decide +kernel

theorem test_taken :
    ((after (exec (.taken .own 7 1) taking)).entry 9).state = .active ∧
    ((after (exec (.taken (.other 6) 7 2) handed)).entry 9).state = .closing := by decide +kernel

def reclaiming : State :=
  sending (holding { active with state := .tuning, handover := some { context .outbound with reclaim := some .tuneFailed } }
    (some account)) (.reclaim 7 1)
def reclaimingHanded : State := sending handed (.reclaim 7 1)

theorem witness_ReclaimCarried :
    reclaiming.find 7 = some 9 ∧ (reclaiming.entry 9).handover = some { context .outbound with reclaim := some .tuneFailed } ∧
    reclaiming.slp.noticeSlot = some { notice := .reclaim 7 1, withdrawn := false } ∧
    reclaiming.slp.transmitting = some .notice ∧ reclaiming.slp.detachSpan = none ∧ reclaiming.draining = false ∧
    (reclaiming.entry 9).state = .tuning ∧ (reclaiming.entry 9).missed < 8 ∧ (reclaiming.entry 9).misplaced < 3 ∧
    (reclaimingHanded.entry 9).state = .handed ∧ reclaimingHanded.slp.transmitting = some .notice := by decide

theorem witness_ReclaimCarried_draining :
    (draining reclaimingHanded).draining = true ∧ ((draining reclaimingHanded).entry 9).state = .handed ∧
    (draining reclaimingHanded).slp.transmitting = some .notice ∧
    (draining reclaimingHanded).slp.noticeSlot = some { notice := .reclaim 7 1, withdrawn := false } ∧
    ((draining reclaiming).entry 9).state = .tuning ∧ (draining leaving).draining = true ∧
    ((draining leaving).entry 9).handover = some (context .outbound) := by decide

theorem witness_ReclaimCarried_target :
    (arrivingWith true).find 7 = some 9 ∧ ((arrivingWith true).entry 9).state = .arriving ∧
    ((arrivingWith true).entry 9).handover.map Handover.peer = some 2 := by decide

theorem test_reclaim :
    ((after (exec (.reclaim .own 7 1) reclaimingHanded)).entry 9).state = .lost ∧
    ((after (exec (.reclaim (.other 6) 7 2) (arrivingWith true))).entry 9).state = .free ∧
    ending (after (exec (.reclaim .own 7 1) (draining reclaimingHanded))) = (.closing, some .release, some .restart) := by
  decide +kernel

def tuneUnread : State :=
  holding { moving .tuning .outbound with
    seqBit := true, mailbox := some { kind := .tune 2 14, seqBit := true, carried := 0, firstMap := none } } (some account)

theorem witness_ReclaimCarried_timers :
    (leaving.entry 9).serial = some 7 ∧ (leaving.entry 9).handover = some (context .outbound) ∧
    (context .outbound).timer = some 1 ∧ (leaving.entry 9).state = .leaving ∧ (tuneUnread.entry 9).state = .tuning ∧
    (tuneUnread.entry 9).mailbox.any (fun m => m.kind.isTune) = true ∧ (handed.entry 9).state = .handed ∧
    ((arrivingWith false).entry 9).state = .arriving ∧ (context .inbound).timer = some 1 := by decide

theorem witness_ReclaimCarried_others :
    (lost.entry 9).state = .lost ∧ (lost.entry 9).lostTimer = some 1 ∧ base.find 7 = none ∧ home.find 7 = some 9 ∧
    (home.entry 9).state ≠ .tuning ∧ (home.entry 9).state ≠ .handed ∧ (tuning.entry 9).handover = some (context .outbound) ∧
    (context .outbound).reclaim = none ∧ handed.acct 9 = some account ∧ leaving.slp.noticeSlot = none := by decide

theorem test_handover_timer :
    ((after (exec (.handoverTimerExpiry 9) leaving)).entry 9).state = .active ∧
    (after (exec (.handoverTimerExpiry 9) handed)).outgoing .transfer = [.reclaim 7 1] := by decide

theorem test_inbound_timer : ((after (exec (.inboundTimerExpiry 9) (arrivingWith false))).entry 9).state = .free := by decide

theorem test_lost_timer :
    ((after (exec (.lostTimerExpiry 9) lost)).entry 9).state = .closing ∧
    (after (exec (.lostTimerExpiry 9) lost)).rq.events = [.homeReleased (some 7) 9 .lostTimeout] := by decide

/-! ### The hunt -/

def hunted : State := { base with hu := { Hunt.reset with flag := some ⟨6, 0⟩, guardTimer := some 1 } }
def opening : State := sending { base with hu := { Hunt.reset with opening := true, openCount := 1 } } (.huntOpen ⟨5, 0⟩)

theorem witness_HuntOpenHeard :
    hunted.hu.flag.isSome = true ∧ home.hu.flag = none ∧ home.hu.role = .noRole ∧ home.operating = true ∧
    opening.hu.flag = none ∧ opening.hu.opening = true ∧ State.reset.operating = false := by decide

theorem test_open :
    (after (exec (.huntOpen (.other 6) ⟨6, 0⟩) home)).outgoing .hunt = [.huntJoin ⟨6, 0⟩ 1 1] ∧
    (after (exec (.huntOpen (.other 6) ⟨6, 0⟩) opening)).hu.deferred = true := by decide

/-- A suspicion deferred while a hunt of another station runs, two of the history LIGHT. -/
def deferring : State :=
  { hunted with hu := { hunted.hu with deferred := true }, lw := { hunted.lw with history := [true, true] } }

def joined : Participant := { channel := 2, count := 13, ready := false }
def waiting : OwnerPart :=
  { OwnerPart.opening with phase := .waiting, participants := [joined], readyTimer := some 1, joinTimer := none, step := 3 }

theorem witness_OwnerRecord :
    opening.slp.transmitting = some .notice ∧ opening.slp.noticeSlot = some { notice := .huntOpen ⟨5, 0⟩, withdrawn := false } ∧
    opening.hu.flag = none ∧ opening.hu.role = .noRole ∧ opening.operating = true ∧
    (hunting OwnerPart.opening).hu.flag = some ⟨5, 0⟩ ∧ OwnerPart.opening.phase = .collecting ∧
    OwnerPart.opening.joinTimer.isSome = true ∧ OwnerPart.opening.participants.length < 4 ∧
    (hunting waiting).hu.flag = some ⟨5, 0⟩ ∧ waiting.phase = .waiting ∧ waiting.readyTimer.isSome = true ∧ waiting.step = 3 ∧
    (∃ p ∈ waiting.participants, p.channel = 2) ∧ ∀ p ∈ waiting.participants, p.channel ≠ 2 → p.ready = true := by decide

def readied : Participant := { channel := 0, count := 4, ready := true }
def unready : Participant := { channel := 0, count := 4, ready := false }

/-- The owner that waits for the READYs of its verify step. -/
def awaiting (p : Participant) : OwnerPart := { waiting with participants := [p, joined], selector := .part 2 4 13 }

def ownJoin : State := sending (hunting OwnerPart.opening) (.huntJoin ⟨5, 0⟩ 1 20)
def ownReady : State := sending (hunting (awaiting unready)) (.huntReady ⟨5, 0⟩ 0 3 none)

theorem witness_OwnerRecord_ready :
    (hunting (awaiting readied)).hu.flag = some ⟨5, 0⟩ ∧ (awaiting readied).selector = .part 2 4 13 ∧
    (∃ p ∈ (awaiting readied).participants, p.channel = 2) ∧
    (∀ p ∈ (awaiting readied).participants, p.channel ≠ 2 → p.ready = true) ∧
    (∃ p ∈ (awaiting unready).participants, p.channel ≠ 2 ∧ p.ready = false) ∧
    (awaiting unready).readyTimer.isSome = true ∧ waiting.selector = .noChannel ∧
    ownJoin.slp.noticeSlot = some { notice := .huntJoin ⟨5, 0⟩ 1 20, withdrawn := false } ∧
    ownReady.slp.noticeSlot = some { notice := .huntReady ⟨5, 0⟩ 0 3 none, withdrawn := false } ∧
    ownReady.slp.transmitting = some .notice ∧ base.hu.role.isOwner = false ∧
    (hunting waiting).hu.flag ≠ some ⟨6, 0⟩ := by decide

/-- R116: the READY of the selector's channel names the found home, and the owner measures once all are ready. -/
theorem test_ready_named :
    (after (exec (.huntReady (.other 6) ⟨5, 0⟩ 2 3 (some { handle := 21, serial := 8 })) (hunting (awaiting unready)))).hu.role =
      .owner { awaiting unready with participants := [unready, { joined with ready := true }],
                                     found := some { handle := 21, serial := 8 } } ∧
    (after (exec (.huntReady .own ⟨5, 0⟩ 0 3 none) ownReady)).hu.role =
      .owner { awaiting unready with participants := [readied, joined] } := by decide

theorem test_owner_opens :
    ((after (exec (.huntOpen .own ⟨5, 0⟩) opening)).hu.role = .owner OwnerPart.opening) ∧
    (after (exec (.huntJoin (.other 6) ⟨5, 0⟩ 2 13) (hunting OwnerPart.opening))).hu.role =
      .owner { OwnerPart.opening with participants := [joined] } ∧
    (after (exec (.huntJoin .own ⟨5, 0⟩ 1 20) ownJoin)).hu.role =
      .owner { OwnerPart.opening with participants := [{ channel := 1, count := 20, ready := false }] } := by decide

theorem test_ready :
    (after (exec (.huntReady (.other 6) ⟨5, 0⟩ 2 3 none) (hunting waiting))).hu.role =
      .owner { waiting with participants := [{ joined with ready := true }], readyTimer := none, phase := .measuring } := by
  decide

/-- The owner's own close in transmission. -/
def ownClose : State := sending (hunting { waiting with phase := .closing, stepsCarried := 4 }) (.huntClose ⟨5, 0⟩ .notFound)

/-- The owner behind its third quiet window, of the step this selector named. -/
def thirdWindow (sel : Selector) : OwnerPart := { waiting with phase := .measuring, tally := 3, selector := sel }

theorem witness_HuntOpenHeard_ends :
    deferring.hu.flag = some ⟨6, 0⟩ ∧ deferring.hu.role.isOwner = false ∧ deferring.hu.opening = false ∧
    deferring.hu.deferred = true ∧ deferring.hu.guardTimer = some 1 ∧ deferring.img.sThr ≤ lightCount deferring.lw.history ∧
    ownClose.slp.transmitting = some .notice ∧
    ownClose.slp.noticeSlot = some { notice := .huntClose ⟨5, 0⟩ .notFound, withdrawn := false } ∧
    ownClose.hu.flag = some ⟨5, 0⟩ ∧ ownClose.hu.deferred = false ∧
    ownClose.hu.role = .owner { waiting with phase := .closing, stepsCarried := 4 } := by decide

theorem witness_HuntOpenHeard_decision :
    Observed (hunting (thirdWindow .noChannel)) quietWindow quietW ∧
    (hunting (thirdWindow .noChannel)).hu.role = .owner (thirdWindow .noChannel) ∧
    (hunting (thirdWindow .noChannel)).hu.huntId = some ⟨5, 0⟩ ∧ (thirdWindow .noChannel).phase = .measuring ∧
    (thirdWindow .noChannel).tally = 3 ∧ (thirdWindow .noChannel).decide true = .step none (.part 2 0 0) ∧
    (thirdWindow .noChannel).decide false = .close .inconclusive ∧
    (thirdWindow (.part 2 0 0)).decide false = .step (some (2, 0, 0)) (.part 2 1 0) ∧
    (hunting (thirdWindow .noChannel)).draining = false := by unfold Observed; decide

/-- R110, R117 to R119: the re-test opens, the owner acts on its fourth quiet window, and its close tells the steps carried. -/
theorem test_hunt_ends :
    (after (exec (.huntClose (.other 6) ⟨6, 0⟩ .notFound) deferring)).outgoing .hunt = [.huntOpen ⟨5, 0⟩] ∧
    (after (exec (.quietObservation quietWindow false) (hunting (thirdWindow (.part 2 0 0))))).outgoing .hunt =
      [.huntStep ⟨5, 0⟩ 4 (.part 2 1 0)] ∧
    (after (exec (.huntClose .own ⟨5, 0⟩ .notFound) ownClose)).places =
      [({ kind := .huntEnded, handle := 0 }, .huntEnded (some ⟨5, 0⟩) .notFound 4, false, 1)] := by decide

def stepping : State := sending (hunting { waiting with phase := .stepping }) (.huntStep ⟨5, 0⟩ 3 (.part 2 0 0))

theorem witness_HuntStepHeard :
    hunted.hu.flag = some ⟨6, 0⟩ ∧ base.hu.flag = none ∧ participating.hu.flag = some ⟨6, 0⟩ ∧
    participating.hu.role = .participant ∧ participating.draining = false ∧
    { participating with il := { participating.il with startup := .draining } : State }.draining = true ∧
    stepping.slp.noticeSlot = some { notice := .huntStep ⟨5, 0⟩ 3 (.part 2 0 0), withdrawn := false } ∧
    stepping.slp.transmitting = some .notice ∧ stepping.hu.flag = some ⟨5, 0⟩ ∧
    stepping.hu.role = .owner { waiting with phase := .stepping } ∧ stepping.draining = false := by decide

/-- The own HUNT_OPEN in the slot, not yet on the line. -/
def openingOffered : State := { opening with slp := { opening.slp with transmitting := none } }

theorem witness_HuntStepHeard_opening :
    openingOffered.hu.flag = none ∧ openingOffered.hu.opening = true ∧ openingOffered.resetHeld = false ∧
    base.hu.opening = false ∧ base.hu.flag = none := by decide

/-- R108: the step of a hunt not heard of before withdraws the own offer and defers its suspicion. -/
theorem test_step_yields :
    (after (exec (.huntStep (.other 6) ⟨6, 0⟩ 4 .noChannel) openingOffered)).outgoing .hunt = [] ∧
    (after (exec (.huntStep (.other 6) ⟨6, 0⟩ 4 .noChannel) openingOffered)).hu.deferred = true := by decide

theorem test_step :
    ((after (exec (.huntStep (.other 6) ⟨6, 0⟩ 4 (.part 1 0 0)) participating)).entry 9).holds.hunt = true ∧
    (after (exec (.huntStep (.other 6) ⟨6, 0⟩ 4 (.part 1 0 0)) participating)).hu.awaiting =
      some { step := 4, map := 11, named := some { handle := 9, serial := 7 } } := by decide

def verifying : OwnerPart :=
  { waiting with selector := .part 2 4 13, guiltyChannel := some 2, guiltyPart := some (4, 13),
                 found := some { handle := 21, serial := 8 } }

/-- The owner whose bisection step darkened the lower child of the guilty part (0, 0). -/
def bisecting : OwnerPart :=
  { waiting with selector := .part 2 1 0, guiltyChannel := some 2, guiltyPart := some (0, 0) }

theorem witness_OwnerDecides :
    OwnerPart.opening.selector = .noChannel ∧ (∀ p ∈ OwnerPart.opening.participants, p.channel < 0 ∨ p.count = 0 ∨ 4 ≤ p.channel) ∧
    verifying.selector = .part 2 4 13 ∧ verifying.guiltyChannel = some 2 ∧ verifying.guiltyPart = some (4, 13) ∧
    verifying.found = some { handle := 21, serial := 8 } ∧ { verifying with found := none }.found = none ∧
    { waiting with selector := .part 0 0 0 }.guiltyChannel = none ∧ waiting.selector = .noChannel ∧
    (∃ p ∈ waiting.participants, p.channel = 2 ∧ 1 ≤ p.count) ∧
    (∀ p ∈ waiting.participants, 0 ≤ p.channel → p.channel < 2 → p.count = 0) ∧
    (∀ p ∈ waiting.participants, 1 ≤ p.channel → p.channel < 2 → p.count = 0) ∧
    (∀ p ∈ waiting.participants, p.channel < 3 ∨ p.count = 0 ∨ 4 ≤ p.channel) := by decide

theorem witness_OwnerDecides_continues :
    bisecting.selector = .part 2 1 0 ∧ bisecting.guiltyChannel = some 2 ∧ bisecting.guiltyPart = some (0, 0) ∧
    ((1, 0) : Nat × Nat) ≠ (0, 0) ∧ 2 ≤ partSize (bisecting.countOf 2) 1 0 ∧ 2 ≤ partSize (bisecting.countOf 2) 1 1 ∧
    { bisecting with selector := .part 2 4 12, guiltyPart := some (3, 6) }.selector = .part 2 4 12 ∧
    partSize (bisecting.countOf 2) 4 12 = 1 ∧ partSize (bisecting.countOf 2) 4 13 = 1 ∧
    { waiting with selector := .part 2 0 0 }.selector = .part 2 0 0 ∧ 2 ≤ partSize (waiting.countOf 2) 0 0 ∧
    joined ∈ waiting.participants ∧ (∀ q ∈ waiting.participants, q.channel = joined.channel → q = joined) := by decide

/-- Section 6.6: from the baseline to the channel step, and the verify step gone names handle 21. -/
theorem test_decisions :
    { waiting with selector := .noChannel }.decide true = .step none (.part 2 0 0) ∧
    verifying.decide false = .close (.found 2 { handle := 21, serial := 8 }) ∧
    bisecting.decide true = .step (some (2, 1, 1)) (.part 2 2 2) ∧
    { bisecting with selector := .part 2 4 12, guiltyPart := some (3, 6) }.decide true =
      .step (some (2, 4, 13)) (.part 2 4 13) := by decide

theorem witness_HuntCloses :
    participating.hu.flag = some ⟨6, 0⟩ ∧ participating.hu.deferred = false ∧ participating.hu.role ≠ .noRole ∧
    hunted.hu.flag = some ⟨6, 0⟩ ∧ hunted.hu.role = .noRole ∧ (hunting waiting).hu.flag = some ⟨5, 0⟩ ∧
    (hunting waiting).hu.role = .owner waiting ∧ participating.builds = true ∧
    participating.isHome { handle := 9, serial := 7 } = true ∧ participating.img.alarmModes.rogueFound ≠ .off := by decide

theorem test_close :
    ((after (exec (.huntClose (.other 6) ⟨6, 0⟩ (.found 1 { handle := 9, serial := 7 })) participating)).entry 9).holds =
      { Holds.clear with rogue := true } ∧
    (after (exec (.huntClose (.other 6) ⟨6, 0⟩ .notFound) participating)).hu.role = .noRole := by decide

def collecting : OwnerPart := { OwnerPart.opening with joinTimer := some 1, participants := [joined] }
def unjoined : OwnerPart := { OwnerPart.opening with joinTimer := some 1 }

theorem witness_HuntTimers :
    hunted.hu.flag = some ⟨6, 0⟩ ∧ hunted.hu.guardTimer = some 1 ∧ hunted.hu.deferred = false ∧
    (hunting collecting).hu.guardTimer = some 1 ∧ (hunting collecting).hu.role = .owner collecting ∧
    (hunting collecting).hu.huntId = some ⟨5, 0⟩ ∧ collecting.phase = .collecting ∧ collecting.joinTimer = some 1 ∧
    collecting.participants ≠ [] ∧ unjoined.participants = [] ∧ (hunting waiting).hu.huntId = some ⟨5, 0⟩ ∧
    waiting.phase = .waiting ∧ waiting.readyTimer = some 1 ∧ (hunting waiting).draining = false := by decide

theorem test_hunt_timers :
    (after (exec .joinTimerExpiry (hunting collecting))).outgoing .hunt = [.huntStep ⟨5, 0⟩ 1 .noChannel] ∧
    (after (exec .joinTimerExpiry (hunting unjoined))).outgoing .hunt = [.huntClose ⟨5, 0⟩ .abandoned] := by decide

theorem test_ready_timer :
    (after (exec .readyTimerExpiry (hunting waiting))).outgoing .hunt = [.huntClose ⟨5, 0⟩ .abandoned] := by decide

theorem test_guard : (after (exec .guardExpiry participating)).hu.role = .noRole ∧ (after (exec .guardExpiry hunted)).hu.flag = none := by
  decide

/-! ### Start-up and draining -/

/-- LOADING in cycle 15, the last in which a read may end. -/
def loading : State := { State.reset with cb := { CycleBuilder.reset with cycle := 15 } }

/-- The image with R_low above R_high, its sum right. -/
def badWords : List ImageWord :=
  let w : List ImageWord := (imageWords.take 29).set 1 2
  w ++ [imageSum w]

theorem witness_ImageLoads :
    loading.resetHeld = false ∧ loading.il.startup = .loading ∧ loading.cb.cycle.toNat < 16 ∧ 15 ≤ loading.cb.cycle.toNat ∧
    imageWords.length = 30 ∧ imageSum imageWords = (imageWords[29]?).getD 0 ∧ firstBadField imageWords = none ∧
    badWords.length = 30 ∧ imageSum badWords = (badWords[29]?).getD 0 ∧ firstBadField badWords = some .rHigh ∧
    imageSum (imageWords.set 29 0) ≠ ((imageWords.set 29 0)[29]?).getD 0 := by decide

theorem witness_GoodImageInRange : firstBadField imageWords = none ∧ readImage imageWords = image := by decide

theorem test_image :
    (after (exec (.imageLoadComplete imageWords) loading)).outgoing .loader = [.present 1 false] ∧
    (after (exec (.imageLoadComplete badWords) loading)).il.fault = some (.badField .rHigh) := by decide

theorem test_no_image :
    (after (exec .noImage loading)).il.fault = some .noImage ∧ (after (exec .noImage State.reset)).il.startup = .loading := by
  decide

def listening (t : Timer) : State := { base with il := { base.il with startup := .listening, listenTimer := t } }

theorem witness_PresentHeard :
    (sending (listening none) (.present 1 false)).slp.noticeSlot = some { notice := .present 1 false, withdrawn := false } ∧
    (listening none).channel = 1 ∧ (listening none).il.startup = .listening ∧ (listening none).slp.detachSpan = none ∧
    (listening (some 1)).il.listenTimer = some 1 ∧ base.builds = true ∧ base.slp.stands (.present 1 true) = false ∧
    (sending base (.present 1 true)).slp.stands (.present 1 true) = true ∧ State.reset.il.startup = .loading := by decide

theorem test_present :
    (after (exec (.present (.other 6) 1 false) (listening none))).il.fault = some .channelClash ∧
    (after (exec (.present (.other 6) 1 false) (listening (some 1)))).outgoing .loader = [.present 1 true] := by decide

theorem test_listening_over : (after (exec .listeningTimerExpiry (listening (some 1)))).il.startup = .operating := by decide

theorem witness_DrainingEnds :
    (draining base).draining = true ∧ (draining base).drained = true ∧ (draining handed).drained = false ∧
    (draining handed).il.drainTimer = some 1 := by decide

theorem test_drain :
    (after (exec (.drainComplete 5) (draining base))).il.startup = .loading ∧
    (after (exec (.drainComplete 5) (draining handed))).il.startup = .draining ∧
    (after (exec (.drainTimerExpiry 5) (draining handed))).il.startup = .loading := by decide

/-- A result in transmission. -/
def answering (s : State) (k : RequestKind) : State :=
  { s with slp := { s.slp with transmitting := some .result },
           rq := { s.rq with results := [{ kind := k, requester := 14, tag := 3, code := .ok, data := .nothing }] } }

theorem witness_ResultCarried :
    (answering home .restart).slp.transmitting = some .result ∧ (answering home .restart).il.startup = .operating ∧
    (answering home .restart).slp.detachSpan = none ∧ (home.entry 9).state = .active ∧
    (answering (listening none) .restart).il.startup = .listening ∧ (answering home .move).il.startup = .operating ∧
    ((arrivingWith true).entry 9).state = .arriving ∧ (handed.entry 9).state = .handed := by decide

/-- Homes 1 to 4 at handles 1 to 4, ARRIVING, TAKING, LEAVING and TUNING, beside the LEAVING home 7 at handle 9 whose OFFER waits; the RESTART's OK in transmission. -/
def manyMoving : State :=
  let s := answering (holding (moving .leaving .outbound) (some account)) .restart
  let t := (((s.setEntry 1 { moving .arriving .inbound with serial := some 1 }).setEntry 2
    { moving .taking .inbound with serial := some 2 }).setEntry 3 { moving .leaving .outbound with serial := some 3 }).setEntry 4
    { moving .tuning .outbound with serial := some 4 }
  { t with slp := { t.slp with queued := [.offer 7 1 2 100 1000 4 49463, .accept 1 1 1, .taken 2 1, .accept 8 1 5] } }

theorem witness_ResultCarried_moves :
    manyMoving.slp.transmitting = some .result ∧ manyMoving.il.startup = .operating ∧ manyMoving.slp.detachSpan = none ∧
    (manyMoving.entry 2).state = .taking ∧
    (handles.map fun h => (manyMoving.entry h).serial).filter Option.isSome = [some 1, some 2, some 3, some 4, some 7] ∧
    (∀ h ∈ handles, (manyMoving.entry h).state ≠ .free → (manyMoving.entry h).serial.isSome = true) := by decide

/-- No serial stands on two entries: the entries of `manyMoving` are five. -/
theorem witness_ResultCarried_serials : ∀ h ∈ handles, ∀ k ∈ handles, (manyMoving.entry h).state ≠ .free →
    (manyMoving.entry k).state ≠ .free → (manyMoving.entry h).serial = (manyMoving.entry k).serial → h = k := by
  have free : ∀ h ∈ handles, h ∈ [1, 2, 3, 4, 9] ∨ (manyMoving.entry h).state = .free := by decide
  have five : ∀ h ∈ [1, 2, 3, 4, 9], ∀ k ∈ [1, 2, 3, 4, 9],
      (manyMoving.entry h).serial = (manyMoving.entry k).serial → h = k := by decide
  intro h hh k hk fh fk e
  exact five h ((free h hh).resolve_right fh) k ((free k hk).resolve_right fk) e

/-- R140: the OFFER, the ACCEPT and the TAKEN are withdrawn, and RECLAIM is queued for the OFFER that was carried and for the TUNE. -/
theorem test_draining_notices :
    let t := ([1, 2, 3, 4, 9].foldl State.drainEntry (draining { manyMoving with slp := { manyMoving.slp with transmitting := none } }))
    t.outgoing .transfer = [.accept 8 1 5, .reclaim 3 1, .reclaim 4 1] ∧ t.entry 2 = Entry.free := by decide

/-- R192: the start of draining closes an ACTIVE home, and the carriage resets the part in LISTENING. -/
theorem test_restart_carried :
    ((home.drainEntry 9).entry 9).state = .closing ∧
    (after (exec (.resultCarried 5) (answering (listening none) .restart))).il.startup = .loading := by decide

theorem test_reset :
    (after (exec (.powerOnReset 9) home)).slp.station = 9 ∧ (after (exec (.powerOnReset 9) home)).entry 9 = Entry.free ∧
    (after (exec .cycleStart (after (exec .resetAsserted home)))).cb.cycle = 10 := by decide

/-! ### RANGE windows -/

/-- Home 7 on its re-range, with the message of its mailbox. -/
def ranging (p : Phase) (attempts : Nat) (m : Option Message) : State :=
  (holding { active with holds := { Holds.clear with drift := true }, misplaced := 3, rangeAttempts := attempts, mailbox := m }
    (some account)).setDrift 9 { phase := p, lastOffset := some 30, tripOffset := some 30 }

/-- An ADJUST whose first map was 8. -/
def settling : Message := { adjusting 1 with firstMap := some 8 }

/-- A clean burst in a re-range sets idle to 0 (R35), and the one that acknowledges the ADJUST gives it the count grown throughout the re-range (R95). -/
theorem test_idle_reRange :
    let s := ranging .settling 0 (some settling)
    let grown := s.setEntry 9 { s.entry 9 with idle := 3, reRangeIdle := 6 }
    let after (r : WindowRef) (ack : Bool) := (after (exec (.dataRangeObservation r (.clean 0 9 ack 0 [])) grown)).entry 9
    (after rangeWindow false).idle = 0 ∧ (after rangeWindow false).reRangeIdle = 6 ∧ (after rangeWindow true).idle = 6 ∧
    (s.entry 9).reRanging = true ∧ ((s.entry 9).afterBuild 12 true true).reRangeIdle = 1 ∧
    ((s.entry 9).afterBuild 12 true true).idle = 0 := by decide

def attempting (n : Nat) : State := holding { active with state := .confirming, rangeAttempts := n } none

def arrivingAccounted : State :=
  holding { active with state := .arriving, handover := some { context .inbound with accountInHand := true } } (some account)

theorem witness_RangeWindowJudged :
    Observed home rangeWindow rangeW ∧ rangeW.spans (-96) = true ∧ rangeW.spans (-97) = false ∧ rangeW.spans 447 = true ∧
    rangeW.spans 448 = false ∧ rangeW.length = 64 ∧ Observed base rangeWindow rangeW ∧ (base.entry 9).state = .free ∧
    BurstObs.inSpan rangeW .dark = true ∧ DiscoverObs.inSpan discoverW (.clean [reply 32000]) = false := by
  unfold Observed; decide

theorem witness_RangeWindowJudged_adjusted :
    let s := holding { active with mailbox := some (adjusting 1) } (some account)
    Observed s dataWindow dataW ∧ (s.entry 9).state = .active ∧ (s.entry 9).serial = dataW.serial ∧
    (s.drift 9).phase = .off ∧ (s.entry 9).mailbox = some (adjusting 1) ∧ (adjusting 1).firstMap = some 7 ∧
    (dataWindow.map - 7).toNat < 2 ^ 31 ∧ dataW.spans 4 = true := by unfold Observed; decide

theorem witness_RangeWindowJudged_ranging :
    Observed (ranging .seeking 0 none) rangeWindow rangeW ∧ ((ranging .seeking 0 none).entry 9).serial = rangeW.serial ∧
    ((ranging .seeking 0 none).drift 9).phase = .seeking ∧ ((ranging .seeking 0 none).entry 9).mailbox = none ∧
    ((ranging .settling 7 (some settling)).drift 9).phase = .settling ∧
    ((ranging .settling 7 (some settling)).entry 9).mailbox = some settling ∧ settling.firstMap = some rangeWindow.map ∧
    1 ≤ settling.carried ∧ 7 ≤ ((ranging .settling 7 (some settling)).entry 9).rangeAttempts ∧
    (ranging .settling 7 (some settling)).draining = false := by unfold Observed; decide

theorem witness_RangeWindowJudged_draining :
    Observed (draining lost) rangeWindow rangeW ∧ (draining lost).draining = true ∧ ((draining lost).entry 9).state = .lost ∧
    ((draining lost).entry 9).mailbox = none ∧
    Observed (draining (ranging .settling 7 (some settling))) rangeWindow rangeW ∧
    7 ≤ ((draining (ranging .settling 7 (some settling))).entry 9).rangeAttempts ∧
    ((draining (ranging .settling 7 (some settling))).drift 9).phase ≠ .off := by unfold Observed; decide

theorem witness_RangeWindowJudged_others :
    Observed lost rangeWindow rangeW ∧ (lost.entry 9).state = .lost ∧ (lost.entry 9).mailbox = none ∧
    lost.draining = false ∧ Observed (arrivingWith false) rangeWindow rangeW ∧
    ((arrivingWith false).entry 9).state = .arriving ∧ ((arrivingWith false).entry 9).mailbox = none ∧
    (arrivingAccounted.entry 9).handover = some { context .inbound with accountInHand := true } ∧
    Observed (attempting 2) rangeWindow rangeW ∧ ((attempting 2).entry 9).state = .confirming ∧
    ((attempting 1).entry 9).rangeAttempts < 2 ∧ (8 : Nat) ≠ rangeWindow.handle := by unfold Observed; decide

/-- R13: a burst beyond its window's span is no observation of it. -/
theorem test_out_of_span :
    (after (exec (.dataRangeObservation rangeWindow (.clean 448 9 true 0 [])) lost)).cb = lost.cb ∧
    ((after (exec (.dataRangeObservation rangeWindow (.clean 447 9 true 0 [])) lost)).entry 9).state = .active := by decide

/-- R94, R95: the burst of SEEKING posts the correction, and the one that acknowledges it ends the re-range. -/
theorem test_re_range :
    (((after (exec (.dataRangeObservation rangeWindow (.clean 30 9 true 0 [])) (ranging .seeking 0 none))).entry 9).mailbox.map
      Message.kind) = some (.adjust 49433) ∧
    ((after (exec (.dataRangeObservation rangeWindow (.clean 0 9 true 0 [])) (ranging .settling 7 (some settling)))).entry
      9).holds.drift = false ∧
    ((after (exec (.dataRangeObservation rangeWindow .dark) (ranging .settling 7 (some settling)))).entry 9).state = .lost := by
  decide

/-- R132, R133: up to 24 steps the arrival is the burst in hand. -/
theorem test_arrival :
    ((after (exec (.dataRangeObservation rangeWindow (.clean (-24) 9 true 0 [])) arrivingAccounted)).entry 9).state = .taking ∧
    ((after (exec (.dataRangeObservation rangeWindow (.clean 25 9 true 0 [])) arrivingAccounted)).entry 9).state = .arriving := by
  decide

/-! ### The cycle and the mailbox -/

/-- A participant whose READY waits for map 8, before cycle 10. -/
def readying : State :=
  { participating with
    cb := { participating.cb with cycle := 9 }
    hu := { participating.hu with awaiting := some { step := 4, map := 8, named := none } } }

theorem witness_CycleStart :
    home.resetHeld = false ∧ home.builds = true ∧ State.reset.builds = false ∧
    readying.hu.awaiting = some { step := 4, map := readying.cb.cycle + 1 - 2, named := none } ∧
    readying.hu.huntId = some ⟨6, 0⟩ ∧ (readying.cb.ring.any fun m => m.number = readying.cb.cycle + 1 - 2) = true ∧
    (home.cb.ring.any fun m => m.number = home.cb.cycle + 1 - 2) = false ∧ lost.builds = true ∧
    (lost.entry 9).state = .lost ∧ (hunting waiting).hu.role = .owner waiting := by decide

/-- Home 7 with a backlog of 50 words, before map 12. -/
def backlog : State := { holding { active with reportQ := 50 } (some account) with cb := { cycle := 11, ring := [], reached := none } }

theorem witness_CycleStart_idle :
    active.reRanging = false ∧ ((ranging .seeking 0 none).entry 9).reRanging = true ∧
    { ranging .seeking 0 none with cb := backlog.cb }.rangeServed = [9] ∧ home.builds = true := by decide

theorem witness_MapArbitrated :
    (fourEntries.map AllocIn.handle).Pairwise (· < ·) ∧ (∀ i ∈ fourEntries, i.handle ∈ handles) ∧
    (fourEntries.map fun i => grantCost 0 (stage1 8 i)).sum = 948 ∧
    20 ≤ 9932 - 948 ∧ (fourEntries.filter fun i => stage1 8 i < min i.demand i.peakCap).map AllocIn.handle = [1, 3, 5] ∧
    967 - 948 < 20 := by decide

/-- Section 4.5: with ρ = 2 the pointer moves on to 3. -/
theorem test_rho : (allocate 8 2 9932 fourEntries).2 = 3 := by decide

/-- R11, R6: the READY of map 8 is queued at the start of cycle 10, and map 10 leaves the optical port. -/
theorem test_ready_queued :
    (after (exec .cycleStart readying)).outgoing .hunt = [.huntReady ⟨6, 0⟩ 1 4 none] ∧
    ((after (exec .cycleStart home)).ports.downstream.map fun x => match x with
      | .map m => some m.number
      | .packet _ => none) = [some 11] := by decide

theorem witness_MapFits :
    (home.img.wDisc ≤ 6000 ∧ home.img.qLen ≤ 512) ∧
    (handles.map fun h => (home.entry h).bookedTerm).sum ≤ admissionFloor home.img ∧
    (handles.map fun h => (backlog.entry h).bookedTerm).sum ≤ admissionFloor backlog.img ∧
    (backlog.windowList 12).any (fun w => w.kind = .data) = true := by decide

theorem witness_StageOneFits :
    home.img.wDisc ≤ 6000 ∧ home.img.qLen ≤ 512 ∧
    (handles.map fun h => (home.entry h).bookedTerm).sum ≤ admissionFloor home.img := by decide

/-- R7, R72: a backlog of 50 words is a DATA window of 62 behind the QUIET window of map 12. -/
theorem test_map :
    ((backlog.windowList 12).map fun w => (w.kind, w.start, w.length)) = [(.quiet, 0, 64), (.data, 68, 62)] := by decide

theorem test_cycle :
    (after (exec .cycleStart home)).cb.cycle = 11 ∧ (after (exec .cycleStart home)).cb.ring.length = 2 ∧
    (after (exec .cycleStart State.reset)).cb.ring = [] := by decide

/-- A message of this kind whose first map was 8, in cycle 26. -/
def unread (e : Entry) (k : MsgKind) (n : Nat) : State :=
  { holding { e with mailbox := some { kind := k, seqBit := true, carried := n, firstMap := some 8 } } none with
    cb := { base.cb with cycle := 26 } }

theorem witness_MessageEnds :
    ((unread active (.adjust 5) 16).entry 9).mailbox =
      some { kind := .adjust 5, seqBit := true, carried := 16, firstMap := some 8 } ∧
    18 ≤ ((unread active (.adjust 5) 16).cb.cycle - 8).toNat ∧
    ((unread { active with state := .confirming } (.assign 7 9 5) 16).entry 9).state = .confirming ∧
    ((unread (moving .tuning .outbound) (.tune 2 14) 16).entry 9).state = .tuning ∧
    ((unread (moving .tuning .outbound) (.tune 2 14) 16).entry 9).handover = some (context .outbound) ∧
    ((unread { active with state := .closing } .release 4).entry 9).mailbox =
      some { kind := .release, seqBit := true, carried := 4, firstMap := some 8 } := by decide

theorem test_message_failure :
    ((after (exec (.messageFailure 9) (unread { active with state := .confirming } (.assign 7 9 5) 16))).entry 9).state = .free ∧
    ((after (exec (.messageFailure 9) (unread active (.adjust 5) 15))).entry 9).mailbox ≠ none := by decide

theorem test_release_dropped :
    ((after (exec (.releaseDropped 9) (unread { active with state := .closing } .release 4))).entry 9).mailbox = none ∧
    ((after (exec (.releaseDropped 9) (unread { active with state := .closing } .release 3))).entry 9).mailbox ≠ none := by decide

/-! ### The line -/

def badFrame : RawFrame := { cls := 0, sender := 0, kind := 0, dest := 0, tag := 0, length := 0, data := [], check := 0 }

def detached : State := { base with slp := { base.slp with lineState := .detached, detachTimer := some 1 } }

theorem witness_FramesHeard :
    crc (frameBits badFrame) ≠ badFrame.check ∧ 48 < ({ badFrame with length := 49 } : RawFrame).length.toNat ∧
    detached.slp.lineState = .detached ∧ detached.slp.detachTimer = some 1 := by decide +kernel

/-- R173, R174: the check register starts at all ones, so a frame of zeros fails the check 0. -/
theorem test_voided_frame :
    (after (exec (.frameCheckFailed badFrame) base)).ports.voidDriven = true ∧
    (after (exec (.frameCheckFailed badFrame) detached)).ports.voidDriven = false := by decide +kernel

/-- The check of the nine digits 1 to 9, a value the polynomial is known by. -/
theorem test_check :
    crc ([0x31, 0x32, 0x33, 0x34, 0x35, 0x36, 0x37, 0x38, 0x39].flatMap fun b : Byte => bitsOf b) = 0x29B1 := by decide +kernel

theorem test_ignored_and_attached :
    (after (exec (.carriedIgnoredFrame 3 6 0) home)).entry 9 = active ∧
    (after (exec .detachTimerExpiry detached)).slp.lineState = .attached := by decide

/-- R59: a HELD waits in the engine's queue while the port is DETACHED, and is offered when it is ATTACHED again. -/
theorem test_held_back :
    let t := after (exec (.claim (.other 6) 7 2) { home with slp := detached.slp })
    t.slp.queue .enrolment = [.held 7 1] ∧ t.slp.noticeSlot = none ∧
    (after (exec .detachTimerExpiry t)).slp.noticeSlot = some { notice := .held 7 1, withdrawn := false } := by decide

/-- A notice waiting in its slot. -/
def offering : State := { sending base (.held 7 1) with slp := { (sending base (.held 7 1)).slp with transmitting := none } }

def voids (n : Nat) (s : State) : State := { s with slp := { s.slp with voidCount := n } }

theorem witness_PortContends :
    offering.il.startup ≠ .loading ∧ offering.slp.lineState = .attached ∧ offering.slp.transmitting = none ∧
    offering.slotFull .notice = true ∧ (sending base (.held 7 1)).slp.transmitting = some .notice ∧
    (voids 30 (sending base (.held 7 1))).slp.voidCount < 31 ∧ 31 ≤ (voids 31 (sending base (.held 7 1))).slp.voidCount ∧
    (sending base (.held 7 1)).slp.noticeSlot = some { notice := .held 7 1, withdrawn := false } ∧ base.draining = false := by
  decide

theorem test_contention :
    (after (exec (.lineIdleContend (some 0x600)) offering)).slp.transmitting = some .notice ∧
    (after (exec (.lineIdleContend (some 0x040)) offering)).slp.transmitting = none := by decide

theorem test_void :
    (after (exec (.ownFrameVoided false) (voids 31 claiming))).slp.lineState = .detached ∧
    (after (exec (.ownFrameVoided false) (voids 31 claiming))).entry 9 = Entry.free ∧
    (after (exec (.ownFrameVoided false) (voids 30 claiming))).slp.lineState = .attached := by decide

/-- A snapshot of period 41 and the record offered from it. -/
def snapshot : Snapshot := account.formSnapshot .period 41

def recordOf (p : UsagePart) (content : Snapshot) : UsageFrame :=
  { handle := 9, serial := some 7, channel := 1, content := content, number := 0, part := p }

/-- The record in transmission, with the entry and what its account's snapshot holds by now. -/
def recording (e : Entry) (p : UsagePart) (content now : Snapshot) : State :=
  let s := holding e (some { account with snapshot := some now })
  { s with slp := { s.slp with transmitting := some .usage, usageSlot := some (recordOf p content) } }

def finalSnapshot : Snapshot := { snapshot with kind := .restart }

def reporting (b : ReportBody) : State :=
  { base with slp := { base.slp with transmitting := some .report, reportSlot := some { number := 0, body := b } },
              rq := { base.rq with events := [.lineDetached 4000] } }

theorem witness_ReportsCarried :
    (reporting (.event (.lineDetached 4000) false)).slp.detachSpan = none ∧
    (reporting (.event (.lineDetached 4000) false)).slp.transmitting = some .report ∧
    (recording active .first snapshot snapshot).slp.usageSlot = some (recordOf .first snapshot) ∧
    (recording active .second snapshot snapshot).slp.transmitting = some .usage ∧
    (recording active .second snapshot snapshot).acct 9 = some { account with snapshot := some snapshot } ∧
    ((recording { active with state := .closing } .second finalSnapshot finalSnapshot).entry 9).state = .closing ∧
    finalSnapshot.kind ≠ .period ∧ finalSnapshot ≠ snapshot := by decide

/-- Two places of one moment behind an older one, an event, and snapshots at the handles 3 and 9, every slot empty. -/
def unoffered : State :=
  let place (k : AlarmKind) (age : AlarmAge) : AlarmPlace :=
    { source := { kind := k, handle := 9 }, content := .homeLost (some 7), repeated := false, count := 1, age := age }
  let s := (base.setAcct 9 (some { account with snapshot := some snapshot })).setAcct 3
    (some { account with snapshot := some finalSnapshot })
  { s with
    slp := { s.slp with presented := [.held 7 1, .claim 8 1] }
    rq := { s.rq with alarms := [place .homeLost .lead, place .creditLow .fresh, place .homeDrift .fresh],
                      events := [.lineDetached 4000], reportNumber := 255, recordNumber := 255 } }

theorem witness_ReportsCarried_slots :
    unoffered.slp.noticeSlot = none ∧ unoffered.slp.reportSlot = none ∧ unoffered.slp.usageSlot = none ∧
    unoffered.slp.presented = [.held 7 1, .claim 8 1] ∧ unoffered.rq.alarms ≠ [] ∧ unoffered.earliest.length = 1 ∧
    { unoffered with rq := { unoffered.rq with alarms := unoffered.rq.alarms.tail } }.earliest.length = 2 ∧
    { unoffered with rq := { unoffered.rq with alarms := [] } }.rq.events = [.lineDetached 4000] ∧
    (unoffered.acct 3).bind Account.snapshot = some finalSnapshot ∧
    (∀ k ∈ handles, k < 3 → (unoffered.acct k).bind Account.snapshot = none) := by decide

/-- `Offered` is met by what every command ends with. -/
theorem witness_ReportsCarried_offered : Offered unoffered unoffered.settle := settle_offered unoffered

/-- R168, R175, R176, R183: the lowest handle, the oldest place and the notice presented longest are taken, the numbers wrap. -/
theorem test_slots :
    (unoffered.settle.slp.usageSlot.map fun f => (f.handle, f.number, f.part)) = some (3, 255, .first) ∧
    (unoffered.settle.slp.reportSlot.map ReportFrame.number) = some 255 ∧ unoffered.settle.rq.reportNumber = 0 ∧
    unoffered.settle.slp.noticeSlot = some { notice := .held 7 1, withdrawn := false } := by decide

theorem test_report_carried :
    (after (exec .reportCarried (reporting (.event (.lineDetached 4000) false)))).rq.events = [] := by decide

theorem test_first_part :
    (after (exec .usageFirstPartCarried (recording active .first snapshot snapshot))).slp.usageSlot =
      some (recordOf .second snapshot) := by decide

theorem test_record_carried :
    (after (exec .usageRecordCarried (recording { active with state := .closing } .second finalSnapshot finalSnapshot))).entry 9 =
      Entry.free ∧
    (after (exec .usageRecordCarried (recording active .second snapshot snapshot))).acct 9 = some account := by decide

def alarming : State :=
  { home with rq := { home.rq with repeats :=
      [{ source := { kind := .homeLost, handle := 9 }, remaining := 1, content := .homeLost (some 7) }] } }

theorem witness_AlarmRaised :
    base.img.alarmModes.get .homeLost = .level ∧ base.slp.alarmInSlot { kind := .homeLost, handle := 9 } = false ∧
    alarming.repeatOf { kind := .homeLost, handle := 9 } =
      some { source := { kind := .homeLost, handle := 9 }, remaining := 1, content := .homeLost (some 7) } ∧
    alarming.conditionHolds { kind := .homeLost, handle := 9 } = false ∧
    { lost with rq := alarming.rq }.conditionHolds { kind := .homeLost, handle := 9 } = true ∧
    { lost with rq := alarming.rq }.places = [] := by decide

/-- A place in the report slot. -/
def alarmPlace : AlarmPlace :=
  { source := { kind := .homeLost, handle := 9 }, content := .homeLost (some 7), repeated := false, count := 255, age := .fresh }

/-- A state whose own frame of a slot is in transmission, a detachment of 4,000 cycles not yet reported. -/
def detachedBefore (s : State) : State := { s with slp := { s.slp with detachSpan := some 4000 } }

theorem witness_AlarmRaised_places :
    { base with rq := { base.rq with alarms := [alarmPlace] } }.slp.alarmInSlot alarmPlace.source = false ∧
    (∃ p ∈ { base with rq := { base.rq with alarms := [alarmPlace] } }.rq.alarms, p.source = alarmPlace.source) ∧
    (reporting (.alarm alarmPlace none)).slp.reportSlot = some { number := 0, body := .alarm alarmPlace none } ∧
    lastingKind .homeLost = true ∧ lastingKind .duplicateSerial = false ∧
    { image with alarmModes := { image.alarmModes with homeLost := .off } }.alarmModes.get .homeLost = .off := by decide

theorem witness_AlarmRaised_detached :
    (detachedBefore (sending base (.held 7 1))).slp.noticeSlot = some { notice := .held 7 1, withdrawn := false } ∧
    (detachedBefore (answering home .move)).slp.transmitting = some .result ∧
    (detachedBefore (reporting (.alarm alarmPlace none))).slp.transmitting = some .report ∧
    (detachedBefore (recording active .first snapshot snapshot)).slp.usageSlot = some (recordOf .first snapshot) ∧
    (detachedBefore (recording active .first snapshot snapshot)).slp.transmitting = some .usage ∧
    (detachedBefore base).slp.detachSpan = some 4000 := by decide

/-- The roster full of homes other than 7, and the admission floor reached. -/
def full : State := { discovering with roster := Vector.replicate 64 { active with serial := some 8 } }
def overbooked : State := { discovering with ua := { discovering.ua with booked := 5669 } }

theorem witness_AlarmRaised_full :
    Observed full discoverWindow discoverW ∧ full.captures = true ∧ full.ee.captures = [none, none, none, none] ∧
    full.find 7 = none ∧ full.freeHandle = none ∧ discoverW.spans 24000 = true ∧ overbooked.freeHandle = some 1 ∧
    overbooked.ua.floor < overbooked.ua.booked + (max overbooked.img.defaultProfile.assured 4 + 16) ∧
    Observed overbooked discoverWindow discoverW ∧ (full.find 8).isSome = true := by unfold Observed; decide

/-- R178, R184: the first own carriage tells the detachment before its other event. -/
theorem test_line_detached :
    ((after (exec (.taken .own 7 1) (detachedBefore taking))).rq.events.map fun e => match e with
      | .lineDetached n => n
      | _ => 0) = [4000, 0] ∧
    (after (exec (.discoverObservation discoverWindow (.clean [reply 0])) full)).rq.events = [.rosterFull 7 .noEntry] := by
  decide

/-- R183: the count of merged reports stops at 255. -/
theorem test_merge :
    ((({ base with rq := { base.rq with alarms := [alarmPlace] } } : State).raiseAlarm alarmPlace.source
      (.homeLost none)).rq.alarms.map fun p => (p.content, p.count)) = [(.homeLost none, 255)] := by decide

/-- R183: a report recorded behind the alarm in the slot is no part of its frame. -/
theorem test_later_report :
    let s := reporting (.alarm alarmPlace none)
    (s.raiseAlarm alarmPlace.source (.homeLost none)).slp ≠ s.slp ∧
    ((s.raiseAlarm alarmPlace.source (.homeLost none)).lineOut.map LineFrame.data) =
      some (.alarm .homeLost (.homeLost (some 7)) false 255) ∧
    ((reporting (.event (.lineDetached 4000) true)).lineOut.map LineFrame.data) = some (.event (.lineDetached 4000) true) := by
  decide

theorem test_repeat :
    (after (exec (.repeatTimerExpiry { kind := .homeLost, handle := 9 }) { lost with rq := alarming.rq })).places =
      [({ kind := .homeLost, handle := 9 }, .homeLost (some 7), true, 1)] ∧
    (after (exec (.repeatTimerExpiry { kind := .homeLost, handle := 9 }) alarming)).rq.repeats = [] := by decide

theorem witness_EntryClosed :
    1 ≤ 9 ∧ 9 ≤ 64 ∧ home.acct 9 = some account ∧ base.acct 9 = none ∧ account.mode ≠ .unmetered ∧
    account.counters.charged ≤ Config.counterMax ∧ account.counters.overdraw ≤ Config.counterMax ∧
    { account with mode := .unmetered }.mode = .unmetered ∧ active.mailbox = none ∧
    { active with mailbox := some (adjusting 1) }.mailbox = some (adjusting 1) ∧
    (MsgKind.adjust 5).rank < (MsgKind.tune 2 14).rank ∧ (adjusting 0).carried = 0 ∧ (adjusting 1).carried ≠ 0 := by decide

/-- R43, R159, R163: the final charge of 65,535 bytes at 10 a block is 9, and the final record tells it. -/
theorem test_final_charge :
    let s := (holding active (some { account with residueUp := 65535 })).setBand 0 { priceUp := 10, priceDown := 0, fixed := false }
    (((s.enterClosing 9 (.released .removed) true).acct 9).bind fun a => a.snapshot.map fun x => (x.closing, x.counters.charged)) =
      some (4991, 9) := by decide

/-- R154, R155: the packet that completes a block of 65,536 bytes is debited at the price, and what the credit lacks is overdraw. -/
theorem test_rating :
    (({ account with residueUp := 65535, credit := 7 }.rateUp 1 10).credit,
     ({ account with residueUp := 65535, credit := 7 }.rateUp 1 10).counters.overdraw,
     ({ account with residueUp := 65535, credit := 7 }.rateUp 1 10).residueUp) = (0, 3, 0) := by decide

/-! ### Requests -/

/-- The answer in the only place of the result queue. -/
def answer (s : State) : Option (ResultCode × ResultData) := s.rq.results.head?.map fun r => (r.code, r.data)

def faulted : State := { base with il := { base.il with startup := .configFault } }

theorem witness_RequestsTurnedAway :
    base.resetHeld = false ∧ home.addressed header = true ∧ home.addressed { header with dest := 6 } = false ∧
    faulted.il.startup = .configFault ∧ faulted.addressed header = true ∧ faulted.rq.results.length < 4 := by decide

theorem witness_takes :
    home.resetHeld = false ∧ home.addressed header = true ∧ header.voidedByOther = false ∧ home.rq.results.length < 4 ∧
    home.il.startup = .operating ∧ home.find 7 = some 9 ∧ (home.entry 9).state = .active ∧ home.acct 9 = some account := by
  decide

theorem test_turned_away :
    answer (after (exec (.remove header (writeSerial 7)) faulted)) = some (.faulted, .nothing) ∧
    answer (after (exec (.remove header [1]) home)) = some (.range, .nothing) := by decide

theorem witness_ProfileSet :
    2000 ≤ 65535 ∧ home.ua.booked + ((max 2000 4 + 16) - (max 100 4 + 16)) ≤ home.ua.floor ∧
    { home with ua := { home.ua with floor := 2015 } }.ua.floor <
      home.ua.booked + ((max 2000 4 + 16) - (max 100 4 + 16)) := by decide

/-- Section 4.6: A 2,500, P 9,000 and w 0 clamp to 2,000, 8,000 and 1, and A 500 above P 400 is INCONSISTENT. -/
theorem test_set_profile :
    answer (after (exec (.setProfile header (writeProfile 7 2500 9000 0)) home)) =
      some (.ok, .profile { assured := 2000, peak := 8000, weight := 1 }) ∧
    answer (after (exec (.setProfile header (writeProfile 7 500 400 2)) home)) = some (.inconsistent, .nothing) := by decide +kernel

theorem witness_AccountSet :
    home.find 7 = some 9 ∧ home.acct 9 = some account ∧ (home.entry 9).state = .active ∧ base.find 7 = none ∧
    (leaving.entry 9).state ≠ .active ∧ (leaving.entry 9).state ≠ .lost ∧ quotaOf .oneShot 50 50 = .low ∧
    quotaOf .oneShot 0 50 = .exhausted ∧ account.quota = .opened ∧ home.img.alarmModes.creditLow = .level := by decide

/-- R146, R147: the change to LOW raises CREDIT_LOW and a later REFILL ends its condition. -/
theorem test_credit_low :
    let t := after (exec (.setAccount header (writeAccount 7 1 0 50 50)) home)
    t.rq.repeats.map RepeatTimer.source = [{ kind := .creditLow, handle := 9 }] ∧
    (after (exec (.refill header (writeRefill 7 1)) t)).rq.repeats = [] := by decide

theorem test_set_account :
    ((after (exec (.setAccount header (writeAccount 7 2 100 50 60)) home)).acct 9).map (fun a => (a.mode, a.credit, a.adjusted)) =
      some (.refill, 60, 60) ∧
    answer (after (exec (.setAccount header (writeAccount 7 3 100 50 60)) home)) = some (.range, .nothing) := by decide

theorem test_refill :
    answer (after (exec (.refill header (writeRefill 7 4294967295)) home)) =
      some (.ok, .refill 4294962295 4294967295 true) := by decide +kernel

theorem test_move :
    (after (exec (.move header (writeSerialByte 7 2)) home)).outgoing .transfer = [.offer 7 1 2 100 1000 4 49463] ∧
    answer (after (exec (.move header (writeSerialByte 7 1)) home)) = some (.notHere, .nothing) := by decide

theorem test_remove :
    ((after (exec (.remove header (writeSerial 7)) home)).entry 9).state = .closing ∧
    answer (after (exec (.remove header (writeSerial 7)) leaving)) = some (.busy, .nothing) := by decide

theorem test_hold :
    ((after (exec (.hold header (writeHold 7 3 true)) home)).entry 9).holds = { Holds.clear with manager := true } := by decide

theorem test_clear_hold :
    ((after (exec (.clearHold header (writeHold 7 1 false)) (holding { active with holds := { Holds.clear with rogue := true } }
      none))).entry 9).holds = Holds.clear := by decide

theorem test_query :
    answer (after (exec (.queryHome header (writeSerialByte 7 2)) home)) = some (.ok, .queryBytes (some (0, 0, 0, 0))) := by
  decide

/-- Home 7 with its TUNE in the mailbox and its RECLAIM queued for the timer, over a RELEASED snapshot (R30, R124, R167). -/
def askedOf : State :=
  holding { moving .tuning .outbound with
    mailbox := some { kind := .tune 2 14, seqBit := true, carried := 3, firstMap := some 8 }
    handover := some { context .outbound with reclaim := some .timeout, timer := none } }
    (some { account with snapshot := some { account.formSnapshot (.released .removed) 41 with lastPeriod := 42 } })

theorem witness_QueriesAnswered :
    home.takes header ∧ askedOf.takes header ∧ home.find 7 = some 9 ∧ askedOf.find 7 = some 9 ∧ base.find 7 = none ∧
    (confirming.find 7 = some 9 ∧ confirming.acct 9 = none ∧ confirming.takes header) := by unfold State.takes; decide

theorem witness_MoveTaken :
    home.takes header ∧ home.draining = false ∧ (draining home).takes header ∧ (draining home).draining = true ∧
    home.find 7 = some 9 ∧ (home.entry 9).state = .active ∧ (home.entry 9).holds = Holds.clear ∧
    home.slp.lineState = .attached ∧ home.hu.role = .noRole ∧ home.channel ≠ 2 ∧ base.takes header ∧ base.find 7 = none ∧
    (hunting waiting).hu.role ≠ .noRole := by unfold State.takes; decide

theorem witness_RemoveCloses :
    home.takes header ∧ home.find 7 = some 9 ∧ (home.entry 9).state = .active ∧ lost.takes header ∧ lost.find 7 = some 9 ∧
    (lost.entry 9).state = .lost ∧ leaving.takes header ∧ leaving.find 7 = some 9 ∧ (leaving.entry 9).state = .leaving ∧
    base.takes header ∧ base.find 7 = none := by unfold State.takes; decide

theorem witness_HoldsChanged :
    home.takes header ∧ home.find 7 = some 9 ∧ base.takes header ∧ base.find 7 = none := by unfold State.takes; decide

theorem test_query_bare :
    (askedOf.queryEntry 9).mailbox = some (.tune, 3) ∧
    (askedOf.entry 9).handover.map Handover.told =
      some { direction := .outbound, peer := 2, newHandle := some 14, remaining := none, reclaimQueued := true,
             burstInHand := false, accountInHand := false } ∧
    ((askedOf.acct 9).bind fun a => (askedOf.queryAccount 9 a).snapshotSpan) = some (.released, 41, 42) := by decide

theorem test_list :
    answer (after (exec (.listHomes header (writeByte 0)) home)) = some (.ok, .homes [(some 7, .active)] 0) ∧
    answer (after (exec (.listHomes header (writeByte 65)) home)) = some (.range, .nothing) := by decide

theorem witness_TariffSet :
    home.img.tariffGuard = true ∧ (home.bandAt 7).fixed = false ∧
    ({ home with um := { home.um with tariff := home.um.tariff.setIfInBounds 7 { priceUp := 0, priceDown := 0, fixed := true } } }.bandAt
      7).fixed = true := by decide

theorem test_tariff :
    (after (exec (.setTariff header (writeTariff 7 3 4) true) home)).bandAt 7 = { priceUp := 3, priceDown := 4, fixed := false } ∧
    answer (after (exec (.setTariff header (writeTariff 7 3 4) false) home)) = some (.locked, .nothing) := by decide

theorem test_fix_tariff :
    (after (exec (.fixTariff header (writeByte 7) true) home)).bandAt 7 = { priceUp := 0, priceDown := 0, fixed := true } ∧
    answer (after (exec (.fixTariff header (writeByte 8) true) home)) = some (.range, .nothing) := by decide

theorem test_band :
    (after (exec (.band header (writeByte 7)) home)).um.band = 7 ∧ (after (exec (.band header (writeByte 8)) home)).um.band = 0 := by
  decide

theorem witness_PeriodCloses :
    home.addressed header = true ∧ header.voidedByOther = false ∧ home.il.startup = .operating ∧ home.um.period ≤ 41 := by decide

theorem test_close_period :
    ((after (exec (.closePeriod header (writePeriod 41)) home)).acct 9).map Account.periodFirst = some 42 ∧
    (after (exec (.closePeriod header (writePeriod 4294967295)) home)).um.period = 0 := by decide +kernel

theorem test_free_labels :
    freeUp (after (exec (.setFreeLabels header (writeFreeLabel { lo := 10, hi := 20, up := true, down := false, active := true }))
      home)).um.freeLabels 20 = true := by decide

theorem witness_SwitchesAnswered :
    home.img.pDisc ≠ 0 ∧ home.il.startup = .operating ∧ home.hu.flag = none ∧ home.hu.opening = false ∧ home.hu.role = .noRole ∧
    hunted.hu.flag.isSome = true ∧ opening.hu.opening = true ∧ (answering home .restart).rq.results.length = 1 := by decide

theorem test_set_discovery : (after (exec (.setDiscovery header (writeByte 1)) home)).ee.discoveryEnable = true := by decide

theorem test_start_hunt :
    (after (exec (.startHunt header []) home)).outgoing .hunt = [.huntOpen ⟨5, 0⟩] ∧
    answer (after (exec (.startHunt header []) hunted)) = some (.huntActive, .nothing) := by decide

theorem test_restart :
    answer (after (exec (.restart header []) home)) = some (.ok, .nothing) ∧
    ((after (exec (.restart header []) (answering home .restart))).rq.results.map Result.code) = [.ok, .busy] := by decide

/-! ### The invariants hold of a state with a home, and its next step is a next state -/

/-- `home` with a snapshot that waits, its record in transmission and the carriage of the record's first part in the queue. -/
def queued : State := { recording active .first snapshot snapshot with pending := [.usageFirstPartCarried] }

/-- The account of `queued`. -/
def kept : Account := { account with snapshot := some snapshot }

theorem queued_entry (h : Nat) : queued.entry h = if h = 9 then active else Entry.free := by
  have e : queued.entry h = (base.setEntry 9 active).entry h := rfl
  rw [e, entry_setEntry]
  by_cases hh : h = 9
  · subst hh; rfl
  · rw [if_neg (fun x => hh x.1), if_neg hh]
    by_cases ho : 1 ≤ h ∧ h ≤ 64
    · rw [State.entry, tableGet_inside _ _ _ ho]
      exact Vector.getElem_replicate _
    · exact entry_outside _ _ ho

theorem queued_acct (h : Nat) : queued.acct h = if h = 9 then some kept else none := by
  have e : queued.acct h = ((base.setEntry 9 active).setAcct 9 (some kept)).acct h := rfl
  rw [e, acct_setAcct]
  by_cases hh : h = 9
  · subst hh; rfl
  · rw [if_neg (fun x => hh x.1), if_neg hh]
    by_cases ho : 1 ≤ h ∧ h ≤ 64
    · rw [State.acct, tableGet_inside _ _ _ ho]
      exact Vector.getElem_replicate _
    · exact acct_outside _ _ ho

theorem queued_drift (h : Nat) : queued.drift h = Drift.clear := by
  by_cases ho : 1 ≤ h ∧ h ≤ 64
  · rw [State.drift, tableGet_inside _ _ _ ho]
    exact Vector.getElem_replicate _
  · exact drift_outside _ _ ho

theorem witness_StepRunsFront : queued.pending = [.usageFirstPartCarried] ∧ home.pending = [] := by decide

theorem witness_ResetPin : { home with resetHeld := true }.resetHeld = true ∧ Instr.cycleStart ≠ .resetAsserted := by decide

theorem witness_steps : ∃ t, step queued = .next t := exec_continues .usageFirstPartCarried queued.dequeue

theorem witness_CountsKept : CountsInv queued := by
  refine ⟨by decide, by decide, by decide, by decide, by decide, by decide, fun h => ?_⟩
  rw [queued_entry]
  split <;> decide

theorem witness_RosterKept : RosterInv queued := by
  refine ⟨fun h => ?_, fun h => ?_, fun h k => ?_, ⟨by decide, by decide, fun h e => ?_⟩, fun c hc k p x => ?_, ?_, ?_⟩
  · rw [queued_entry, queued_acct]; split
    · intro x; exact absurd x (by decide)
    · intro _; exact ⟨rfl, rfl⟩
  · rw [queued_entry]; split
    · intro _; rfl
    · intro x; exact absurd rfl x
  · rw [queued_entry, queued_entry]
    split
    · split
      · intro _ _ _; omega
      · intro _ x; exact absurd rfl x
    · intro x; exact absurd rfl x
  · rw [queued_entry]; split
    · intro x; cases x; decide
    · intro x; cases x
  · have empty : ∀ c ∈ queued.ee.captures, c = none := by decide
    rw [empty c hc] at x; cases x
  · intro p hp; exact absurd hp (List.not_mem_nil)
  · intro x; exact absurd x (by decide)

theorem witness_BookedKept : BookedInv queued := by unfold BookedInv; decide

theorem witness_BookedKept_image : ImageInv queued := by
  intro img h
  cases h
  unfold Image.Good
  decide

theorem witness_HuntKept : HuntInv queued := by
  refine ⟨fun _ => ⟨fun h => ?_, rfl, rfl, rfl⟩, fun x => absurd rfl x, rfl, by decide, by decide, by decide⟩
  rw [queued_entry]; split <;> rfl

/-- The role stays taken through the step. -/
theorem witness_HuntKept_role :
    let s := { participating with pending := [.cycleStart] }
    s.hu.role ≠ .noRole ∧ (after (step s)).hu.role = .participant := by decide

theorem witness_AccountsKept : QueueWf queued ∧ AccountsInv queued := by
  refine ⟨by unfold QueueWf; decide, fun h a ha => ?_⟩
  rw [queued_acct] at ha
  split at ha
  · cases ha; unfold Account.Good Account.Balanced; exact ⟨by decide, fun _ => by decide⟩
  · cases ha

theorem witness_AccountPeriodClosed :
    account.snapshot = none ∧ home.delivering 9 = false ∧ home.acct 9 = some account ∧ queued.acct 9 = some kept ∧
    kept.snapshot ≠ none ∧ queued.snapshotCondition 9 = .inDelivery := by decide

theorem witness_PartsKept : PartsInv queued := by
  intro h
  rw [queued_entry, queued_drift]
  split <;> decide

theorem witness_SnapshotLawKept : SnapshotsInv queued := by
  have good : snapshot.Balanced := by unfold Snapshot.Balanced; decide
  refine ⟨fun h a sn ha hs => ?_, fun f hf => ?_⟩
  · rw [queued_acct] at ha
    split at ha
    · cases ha; cases hs
      exact ⟨good, Or.inl (by rw [queued_entry, if_pos ‹_›]; rfl)⟩
    · cases ha
  · cases hf
    exact ⟨good, kept, snapshot, by rw [queued_acct]; rfl, rfl, by unfold Snapshot.Holds; decide⟩

end Sys2Proof.Tests
end

section
/-! PROOFS. What the shared operations keep, said once: reading a home after a write, the alarm table's own fields, the frame of a change to one home, and what offering keeps. -/

namespace Sys2Proof.Machine

/-! ### Reading and writing one home -/

theorem tableSet_tableSet {α : Type} (v : Vector α 64) (h : Nat) (x y : α) :
    tableSet (tableSet v h x) h y = tableSet v h y := by
  unfold tableSet
  split
  · rfl
  · rw [Vector.setIfInBounds_setIfInBounds]

@[simp] theorem setEntry_setEntry (s : State) (h : Nat) (a b : Entry) :
    (s.setEntry h a).setEntry h b = s.setEntry h b := by
  unfold State.setEntry
  simp only [tableSet_tableSet]

@[simp] theorem setDrift_setDrift (s : State) (h : Nat) (a b : Drift) :
    (s.setDrift h a).setDrift h b = s.setDrift h b := by
  unfold State.setDrift
  simp only [tableSet_tableSet]

theorem entry_setEntry_self (s : State) (h : Nat) (e : Entry) (hh : 1 ≤ h ∧ h ≤ 64) : (s.setEntry h e).entry h = e := by
  rw [entry_setEntry, if_pos ⟨rfl, hh⟩]

theorem entry_setEntry_other (s : State) (h k : Nat) (e : Entry) (hk : k ≠ h) : (s.setEntry h e).entry k = s.entry k := by
  rw [entry_setEntry, if_neg fun x => hk x.1]

theorem drift_setDrift_self (s : State) (h : Nat) (d : Drift) (hh : 1 ≤ h ∧ h ≤ 64) : (s.setDrift h d).drift h = d := by
  rw [drift_setDrift, if_pos ⟨rfl, hh⟩]

theorem drift_setDrift_other (s : State) (h k : Nat) (d : Drift) (hk : k ≠ h) : (s.setDrift h d).drift k = s.drift k := by
  rw [drift_setDrift, if_neg fun x => hk x.1]

@[simp] theorem setEntry_acct (s : State) (h k : Nat) (e : Entry) : (s.setEntry h e).acct k = s.acct k := rfl
@[simp] theorem setEntry_drift (s : State) (h k : Nat) (e : Entry) : (s.setEntry h e).drift k = s.drift k := rfl
@[simp] theorem setEntry_img (s : State) (h : Nat) (e : Entry) : (s.setEntry h e).img = s.img := rfl
@[simp] theorem setDrift_entry (s : State) (h k : Nat) (d : Drift) : (s.setDrift h d).entry k = s.entry k := rfl
@[simp] theorem setDrift_acct (s : State) (h k : Nat) (d : Drift) : (s.setDrift h d).acct k = s.acct k := rfl
@[simp] theorem setDrift_img (s : State) (h : Nat) (d : Drift) : (s.setDrift h d).img = s.img := rfl

/-! ### What the alarm operations may change (R182, R183) -/

/-- `t` is `s` but for the report slot's frame, the pending places and the repeat timers. -/
def ReportsOnly (s t : State) : Prop :=
  ∃ slot places repeats,
    t = { s with slp := { s.slp with reportSlot := slot }, rq := { s.rq with alarms := places, repeats := repeats } }

theorem ReportsOnly.refl (s : State) : ReportsOnly s s := ⟨_, _, _, rfl⟩

theorem ReportsOnly.trans {s t u : State} (h : ReportsOnly s t) (k : ReportsOnly t u) : ReportsOnly s u := by
  obtain ⟨a, b, c, rfl⟩ := h
  obtain ⟨a', b', c', rfl⟩ := k
  exact ⟨a', b', c', rfl⟩

theorem placeReport_reportsOnly (s : State) (a : AlarmSource) (c : AlarmContent) (r : Bool) :
    ReportsOnly s (s.placeReport a c r) := by
  unfold State.placeReport
  split
  · unfold LinePort.recordLater
    split
    · exact ReportsOnly.refl s
    · split <;> exact ⟨_, _, _, rfl⟩
  · split <;> exact ⟨_, _, _, rfl⟩

theorem startRepeat_reportsOnly (s : State) (a : AlarmSource) (c : AlarmContent) : ReportsOnly s (s.startRepeat a c) :=
  ⟨_, _, _, rfl⟩

theorem endCondition_reportsOnly (s : State) (a : AlarmSource) : ReportsOnly s (s.endCondition a) := ⟨_, _, _, rfl⟩

theorem endCredit_reportsOnly (s : State) (h : Nat) : ReportsOnly s (s.endCredit h) := ⟨_, _, _, rfl⟩

theorem endConditions_reportsOnly (s : State) (h : Nat) : ReportsOnly s (s.endConditions h) := ⟨_, _, _, rfl⟩

theorem raiseAlarm_reportsOnly (s : State) (a : AlarmSource) (c : AlarmContent) : ReportsOnly s (s.raiseAlarm a c) := by
  unfold State.raiseAlarm
  split
  · exact ReportsOnly.refl s
  · exact placeReport_reportsOnly ..
  · dsimp only
    split
    · exact (placeReport_reportsOnly ..).trans (startRepeat_reportsOnly ..)
    · exact placeReport_reportsOnly ..

theorem startCredit_reportsOnly (s : State) (h : Nat) : ReportsOnly s (s.startCredit h) := by
  unfold State.startCredit
  split
  · exact ReportsOnly.refl s
  · split
    · exact ReportsOnly.refl s
    · exact raiseAlarm_reportsOnly ..
    · exact raiseAlarm_reportsOnly ..

/-- A changed account: the account is written, and no more than reports follow (R147). -/
theorem changeAcct_reportsOnly (s : State) (h : Nat) (a : Account) :
    ReportsOnly (s.setAcct h (some a)) (s.changeAcct h a) := by
  unfold State.changeAcct
  dsimp only
  split
  · exact ReportsOnly.refl _
  · exact (endCredit_reportsOnly ..).trans (startCredit_reportsOnly ..)

theorem ReportsOnly.roster {s t : State} (h : ReportsOnly s t) : t.roster = s.roster := by obtain ⟨_, _, _, rfl⟩ := h; rfl
theorem ReportsOnly.um {s t : State} (h : ReportsOnly s t) : t.um = s.um := by obtain ⟨_, _, _, rfl⟩ := h; rfl
theorem ReportsOnly.lw {s t : State} (h : ReportsOnly s t) : t.lw = s.lw := by obtain ⟨_, _, _, rfl⟩ := h; rfl
theorem ReportsOnly.ua {s t : State} (h : ReportsOnly s t) : t.ua = s.ua := by obtain ⟨_, _, _, rfl⟩ := h; rfl
theorem ReportsOnly.hu {s t : State} (h : ReportsOnly s t) : t.hu = s.hu := by obtain ⟨_, _, _, rfl⟩ := h; rfl
theorem ReportsOnly.il {s t : State} (h : ReportsOnly s t) : t.il = s.il := by obtain ⟨_, _, _, rfl⟩ := h; rfl
theorem ReportsOnly.ports {s t : State} (h : ReportsOnly s t) : t.ports = s.ports := by obtain ⟨_, _, _, rfl⟩ := h; rfl

theorem ReportsOnly.entry {s t : State} (h : ReportsOnly s t) (k : Nat) : t.entry k = s.entry k :=
  entry_of_roster s t h.roster k

theorem ReportsOnly.acct {s t : State} (h : ReportsOnly s t) (k : Nat) : t.acct k = s.acct k := acct_of_um s t h.um k

theorem ReportsOnly.drift {s t : State} (h : ReportsOnly s t) (k : Nat) : t.drift k = s.drift k := drift_of_lw s t h.lw k

/-- The reports are no notices. -/
theorem ReportsOnly.outgoing {s t : State} (h : ReportsOnly s t) (who : Producer) : t.outgoing who = s.outgoing who := by
  obtain ⟨_, _, _, rfl⟩ := h; rfl

/-! ### What offering keeps (R168, R176, R183) -/

section Offered
variable {u t : State}

/-- Whatever reads none of the fields that offering may change reads the same after it. -/
theorem Offered.read {α : Type} (o : Offered u t) (f : State → α) (hf : ∀ s : State, f s.bare = f s) : f t = f u := by
  rw [← hf t, o.rest, hf u]

theorem Offered.entry (o : Offered u t) (k : Nat) : t.entry k = u.entry k := o.read (fun x => x.entry k) fun _ => rfl
theorem Offered.acct (o : Offered u t) (k : Nat) : t.acct k = u.acct k := o.read (fun x => x.acct k) fun _ => rfl
theorem Offered.drift (o : Offered u t) (k : Nat) : t.drift k = u.drift k := o.read (fun x => x.drift k) fun _ => rfl
theorem Offered.cb (o : Offered u t) : t.cb = u.cb := o.read (fun x => x.cb) fun _ => rfl
theorem Offered.roster (o : Offered u t) : t.roster = u.roster := o.read (fun x => x.roster) fun _ => rfl
theorem Offered.ee (o : Offered u t) : t.ee = u.ee := o.read (fun x => x.ee) fun _ => rfl
theorem Offered.ua (o : Offered u t) : t.ua = u.ua := o.read (fun x => x.ua) fun _ => rfl
theorem Offered.lw (o : Offered u t) : t.lw = u.lw := o.read (fun x => x.lw) fun _ => rfl
theorem Offered.hu (o : Offered u t) : t.hu = u.hu := o.read (fun x => x.hu) fun _ => rfl
theorem Offered.um (o : Offered u t) : t.um = u.um := o.read (fun x => x.um) fun _ => rfl
theorem Offered.il (o : Offered u t) : t.il = u.il := o.read (fun x => x.il) fun _ => rfl
theorem Offered.ports (o : Offered u t) : t.ports = u.ports := o.read (fun x => x.ports) fun _ => rfl
theorem Offered.resetHeld (o : Offered u t) : t.resetHeld = u.resetHeld := o.read (fun x => x.resetHeld) fun _ => rfl
theorem Offered.pending (o : Offered u t) : t.pending = u.pending := o.read (fun x => x.pending) fun _ => rfl
theorem Offered.results (o : Offered u t) : t.rq.results = u.rq.results := o.read (fun x => x.rq.results) fun _ => rfl
theorem Offered.events (o : Offered u t) : t.rq.events = u.rq.events := o.read (fun x => x.rq.events) fun _ => rfl
theorem Offered.dropped (o : Offered u t) : t.rq.dropped = u.rq.dropped := o.read (fun x => x.rq.dropped) fun _ => rfl
theorem Offered.repeats (o : Offered u t) : t.rq.repeats = u.rq.repeats := o.read (fun x => x.rq.repeats) fun _ => rfl
theorem Offered.detachTimer (o : Offered u t) : t.slp.detachTimer = u.slp.detachTimer :=
  o.read (fun x => x.slp.detachTimer) fun _ => rfl
theorem Offered.detachSpan (o : Offered u t) : t.slp.detachSpan = u.slp.detachSpan :=
  o.read (fun x => x.slp.detachSpan) fun _ => rfl
theorem Offered.voidCount (o : Offered u t) : t.slp.voidCount = u.slp.voidCount :=
  o.read (fun x => x.slp.voidCount) fun _ => rfl

theorem Offered.lineSame (o : Offered u t) : LineSame u t :=
  ⟨o.read (fun x => x.slp.station) fun _ => rfl, o.read (fun x => x.slp.lineState) fun _ => rfl, o.voidCount,
    o.detachTimer, o.detachSpan, o.read (fun x => x.slp.transmitting) fun _ => rfl⟩

theorem Offered.noEvent (o : Offered u t) : NoEvent u t := ⟨o.events, o.dropped⟩

end Offered

/-! ### A change to one home, and no event -/

/-- Nothing but the home at the handle changes, as far as `HomeFrame` reads, and no event is raised. -/
def HomeStep (s t : State) (h : Nat) : Prop := HomeFrame s t h ∧ NoEvent s t

theorem HomeStep.refl (s : State) (h : Nat) : HomeStep s s h :=
  ⟨⟨fun _ _ => ⟨rfl, rfl, rfl⟩, ⟨rfl, rfl, rfl, rfl⟩, ⟨rfl, rfl, rfl, rfl, rfl, rfl⟩, rfl, rfl, rfl, rfl, rfl, rfl, rfl, rfl,
    rfl, rfl⟩, ⟨rfl, rfl⟩⟩

theorem HomeStep.trans {s t u : State} {h : Nat} (a : HomeStep s t h) (b : HomeStep t u h) : HomeStep s u h := by
  obtain ⟨⟨o, ⟨t1, t2, t3, t4⟩, ⟨l1, l2, l3, l4, l5, l6⟩, f1, f2, f3, f4, f5, f6, f7, f8, f9, f10⟩, n1, n2⟩ := a
  obtain ⟨⟨o', ⟨t1', t2', t3', t4'⟩, ⟨l1', l2', l3', l4', l5', l6'⟩, f1', f2', f3', f4', f5', f6', f7', f8', f9', f10'⟩,
    n1', n2'⟩ := b
  refine ⟨⟨fun k hk => ?_, ⟨t1'.trans t1, t2'.trans t2, t3'.trans t3, t4'.trans t4⟩,
    ⟨l1'.trans l1, l2'.trans l2, l3'.trans l3, l4'.trans l4, l5'.trans l5, l6'.trans l6⟩, f1'.trans f1, f2'.trans f2,
    f3'.trans f3, f4'.trans f4, f5'.trans f5, f6'.trans f6, f7'.trans f7, f8'.trans f8, f9'.trans f9, f10'.trans f10⟩,
    n1'.trans n1, n2'.trans n2⟩
  obtain ⟨e, ac, dr⟩ := o k hk
  obtain ⟨e', ac', dr'⟩ := o' k hk
  exact ⟨e'.trans e, ac'.trans ac, dr'.trans dr⟩

theorem ReportsOnly.homeStep {s t : State} (r : ReportsOnly s t) (h : Nat) : HomeStep s t h := by
  obtain ⟨_, _, _, rfl⟩ := r
  exact HomeStep.refl s h

theorem setEntry_homeStep (s : State) (h : Nat) (e : Entry) : HomeStep s (s.setEntry h e) h :=
  ⟨⟨fun k hk => ⟨entry_setEntry_other s h k e hk, rfl, rfl⟩, ⟨rfl, rfl, rfl, rfl⟩, ⟨rfl, rfl, rfl, rfl, rfl, rfl⟩, rfl, rfl,
    rfl, rfl, rfl, rfl, rfl, rfl, rfl, rfl⟩, ⟨rfl, rfl⟩⟩

theorem setAcct_homeStep (s : State) (h : Nat) (a : Option Account) : HomeStep s (s.setAcct h a) h :=
  ⟨⟨fun k hk => ⟨rfl, by rw [acct_setAcct, if_neg fun x => hk x.1], rfl⟩, ⟨rfl, rfl, rfl, rfl⟩,
    ⟨rfl, rfl, rfl, rfl, rfl, rfl⟩, rfl, rfl, rfl, rfl, rfl, rfl, rfl, rfl, rfl, rfl⟩, ⟨rfl, rfl⟩⟩

theorem setDrift_homeStep (s : State) (h : Nat) (d : Drift) : HomeStep s (s.setDrift h d) h :=
  ⟨⟨fun k hk => ⟨rfl, rfl, drift_setDrift_other s h k d hk⟩, ⟨rfl, rfl, rfl, rfl⟩, ⟨rfl, rfl, rfl, rfl, rfl, rfl⟩, rfl, rfl,
    rfl, rfl, rfl, rfl, rfl, rfl, rfl, rfl⟩, ⟨rfl, rfl⟩⟩

theorem setPhase_homeStep (s : State) (h : Nat) (p : Phase) : HomeStep s (s.setPhase h p) h := setDrift_homeStep ..

theorem unbook_homeStep (s : State) (h : Nat) : HomeStep s (s.unbook h) h := HomeStep.refl s h

theorem changeAcct_homeStep (s : State) (h : Nat) (a : Account) : HomeStep s (s.changeAcct h a) h :=
  (setAcct_homeStep ..).trans ((changeAcct_reportsOnly s h a).homeStep h)

theorem enterLost_homeStep (s : State) (h : Nat) : HomeStep s (s.enterLost h) h :=
  (((setEntry_homeStep ..).trans (setPhase_homeStep ..)).trans ((endCondition_reportsOnly ..).homeStep h)).trans
    ((raiseAlarm_reportsOnly ..).homeStep h)

theorem enterClosing_homeStep (s : State) (h : Nat) (kind : RecordKind) (release : Bool) :
    HomeStep s (s.enterClosing h kind release) h :=
  ((((unbook_homeStep ..).trans (setAcct_homeStep ..)).trans (setEntry_homeStep ..)).trans (setPhase_homeStep ..)).trans
    ((endConditions_reportsOnly ..).homeStep h)

theorem drainClose_homeStep (s : State) (h : Nat) : HomeStep s (s.drainClose h) h := by
  unfold State.drainClose
  split
  · exact enterClosing_homeStep ..
  · exact HomeStep.refl s h

theorem loseHome_homeStep (s : State) (h : Nat) : HomeStep s (s.loseHome h) h :=
  (enterLost_homeStep ..).trans (drainClose_homeStep ..)

theorem setDriftHold_homeStep (s : State) (h : Nat) : HomeStep s (s.setDriftHold h) h :=
  ((setEntry_homeStep ..).trans (setPhase_homeStep ..)).trans ((raiseAlarm_reportsOnly ..).homeStep h)

theorem clearDriftHold_homeStep (s : State) (h : Nat) : HomeStep s (s.clearDriftHold h) h :=
  ((setEntry_homeStep ..).trans (setPhase_homeStep ..)).trans ((endCondition_reportsOnly ..).homeStep h)

/-- Offering the frames is no change to a home. -/
theorem Offered.homeStep {u t : State} (o : Offered u t) (h : Nat) : HomeStep u t h :=
  ⟨⟨fun k _ => ⟨o.entry k, o.acct k, o.drift k⟩, by rw [TablesSame, o.um]; exact ⟨rfl, rfl, rfl, rfl⟩, o.lineSame, o.cb, o.ee,
    by rw [o.ua], by rw [o.ua], by rw [o.lw], by rw [o.lw], o.il, o.results, o.resetHeld, o.pending⟩, o.noEvent⟩

/-! ### A raised alarm stands (R182, R183) -/

/-- What the raising of an alarm reads and leaves behind: the places and the slot's frame. -/
theorem Alarmed.mono {s t u : State} {a : AlarmSource} {c : AlarmContent} (h : Alarmed s t a c)
    (hp : ∀ x, x ∈ t.places → x ∈ u.places) (hs : ∀ f, t.slp.reportSlot = some f → u.slp.reportSlot = some f) :
    Alarmed s u a c := by
  intro hm
  obtain ⟨h1, h2⟩ := h hm
  refine ⟨fun hi => ?_, fun hi => ?_⟩
  · obtain ⟨n, hn, hone⟩ := h1 hi
    exact ⟨n, hp _ hn, hone⟩
  · obtain ⟨f, p, l, hf, hrest⟩ := h2 hi
    exact ⟨f, p, l, hs f hf, hrest⟩

/-- An alarm stands through the offering of the frames. -/
theorem Alarmed.offered {s t u : State} {a : AlarmSource} {c : AlarmContent} (h : Alarmed s t a c) (o : Offered t u) :
    Alarmed s u a c :=
  h.mono (fun _ hx => o.places.mem_iff.2 hx) fun f hf => o.reportKept f hf

/-- A raising reads the image, the report slot and the pending places alone. -/
theorem Alarmed.of_same {s s' t : State} {a : AlarmSource} {c : AlarmContent} (h : Alarmed s t a c) (hi : s'.il = s.il)
    (hs : s'.slp.reportSlot = s.slp.reportSlot) (ha : s'.rq.alarms = s.rq.alarms) : Alarmed s' t a c := by
  have hslot : s'.slp.alarmInSlot a = s.slp.alarmInSlot a := by unfold LinePort.alarmInSlot; rw [hs]
  have hplaces : s'.places = s.places := by unfold State.places; rw [hs, ha]
  unfold Alarmed State.img at h ⊢
  rw [hi, hslot, hplaces]
  exact h

/-- A raising's report is placed as R183 says. -/
theorem placeReport_alarmed (s : State) (a : AlarmSource) (c : AlarmContent) : Alarmed s (s.placeReport a c false) a c := by
  intro _
  refine ⟨fun hi => ?_, fun hi => ?_⟩
  · unfold State.placeReport
    rw [if_neg (by rw [hi]; decide)]
    split
    next hp =>
      simp only [List.any_eq_true, decide_eq_true_eq] at hp
      obtain ⟨p, hp, he⟩ := hp
      refine ⟨satAdd 255 p.count 1, ?_, fun hnone => absurd he (hnone p.content4 ?_)⟩
      · refine List.mem_map.2 ⟨p.merge c false, List.mem_append_right _ (List.mem_map.2 ⟨p, hp, if_pos he⟩), ?_⟩
        simp only [AlarmPlace.content4, AlarmPlace.merge, he]
      · exact List.mem_map.2 ⟨p, List.mem_append_right _ hp, rfl⟩
    next =>
      exact ⟨1, List.mem_map.2 ⟨AlarmPlace.new a c false,
        List.mem_append_right _ (List.mem_append_right _ (List.mem_singleton.2 rfl)), rfl⟩, fun _ => rfl⟩
  · unfold State.placeReport
    rw [if_pos hi]
    cases hs : s.slp.reportSlot with
    | none => simp [LinePort.alarmInSlot, hs] at hi
    | some f =>
      rcases hb : f.body with ⟨p, l⟩ | ⟨e, m⟩
      · simp only [LinePort.alarmInSlot, hs, hb, decide_eq_true_eq] at hi
        cases l with
        | none => exact ⟨{ f with body := .alarm p (some (AlarmPlace.new a c false)) }, p, _, by simp only [LinePort.recordLater, hs, hb], rfl, hi, rfl, rfl⟩
        | some l => exact ⟨{ f with body := .alarm p (some (l.merge c false)) }, p, _, by simp only [LinePort.recordLater, hs, hb], rfl, hi, rfl, rfl⟩
      · simp [LinePort.alarmInSlot, hs, hb] at hi

/-- A raised alarm stands, whatever its kind's mode (R182). -/
theorem raiseAlarm_alarmed (s : State) (a : AlarmSource) (c : AlarmContent) : Alarmed s (s.raiseAlarm a c) a c := by
  unfold State.raiseAlarm
  split
  next hm => exact fun hne => absurd hm hne
  next => exact placeReport_alarmed s a c
  next =>
    dsimp only
    split
    · exact (placeReport_alarmed s a c).mono (fun _ hx => hx) fun _ hf => hf
    · exact placeReport_alarmed s a c

/-- The end of conditions leaves every alarm that stands (R182). -/
theorem Alarmed.drainClosed {s t : State} {a : AlarmSource} {c : AlarmContent} (x : Alarmed s t a c) (h : Nat) :
    Alarmed s (t.drainClose h) a c := by
  unfold State.drainClose
  split
  · exact x.mono (fun _ hx => hx) fun _ hf => hf
  · exact x

end Sys2Proof.Machine
end

section
/-! PROOFS. The path of a DATA or RANGE observation (R13, R17): the window it opens, what is stale, the windows without a clean burst, and the loss of a home. -/

namespace Sys2Proof.Machine

/-! ### The observation of a window (R13, R17) -/

/-- The state as an observation reaches the later stages: its window no longer outstanding, nothing passed on yet. -/
def State.opened (s : State) (r : WindowRef) : State :=
  { s.clearOutstanding r with ports := { s.ports with trafficOut := [] } }

@[simp] theorem opened_entry (s : State) (r : WindowRef) (h : Nat) : (s.opened r).entry h = s.entry h := rfl
@[simp] theorem opened_acct (s : State) (r : WindowRef) (h : Nat) : (s.opened r).acct h = s.acct h := rfl
@[simp] theorem opened_drift (s : State) (r : WindowRef) (h : Nat) : (s.opened r).drift h = s.drift h := rfl
@[simp] theorem opened_img (s : State) (r : WindowRef) : (s.opened r).img = s.img := rfl
@[simp] theorem opened_ua (s : State) (r : WindowRef) : (s.opened r).ua = s.ua := rfl
@[simp] theorem opened_um (s : State) (r : WindowRef) : (s.opened r).um = s.um := rfl
@[simp] theorem opened_draining (s : State) (r : WindowRef) : (s.opened r).draining = s.draining := rfl

theorem opened_homeStep (s : State) (r : WindowRef) (h : Nat) : HomeStep (s.clearOutstanding r) (s.opened r) h :=
  HomeStep.refl (s.clearOutstanding r) h

/-- A step from the opened window, as the statements frame it: the maps are those of the cleared window, the events those before it. -/
theorem HomeStep.framed {s t : State} {r : WindowRef} {h : Nat} (x : HomeStep (s.opened r) t h) :
    HomeFrame (s.clearOutstanding r) t h ∧ NoEvent s t :=
  (opened_homeStep s r h).trans x

/-- An observation in the span of an outstanding window is judged, and the frames are offered (R13, R17). -/
theorem exec_observe (s : State) (r : WindowRef) (w : Window) (o : BurstObs) (hr : s.resetHeld = false)
    (ho : s.observable r = true) (hk : r.kind = .data ∨ r.kind = .range) (hw : s.findWindow r = some w)
    (hs : BurstObs.inSpan w o = true) :
    ∃ t, exec (.dataRangeObservation r o) s = .next t ∧ Offered ((s.opened r).observeBurst r w o) t := by
  refine ⟨((s.opened r).observeBurst r w o).settle, ?_, settle_offered _⟩
  change execDataRangeObservation r o s = _
  unfold execDataRangeObservation
  rw [if_neg (by rw [hr]; decide), if_pos ⟨ho, hk⟩, hw]
  exact if_pos hs

/-- An observation is fresh where the entry at its handle still holds the serial of its window (R17). -/
theorem stale_iff (s : State) (h : Nat) (w : Window) :
    s.stale h w = true ↔ (s.entry h).state = .free ∨ (s.entry h).serial ≠ w.serial := by
  unfold State.stale
  rw [Bool.or_eq_true, decide_eq_true_eq, decide_eq_true_eq]

theorem observeBurst_stale (s : State) (r : WindowRef) (w : Window) (o : BurstObs)
    (h : (s.entry r.handle).state = .free ∨ (s.entry r.handle).serial ≠ w.serial) : s.observeBurst r w o = s :=
  if_pos ((stale_iff ..).2 h)

theorem observeBurst_fresh (s : State) (r : WindowRef) (w : Window) (o : BurstObs) (hf : (s.entry r.handle).state ≠ .free)
    (hs : (s.entry r.handle).serial = w.serial) :
    s.observeBurst r w o =
      match classify r.handle o with
      | .clean d ack report ps => s.cleanBurst r.handle r.map r.kind d ack report ps
      | .garbled => if r.kind = .range then s.rangeMissed r.handle else s.dataMissed r.handle
      | .dark => if r.kind = .range then s.rangeMissed r.handle else s.dataMissed r.handle :=
  if_neg fun x => ((stale_iff ..).1 x).elim hf fun y => y hs

/-- A clean burst under the own header reaches the stages of a clean burst. -/
theorem observeBurst_clean (s : State) (r : WindowRef) (w : Window) (d : Int) (ack : Bool) (q : Nat) (ps : List UpPacket)
    (hf : (s.entry r.handle).state ≠ .free) (hs : (s.entry r.handle).serial = w.serial) :
    s.observeBurst r w (.clean d r.handle ack q ps) = s.cleanBurst r.handle r.map r.kind d ack q ps := by
  rw [observeBurst_fresh s r w _ hf hs, classify, if_pos rfl]

/-- The window passed without a clean burst of its home: garbled, dark, or a burst in its span under a foreign header (R88). -/
def MissedBy (w : Window) (h : Nat) (o : BurstObs) : Prop :=
  o = .garbled ∨ o = .dark ∨ ∃ d header ack q ps, o = .clean d header ack q ps ∧ header ≠ h ∧ w.spans d = true

theorem MissedBy.inSpan {w : Window} {h : Nat} {o : BurstObs} (x : MissedBy w h o) : BurstObs.inSpan w o = true := by
  obtain rfl | rfl | ⟨d, header, ack, q, ps, rfl, -, hs⟩ := x
  · rfl
  · rfl
  · exact hs

/-- A window without a clean burst counts at the watchdog or as an attempt (R37, R88). -/
theorem observeBurst_missed (s : State) (r : WindowRef) (w : Window) (o : BurstObs) (x : MissedBy w r.handle o)
    (hf : (s.entry r.handle).state ≠ .free) (hs : (s.entry r.handle).serial = w.serial) :
    s.observeBurst r w o = if r.kind = .range then s.rangeMissed r.handle else s.dataMissed r.handle := by
  rw [observeBurst_fresh s r w o hf hs]
  obtain rfl | rfl | ⟨d, header, ack, q, ps, rfl, hne, -⟩ := x
  · rfl
  · rfl
  · rw [classify, if_neg hne]

/-! ### The loss of a home (R38, R192) -/

theorem enterLost_drift (s : State) (h : Nat) (hh : 1 ≤ h ∧ h ≤ 64) :
    (s.enterLost h).drift h = { s.drift h with phase := .off } := by
  refine ((raiseAlarm_reportsOnly ..).drift h).trans (((endCondition_reportsOnly ..).drift h).trans ?_)
  exact drift_setDrift_self _ h _ hh

theorem enterLost_alarmed (s : State) (h : Nat) :
    Alarmed s (s.enterLost h) { kind := .homeLost, handle := h } (.homeLost (s.entry h).serial) :=
  (raiseAlarm_alarmed _ _ _).of_same rfl rfl rfl

/-- Losing a home raises HOME_LOST, and a close that follows leaves it standing. -/
theorem loseHome_alarmed (s : State) (h : Nat) :
    Alarmed s (s.loseHome h) { kind := .homeLost, handle := h } (.homeLost (s.entry h).serial) :=
  (enterLost_alarmed s h).drainClosed h

/-- What a close that begins from `v` leaves is the same from any state that agrees with it on what a close reads. -/
theorem DrainClosed.of_step {s v t : State} {h : Nat} {e : Entry} (x : DrainClosed v t h e)
    (hb : (v.entry h).bookedTerm = (s.entry h).bookedTerm) (hum : v.um = s.um) (hua : v.ua = s.ua)
    (hd : { v.drift h with phase := .off } = { s.drift h with phase := .off }) (hhu : v.hu = s.hu)
    (ho : OthersSame s v h) : DrainClosed s t h e := by
  obtain ⟨he, ha, hu, hdr, hr, hh, hot⟩ := x
  refine ⟨he, ?_, by rw [hu, hua, hb], by rw [hdr, hd], hr, hh.trans hhu, fun k hk => ?_⟩
  · rw [ha, enterClosing_acct, enterClosing_acct, acct_of_um v s hum.symm h, hum]
    simp only [State.bandAt, hum]
  · obtain ⟨e1, a1, d1⟩ := hot k hk
    obtain ⟨e2, a2, d2⟩ := ho k hk
    exact ⟨e1.trans e2, a1.trans a2, d1.trans d2⟩

theorem DrainClosed.offered {s t u : State} {h : Nat} {e : Entry} (x : DrainClosed s t h e) (o : Offered t u) :
    DrainClosed s u h e := by
  obtain ⟨he, ha, hu, hd, hr, hh, hot⟩ := x
  refine ⟨(o.entry h).trans he, (o.acct h).trans ha, o.ua.trans hu, (o.drift h).trans hd, by rw [o.repeats]; exact hr,
    o.hu.trans hh, fun k hk => ?_⟩
  obtain ⟨e1, a1, d1⟩ := hot k hk
  exact ⟨(o.entry k).trans e1, (o.acct k).trans a1, (o.drift k).trans d1⟩

/-- Entering LOST changes the term of no booked entry (R82). -/
theorem toLost_bookedTerm (e : Entry) (n : Nat) (hb : e.state.booked = true) : (e.toLost n).bookedTerm = e.bookedTerm := by
  unfold Entry.bookedTerm Entry.toLost
  rw [hb]
  rfl

/-- A home whose entry was `e` as it is lost, outside DRAINING (R38). -/
theorem loseHome_stands (s : State) (h : Nat) (e : Entry) (hh : 1 ≤ h ∧ h ≤ 64) (hd : s.draining = false) :
    ((s.setEntry h e).loseHome h).entry h = e.toLost s.img.lostTime ∧
      ((s.setEntry h e).loseHome h).drift h = { s.drift h with phase := .off } ∧
      ((s.setEntry h e).loseHome h).acct h = s.acct h ∧ ((s.setEntry h e).loseHome h).ua = s.ua := by
  have hlose : (s.setEntry h e).loseHome h = (s.setEntry h e).enterLost h :=
    drainClose_stands _ h (by unfold State.draining; rw [enterLost_il]; exact hd)
  rw [hlose]
  refine ⟨?_, by rw [enterLost_drift _ h hh]; rfl, ?_, by simp⟩
  · rw [enterLost_entry, if_pos ⟨rfl, hh⟩, entry_setEntry_self s h e hh]; rfl
  · exact acct_of_um _ _ (by simp) h

/-- A home whose entry was `e` as it is lost while DRAINING closes from there (R38, R192). -/
theorem loseHome_closes (s : State) (h : Nat) (e : Entry) (hh : 1 ≤ h ∧ h ≤ 64) (hd : s.draining = true)
    (hb : e.state.booked = true) (ht : e.bookedTerm = (s.entry h).bookedTerm) :
    DrainClosed s ((s.setEntry h e).loseHome h) h (e.toLost s.img.lostTime) := by
  have he : ((s.setEntry h e).enterLost h).entry h = e.toLost s.img.lostTime := by
    rw [enterLost_entry, if_pos ⟨rfl, hh⟩, entry_setEntry_self s h e hh]; rfl
  have hdr : ((s.setEntry h e).enterLost h).draining = true := by unfold State.draining; rw [enterLost_il]; exact hd
  have hclosed := drainClose_closed _ h hdr hh (.inr (by rw [he]; rfl))
  rw [he] at hclosed
  obtain ⟨⟨hothers, -⟩, -⟩ := (setEntry_homeStep s h e).trans (enterLost_homeStep _ h)
  refine hclosed.of_step ?_ (by simp) (by simp) ?_ (by simp) hothers
  · rw [he, toLost_bookedTerm e _ hb, ht]
  · rw [enterLost_drift _ h hh]; rfl

theorem loseHome_step (s : State) (h : Nat) (e : Entry) : HomeStep s ((s.setEntry h e).loseHome h) h :=
  (setEntry_homeStep ..).trans (loseHome_homeStep ..)

/-- A served entry counts in the booked sum (R82). -/
theorem booked_of_served (st : HomeState) (h : st.served = true) : st.booked = true := by
  cases st <;> cases h <;> rfl

theorem served_ne_free {st : HomeState} (h : st.served = true) : st ≠ .free := by rintro rfl; cases h

/-! ### The watchdog (R37) -/

/-- The entry with one missed window more at the watchdog, which stops at 8 (R37). -/
def Entry.missedOnce (e : Entry) : Entry := { e with missed := min 8 (e.missed + 1) }

/-- A missed DATA window that brings no ACTIVE entry to 8 advances the watchdog alone (R37). -/
theorem dataMissed_counts (s : State) (h : Nat) (hs : (s.entry h).state.served = true)
    (hc : (s.entry h).missed < 7 ∨ (s.entry h).state ≠ .active) :
    s.dataMissed h = s.setEntry h (s.entry h).missedOnce := by
  refine (if_pos hs).trans (if_neg ?_)
  rintro ⟨hact, hcount⟩
  exact hc.elim (fun hlt => absurd hcount (by simp only [Config.missedLimit]; omega)) fun hne => hne hact

/-- A missed DATA window that brings an ACTIVE entry to 8 loses its home (R37, R38). -/
theorem dataMissed_loses (s : State) (h : Nat) (ha : (s.entry h).state = .active) (hc : 7 ≤ (s.entry h).missed) :
    s.dataMissed h = (s.setEntry h (s.entry h).missedOnce).loseHome h :=
  (if_pos (by rw [ha]; rfl)).trans (if_pos ⟨ha, by simp only [Config.missedLimit]; omega⟩)

/-- Settles O18: the observation is judged in the opened window, by the count the watchdog reaches. -/
theorem missedDataWindow : Obligations.MissedDataWindow := by
  unfold Obligations.MissedDataWindow
  intro s r w o hreset hobs hkind hfind hserial hserved hmissed
  have hfree := served_ne_free hserved
  have hh := handle_of_state s r.handle hfree
  obtain ⟨t, hexec, hoff⟩ := exec_observe s r w o hreset hobs (.inl hkind) hfind (MissedBy.inSpan hmissed)
  rw [observeBurst_missed (s.opened r) r w o hmissed hfree hserial, if_neg (by rw [hkind]; decide)] at hoff
  refine ⟨t, hexec, fun hstays => ?_, fun hcount hact hdrain => ?_, fun hcount hact hdrain => ?_⟩
  · rwa [dataMissed_counts (s.opened r) _ hserved hstays] at hoff
  · rw [dataMissed_loses (s.opened r) _ hact hcount] at hoff
    obtain ⟨he, hd, ha, hua⟩ := loseHome_stands (s.opened r) r.handle (s.entry r.handle).missedOnce hh hdrain
    obtain ⟨hframe, hev⟩ := ((loseHome_step (s.opened r) r.handle _).trans (hoff.homeStep _)).framed
    exact ⟨(hoff.entry _).trans he, congrArg Drift.phase ((hoff.drift _).trans hd),
      congrArg Allocator.booked (hoff.ua.trans hua), (hoff.acct _).trans ha, hframe, hev⟩
  · rw [dataMissed_loses (s.opened r) _ hact hcount] at hoff
    have hclosed := loseHome_closes (s.opened r) r.handle (s.entry r.handle).missedOnce hh hdrain
      (booked_of_served _ hserved) rfl
    have halarm := (loseHome_alarmed ((s.opened r).setEntry r.handle (s.entry r.handle).missedOnce) r.handle).offered hoff
    rw [entry_setEntry_self _ _ _ hh] at halarm
    obtain ⟨hframe, hev⟩ := ((loseHome_step (s.opened r) r.handle _).trans (hoff.homeStep _)).framed
    exact ⟨(hclosed.offered hoff).of_step rfl rfl rfl rfl rfl fun k _ => ⟨rfl, rfl, rfl⟩, halarm.of_same rfl rfl rfl,
      hframe, hev⟩

end Sys2Proof.Machine
end

section
/-! PROOFS. The capture of a discovery reply and its claim (R50 to R54). -/

namespace Sys2Proof.Machine

/-- A queued notice is the last of its producer's, and no other producer's (R176). -/
theorem queueNotice_outgoing (s : State) (n : Notice) (who : Producer) :
    (s.queueNotice n).outgoing who = s.outgoing who ++ if n.producer = who then [n] else [] := by
  simp only [State.outgoing, State.queueNotice, LinePort.queue, List.filter_append, List.append_assoc]
  by_cases h : n.producer = who <;> simp [h]

/-! ### The observation of a DISCOVER window (R15, R51) -/

theorem exec_discover (s : State) (r : WindowRef) (w : Window) (o : DiscoverObs) (hr : s.resetHeld = false)
    (ho : s.observable r = true) (hk : r.kind = .discover) (hw : s.findWindow r = some w)
    (hs : DiscoverObs.inSpan w o = true) :
    ∃ t, exec (.discoverObservation r o) s = .next t ∧ Offered ((s.clearOutstanding r).discovered o) t := by
  refine ⟨((s.clearOutstanding r).discovered o).settle, ?_, settle_offered _⟩
  change execDiscoverObservation r o s = _
  unfold execDiscoverObservation
  rw [if_neg (by rw [hr]; decide), if_pos ⟨ho, hk⟩, hw]
  exact congrArg _ (if_pos hs)

/-- Captures are taken under four conditions together (R51). -/
theorem captures_iff (s : State) :
    s.captures = true ↔ s.ee.discoveryEnable = true ∧ s.hu.role = .noRole ∧ s.il.startup = .operating ∧
      s.slp.lineState = .attached := by
  unfold State.captures State.operating
  cases s.hu.role <;> simp [Role.taken, and_assoc]

/-- With a condition missing, or no reply received, the engine takes nothing (R15, R51). -/
theorem discovered_nothing (s : State) (o : DiscoverObs) (h : s.captures = false ∨ o = .garbled ∨ o = .dark) :
    s.discovered o = s := by
  obtain h | rfl | rfl := h
  · cases o with
    | clean replies => exact if_neg (by rw [h]; decide)
    | garbled => rfl
    | dark => rfl
  · rfl
  · rfl

/-- Where the first place is free, it is the first of the free places. -/
theorem freePlaces_head (rest : List (Option Capture)) : ∃ places, freePlaces (none :: rest) = 0 :: places := by
  unfold freePlaces
  rw [List.length_cons, List.range_succ_eq_map, List.filter_cons]
  exact ⟨_, if_pos (decide_eq_true rfl)⟩

/-- One reply with the first place free is captured there and judged at once (R51). -/
theorem discovered_one (s : State) (p : Reply) (rest : List (Option Capture)) (hc : s.captures = true)
    (hp : s.ee.captures = none :: rest) :
    s.discovered (.clean [p]) = (s.setPlace 0 (some (captureOf p))).judgeCapture (0, p) := by
  obtain ⟨places, hplaces⟩ := freePlaces_head rest
  refine (if_pos hc).trans ?_
  unfold State.takeReplies
  rw [hp, hplaces, List.zip_cons_cons, List.zip_nil_right]
  rfl

/-- A capture in reach goes on to the claim start (R52). -/
theorem judgeCapture_inReach (s : State) (i : Nat) (p : Reply) (hlo : (s.img.rLow : Int) ≤ replyRoundTrip p s.img.rLow)
    (hhi : replyRoundTrip p s.img.rLow ≤ s.img.rHigh) : s.judgeCapture (i, p) = s.startClaim i p :=
  if_neg fun x => x.elim (fun y => absurd hlo (Int.not_le.2 y)) fun y => absurd hhi (Int.not_le.2 y)

/-- A claim starts with an unknown serial, a FREE entry and admission (R53). -/
theorem startClaim_claims (s : State) (i h : Nat) (p : Reply) (hfind : s.find p.serial = none)
    (hfree : s.freeHandle = some h) (hadmits : s.admits s.img.defaultProfile.assured = true) :
    s.startClaim i p =
      ((s.takeEntry h (claimEntry s.img p.serial (replyRoundTrip p s.img.rLow))).setPlace i
          (some { captureOf p with claim := some { handle := h, carried := false, holdTimer := none } })).queueNotice
        (.claim p.serial s.channel) := by
  unfold State.startClaim
  rw [if_neg (by rw [hfind]; decide), hfree]
  exact if_pos hadmits

/-- One reply in reach, with the first place free: its claim starts there (R51 to R53). -/
theorem discovered_claims (s : State) (h : Nat) (p : Reply) (rest : List (Option Capture)) (hc : s.captures = true)
    (hp : s.ee.captures = none :: rest) (hlo : (s.img.rLow : Int) ≤ replyRoundTrip p s.img.rLow)
    (hhi : replyRoundTrip p s.img.rLow ≤ s.img.rHigh) (hfind : s.find p.serial = none)
    (hfree : s.freeHandle = some h) (hadmits : s.admits s.img.defaultProfile.assured = true) :
    s.discovered (.clean [p]) =
      (((s.setPlace 0 (some (captureOf p))).takeEntry h
          (claimEntry s.img p.serial (replyRoundTrip p s.img.rLow))).setPlace 0
          (some { captureOf p with claim := some { handle := h, carried := false, holdTimer := none } })).queueNotice
        (.claim p.serial s.channel) := by
  rw [discovered_one s p rest hc hp]
  exact (judgeCapture_inReach (s.setPlace 0 _) 0 p hlo hhi).trans
    (startClaim_claims (s.setPlace 0 _) 0 h p hfind hfree hadmits)

/-- In reach the clamping of E leaves it alone: R and E are the capture's own (R24, R52). -/
theorem claimEntry_inReach (img : Image) (serial : Serial) (round : Int) (hlo : (img.rLow : Int) ≤ round)
    (hhi : round ≤ img.rHigh) (htop : img.rHigh ≤ 160000) :
    claimEntry img serial round =
      { Entry.free with
        state := .claiming, serial := some serial, roundTrip := some round.toNat, eqDelay := some (160000 - round.toNat),
        profile := some img.defaultProfile } := by
  have hdelay : clampDelay img (Config.targetDelay - round) = 160000 - round.toNat := by
    unfold clampDelay clampInt Config.targetDelay
    omega
  have hround : 160000 - (160000 - round.toNat) = round.toNat := by omega
  unfold claimEntry Entry.storeDelay
  rw [hdelay]
  simp only [Config.targetDelay, hround]

/-- The lowest FREE handle is a handle of the roster (R22). -/
theorem freeHandle_range (s : State) (h : Nat) (hf : s.freeHandle = some h) : 1 ≤ h ∧ h ≤ 64 :=
  (mem_handles h).1 (List.mem_of_find?_eq_some hf)

/-- Settles O23: one reply in reach is captured in the first place and its claim starts; with a condition missing nothing is taken. -/
theorem captureClaims : Obligations.CaptureClaims := by
  unfold Obligations.CaptureClaims
  refine ⟨?_, ?_⟩
  · intro s r w p h rest hreset hobs hkind hfind hcap hplaces hlo hhi htop hnew hfree hadmits hspan
    have hh := freeHandle_range s h hfree
    obtain ⟨t, hexec, hoff⟩ := exec_discover s r w (.clean [p]) hreset hobs hkind hfind
      (List.all_eq_true.2 fun x hx => by rw [List.mem_singleton.1 hx]; exact hspan)
    rw [discovered_claims (s.clearOutstanding r) h p rest hcap hplaces hlo hhi hnew hfree hadmits] at hoff
    refine ⟨t, hexec, ?_, ?_, ?_, ?_, hoff.hu, hoff.um, hoff.noEvent, fun k hk => ⟨?_, hoff.acct k, hoff.drift k⟩⟩
    · rw [← claimEntry_inReach s.img p.serial _ hlo hhi htop]
      exact (hoff.entry h).trans (entry_setEntry_self _ h _ hh)
    · rw [hoff.ua]; rfl
    · rw [hoff.ee]
      change ((s.ee.captures.set 0 _).set 0 _) = _
      rw [hplaces]; rfl
    · rw [hoff.notices, queueNotice_outgoing]; rfl
    · exact (hoff.entry k).trans (entry_setEntry_other _ h k _ hk)
  · intro s r w o hreset hobs hkind hfind hspan hnot
    obtain ⟨t, hexec, hoff⟩ := exec_discover s r w o hreset hobs hkind hfind hspan
    rw [discovered_nothing (s.clearOutstanding r) o] at hoff
    · exact ⟨t, hexec, hoff⟩
    · rw [← Bool.not_eq_true, captures_iff]
      obtain h | h | h | h | h | h := hnot
      · exact .inl fun ⟨c, _⟩ => absurd (h.symm.trans c) (by decide)
      · exact .inl fun ⟨_, c, _⟩ => h c
      · exact .inl fun ⟨_, _, c, _⟩ => h c
      · exact .inl fun ⟨_, _, _, c⟩ => absurd (h.symm.trans c) (by decide)
      · exact .inr (.inl h)
      · exact .inr (.inr h)

end Sys2Proof.Machine
end

section
/-! PROOFS. The stages of a clean burst (R17): what the roster hears, the RANGE burst by the entry's state, the packets, and the timing judgement; and with them the clean DATA burst and the RANGE windows. -/

namespace Sys2Proof.Machine

/-! ### What the roster hears (R32, R35, R37) -/

/-- A served entry's clean burst returns the watchdog to 0 (R35, R37). -/
theorem heard_served (e : Entry) (q : Nat) (h : e.state.served = true) :
    e.heard q = { e with reportQ := q, idle := 0, missed := 0 } := by
  unfold Entry.heard
  rw [if_pos h]

theorem heard_unserved (e : Entry) (q : Nat) (h : e.state.served = false) :
    e.heard q = { e with reportQ := q, idle := 0 } := by
  unfold Entry.heard
  rw [if_neg (by rw [h]; decide)]

theorem acknowledges_empty (e : Entry) (map : CycleNo) (ack : Bool) (h : e.mailbox = none) :
    e.acknowledges map ack = none := by
  unfold Entry.acknowledges
  rw [h]

/-- A message no map has carried is not acknowledged (R32). -/
theorem acknowledges_uncarried (e : Entry) (map : CycleNo) (ack : Bool) (m : Message) (h : e.mailbox = some m)
    (hc : m.carried = 0) : e.acknowledges map ack = none := by
  unfold Entry.acknowledges
  rw [h]
  dsimp only
  split
  · rfl
  · exact if_neg fun x => absurd (hc ▸ x.2.1) (by decide)

/-- A carried ADJUST is acknowledged by its sequence bit in a window of its first map or a later one (R32). -/
theorem acknowledges_adjust (e : Entry) (map f : CycleNo) (ack : Bool) (m : Message) (a : Nat) (h : e.mailbox = some m)
    (hk : m.kind = .adjust a) (hc : 1 ≤ m.carried) (hf : m.firstMap = some f) (hl : (map - f).toNat < 2 ^ 31) :
    e.acknowledges map ack = if ack = m.seqBit then some (.adjust a) else none := by
  unfold Entry.acknowledges
  rw [h]
  simp only [hf, hk]
  by_cases hb : ack = m.seqBit
  · rw [if_pos ⟨by simp, hc, hl, hb⟩, if_pos hb]
  · rw [if_neg fun x => hb x.2.2.2, if_neg hb]

/-- A burst that acknowledges nothing: heard, brought to its window's stage, judged (R17). -/
theorem cleanBurst_unacked (s : State) (h : Nat) (map : CycleNo) (kind : WindowKind) (d : Int) (ack : Bool) (q : Nat)
    (ps : List UpPacket) (ha : (s.entry h).acknowledges map ack = none) :
    s.cleanBurst h map kind d ack q ps =
      (if kind = .range then ((s.noteOffset h d).setEntry h ((s.entry h).heard q)).rangeBurst h d
        else ((s.noteOffset h d).setEntry h ((s.entry h).heard q)).takePackets h ps).judge h (s.entry h).state kind none d := by
  simp only [State.cleanBurst, ha, Entry.takeAck]

/-- A burst that acknowledges an ADJUST empties the mailbox and stores the argument ahead of the other stages (R32). -/
theorem cleanBurst_acksAdjust (s : State) (h : Nat) (map : CycleNo) (kind : WindowKind) (d : Int) (ack : Bool) (q : Nat)
    (ps : List UpPacket) (a : Nat) (ha : (s.entry h).acknowledges map ack = some (.adjust a)) :
    s.cleanBurst h map kind d ack q ps =
      (if kind = .range then
          ((s.noteOffset h d).setEntry h ({ (s.entry h).heard q with mailbox := none }.storeDelay s.img a)).rangeBurst h d
        else ((s.noteOffset h d).setEntry h ({ (s.entry h).heard q with mailbox := none }.storeDelay s.img a)).takePackets
          h ps).judge h (s.entry h).state kind (some (.adjust a)) d := by
  simp only [State.cleanBurst, ha, Entry.takeAck]

@[simp] theorem noteOffset_entry (s : State) (h k : Nat) (d : Int) : (s.noteOffset h d).entry k = s.entry k := rfl
@[simp] theorem noteOffset_img (s : State) (h : Nat) (d : Int) : (s.noteOffset h d).img = s.img := rfl

theorem noteOffset_drift (s : State) (h : Nat) (d : Int) (hh : 1 ≤ h ∧ h ≤ 64) :
    (s.noteOffset h d).drift h = { s.drift h with lastOffset := some d } := drift_setDrift_self _ _ _ hh

theorem noteOffset_homeStep (s : State) (h : Nat) (d : Int) : HomeStep s (s.noteOffset h d) h := setDrift_homeStep ..

/-! ### The judgement of a burst's timing (R90 to R95) -/

/-- The states whose timing is judged (R90). -/
theorem judge_unjudged (s : State) (h : Nat) (before : HomeState) (kind : WindowKind) (acked : Option MsgKind) (d : Int)
    (hs : (s.entry h).state.served = false) : s.judge h before kind acked d = s := by
  unfold State.judge
  cases hst : (s.entry h).state <;> simp_all [HomeState.served]

/-- Outside a re-range an ACTIVE entry is judged by the offset (R90, R91). -/
theorem judge_byOffset (s : State) (h : Nat) (before : HomeState) (kind : WindowKind) (acked : Option MsgKind) (d : Int)
    (ha : (s.entry h).state = .active) (hb : before ≠ .confirming) (hp : (s.drift h).phase = .off) :
    s.judge h before kind acked d = s.judgeOffset h d := by
  simp only [State.judge, ha, hp, if_neg hb]

/-- A RANGE burst in SEEKING is the measurement of the re-range (R94). -/
theorem judge_seeking (s : State) (h : Nat) (before : HomeState) (acked : Option MsgKind) (d : Int)
    (ha : (s.entry h).state = .active) (hb : before ≠ .confirming) (hp : (s.drift h).phase = .seeking) :
    s.judge h before .range acked d = s.measureDrift h d := by
  simp only [State.judge, ha, hp, if_neg hb, if_true]

/-- In SETTLING only the acknowledgement of the ADJUST ends the re-range (R95). -/
theorem judge_settling (s : State) (h : Nat) (before : HomeState) (kind : WindowKind) (acked : Option MsgKind) (d : Int)
    (ha : (s.entry h).state = .active) (hb : before ≠ .confirming) (hp : (s.drift h).phase = .settling) :
    s.judge h before kind acked d = if ackIsAdjust acked = true then (s.clearDriftHold h).judgeOffset h d else s := by
  simp only [State.judge, ha, hp, if_neg hb]

/-- Up to 4 steps nothing is posted, and the misplaced count returns to 0 (R91). -/
theorem judgeOffset_near (s : State) (h : Nat) (d : Int) (hd : d.natAbs ≤ 4) :
    s.judgeOffset h d = s.setEntry h { s.entry h with misplaced := 0 } := if_pos hd

/-- From 5 to 24 steps the delay is corrected (R92). -/
theorem judgeOffset_far (s : State) (h : Nat) (d : Int) (hlo : ¬d.natAbs ≤ 4) (hhi : d.natAbs ≤ 24) :
    s.judgeOffset h d = s.setEntry h ({ s.entry h with misplaced := 0 }.correct s.img d) :=
  (if_neg hlo).trans (if_pos hhi)

/-- The third burst beyond 24 steps of an ACTIVE entry sets the DRIFT hold (R93). -/
theorem judgeOffset_third (s : State) (h : Nat) (d : Int) (hd : 25 ≤ d.natAbs) (ha : (s.entry h).state = .active)
    (hm : (s.entry h).misplaced = 2) :
    s.judgeOffset h d =
      ((s.setEntry h { s.entry h with misplaced := 3 }).setDrift h { s.drift h with tripOffset := some d }).setDriftHold h := by
  unfold State.judgeOffset
  rw [if_neg (by omega), if_neg (by omega)]
  simp only [hm, ha]
  rfl

/-- With an empty mailbox a delay is corrected unless the argument is the stored E (R92). -/
theorem correct_empty (e : Entry) (img : Image) (d : Int) (hm : e.mailbox = none) :
    e.correct img d =
      if e.eqDelay = some (clampDelay img ((e.eqDelay.getD 0 : Nat) - d)) then e
      else e.post (.adjust (clampDelay img ((e.eqDelay.getD 0 : Nat) - d))) := by
  simp only [Entry.correct, hm, Option.any_none, Bool.false_eq_true, false_or]

/-- The judgement of a burst up to 24 steps off, of an entry with an empty mailbox (R91, R92). -/
theorem judgeOffset_clean (s : State) (h : Nat) (d : Int) (hd : d.natAbs ≤ 24) (hm : (s.entry h).mailbox = none) :
    s.judgeOffset h d = s.setEntry h
      (if d.natAbs ≤ 4 ∨ (s.entry h).eqDelay = some (clampDelay s.img (((s.entry h).eqDelay.getD 0 : Nat) - d)) then
        { s.entry h with misplaced := 0 }
      else { s.entry h with misplaced := 0 }.post
        (.adjust (clampDelay s.img (((s.entry h).eqDelay.getD 0 : Nat) - d)))) := by
  by_cases hn : d.natAbs ≤ 4
  · rw [judgeOffset_near s h d hn, if_pos (.inl hn)]
  · rw [judgeOffset_far s h d hn hd, correct_empty { s.entry h with misplaced := 0 } _ _ hm]
    simp only [hn, false_or]

/-! ### The packets of a clean burst (R152) -/

/-- The packets of a burst counted at an account in order, by their labels and the band in force (R152, R154). -/
def State.counted (s : State) (ps : List UpPacket) (a : Account) : Account :=
  ps.foldl (fun x p => x.countUp (freeUp s.um.freeLabels p.label) p.bytes (s.bandAt s.um.band).priceUp) a

/-- What counting packets at a home may change: its account, and reports. -/
structure PacketsTaken (s t : State) (h : Nat) : Prop where
  step : HomeStep s t h
  roster : t.roster = s.roster
  lw : t.lw = s.lw
  hu : t.hu = s.hu
  ua : t.ua = s.ua
  outgoing : ∀ who, t.outgoing who = s.outgoing who

theorem PacketsTaken.refl (s : State) (h : Nat) : PacketsTaken s s h :=
  ⟨HomeStep.refl s h, rfl, rfl, rfl, rfl, fun _ => rfl⟩

theorem PacketsTaken.trans {s t u : State} {h : Nat} (a : PacketsTaken s t h) (b : PacketsTaken t u h) :
    PacketsTaken s u h :=
  ⟨a.step.trans b.step, b.roster.trans a.roster, b.lw.trans a.lw, b.hu.trans a.hu, b.ua.trans a.ua,
    fun who => (b.outgoing who).trans (a.outgoing who)⟩

theorem changeAcct_packetsTaken (s : State) (h : Nat) (a : Account) : PacketsTaken s (s.changeAcct h a) h :=
  have r := changeAcct_reportsOnly s h a
  ⟨changeAcct_homeStep s h a, r.roster, r.lw, r.hu, r.ua, r.outgoing⟩

theorem countUpPacket_packetsTaken (s : State) (h : Nat) (p : UpPacket) : PacketsTaken s (s.countUpPacket h p) h := by
  unfold State.countUpPacket
  split
  · exact PacketsTaken.refl s h
  · exact changeAcct_packetsTaken ..

/-- Counting touches neither the labels nor the tariff that it reads (R152). -/
theorem PacketsTaken.counted {s t : State} {h : Nat} (x : PacketsTaken s t h) (ps : List UpPacket) :
    t.counted ps = s.counted ps := by
  obtain ⟨⟨⟨-, ⟨htariff, hlabels, hband, -⟩, -⟩, -⟩, -⟩ := x
  unfold State.counted State.bandAt
  rw [htariff, hlabels, hband]

theorem countUpPacket_acct (s : State) (h : Nat) (p : UpPacket) (hh : 1 ≤ h ∧ h ≤ 64) :
    (s.countUpPacket h p).acct h = (s.acct h).map (s.counted [p]) := by
  unfold State.countUpPacket
  cases ha : s.acct h with
  | none => exact ha
  | some a =>
    refine ((changeAcct_reportsOnly s h _).acct h).trans ?_
    rw [acct_setAcct, if_pos ⟨rfl, hh⟩]
    rfl

/-- All the packets of a burst, counted one after the other. -/
theorem countPackets (h : Nat) (hh : 1 ≤ h ∧ h ≤ 64) (ps : List UpPacket) (s : State) :
    PacketsTaken s (ps.foldl (fun t p => t.countUpPacket h p) s) h ∧
      (ps.foldl (fun t p => t.countUpPacket h p) s).acct h = (s.acct h).map (s.counted ps) := by
  induction ps generalizing s with
  | nil => exact ⟨PacketsTaken.refl s h, (congrFun Option.map_id (s.acct h)).symm⟩
  | cons p ps ih =>
    have hone := countUpPacket_packetsTaken s h p
    obtain ⟨hrest, hacct⟩ := ih (s.countUpPacket h p)
    refine ⟨hone.trans hrest, hacct.trans ?_⟩
    rw [countUpPacket_acct s h p hh, hone.counted, Option.map_map]
    rfl

/-- A served home's packets that pass their own check are counted and passed on (R18, R152). -/
theorem takePackets_served (s : State) (h : Nat) (ps : List UpPacket) (hs : (s.entry h).state.served = true)
    (hh : 1 ≤ h ∧ h ≤ 64) :
    PacketsTaken s (s.takePackets h ps) h ∧
      (s.takePackets h ps).acct h = (s.acct h).map (s.counted (ps.filter UpPacket.intact)) ∧
      (s.takePackets h ps).ports.trafficOut = ps.filter UpPacket.intact := by
  obtain ⟨htaken, hacct⟩ := countPackets h hh (ps.filter UpPacket.intact) s
  unfold State.takePackets
  rw [if_pos hs]
  exact ⟨⟨htaken.step, htaken.roster, htaken.lw, htaken.hu, htaken.ua, htaken.outgoing⟩, hacct, rfl⟩

/-- A burst without packets passes nothing on. -/
theorem takePackets_nil (s : State) (h : Nat) (ht : s.ports.trafficOut = []) : s.takePackets h [] = s := by
  have hsame : ({ s with ports := { s.ports with trafficOut := [] } } : State) = s := by rw [← ht]
  unfold State.takePackets
  split
  · exact hsame
  · rfl

/-! ### The clean DATA burst (R35, R88, R91 to R93, R152) -/

theorem setDriftHold_entry (s : State) (h : Nat) (hh : 1 ≤ h ∧ h ≤ 64) :
    (s.setDriftHold h).entry h = { s.entry h with
      holds := { (s.entry h).holds with drift := true }, rangeAttempts := 0, reRangeIdle := (s.entry h).idle } :=
  ((raiseAlarm_reportsOnly ..).entry h).trans (entry_setEntry_self _ h _ hh)

theorem setDriftHold_drift (s : State) (h : Nat) (hh : 1 ≤ h ∧ h ≤ 64) :
    (s.setDriftHold h).drift h = { s.drift h with phase := .seeking } :=
  ((raiseAlarm_reportsOnly ..).drift h).trans (drift_setDrift_self _ h _ hh)

theorem setDriftHold_um (s : State) (h : Nat) : (s.setDriftHold h).um = s.um := (raiseAlarm_reportsOnly ..).um

theorem setDriftHold_alarmed (s : State) (h : Nat) :
    Alarmed s (s.setDriftHold h) { kind := .homeDrift, handle := h }
      (.homeDrift (s.entry h).serial h ((s.drift h).tripOffset.getD 0)) :=
  (raiseAlarm_alarmed _ _ _).of_same rfl rfl rfl

end Sys2Proof.Machine
end

section
/-! PROOFS. The clean DATA burst of an ACTIVE home, and the third misplaced one (R88, R91 to R93, R152). -/

namespace Sys2Proof.Machine

theorem HomeStep.img {s t : State} {h : Nat} (x : HomeStep s t h) : t.img = s.img := by
  obtain ⟨⟨-, -, -, -, -, -, -, -, -, hil, -⟩, -⟩ := x
  unfold State.img
  rw [hil]

/-- The entry of an ACTIVE home once its clean burst is heard. -/
def Entry.heardActive (e : Entry) (q : Nat) : Entry := { e with reportQ := q, idle := 0, missed := 0 }

theorem heard_active (e : Entry) (q : Nat) (h : e.state = .active) : e.heard q = e.heardActive q :=
  heard_served e q (by rw [h]; rfl)

/-- The state as a clean burst of an ACTIVE home is heard: the offset noted, the report stored. -/
def State.heardAt (s : State) (h : Nat) (d : Int) (q : Nat) : State :=
  (s.noteOffset h d).setEntry h ((s.entry h).heardActive q)

theorem heardAt_entry (s : State) (h : Nat) (d : Int) (q : Nat) (hh : 1 ≤ h ∧ h ≤ 64) :
    (s.heardAt h d q).entry h = (s.entry h).heardActive q := entry_setEntry_self _ _ _ hh

theorem heardAt_drift (s : State) (h : Nat) (d : Int) (q : Nat) (hh : 1 ≤ h ∧ h ≤ 64) :
    (s.heardAt h d q).drift h = { s.drift h with lastOffset := some d } := noteOffset_drift s h d hh

theorem heardAt_homeStep (s : State) (h : Nat) (d : Int) (q : Nat) : HomeStep s (s.heardAt h d q) h :=
  (noteOffset_homeStep s h d).trans (setEntry_homeStep ..)

/-- A clean DATA burst of an ACTIVE home that acknowledges nothing, outside a re-range: its packets are taken, then its offset is judged. -/
theorem cleanBurst_data (s : State) (h : Nat) (map : CycleNo) (d : Int) (ack : Bool) (q : Nat) (ps : List UpPacket)
    (ha : (s.entry h).state = .active) (hk : (s.entry h).acknowledges map ack = none) (hp : (s.drift h).phase = .off)
    (hh : 1 ≤ h ∧ h ≤ 64) :
    s.cleanBurst h map .data d ack q ps = ((s.heardAt h d q).takePackets h ps).judgeOffset h d := by
  have hact : ((s.heardAt h d q).entry h).state = .active := by rw [heardAt_entry _ _ _ _ hh]; exact ha
  obtain ⟨htaken, -, -⟩ := takePackets_served (s.heardAt h d q) h ps (by rw [hact]; rfl) hh
  rw [cleanBurst_unacked _ _ _ _ _ _ _ _ hk, if_neg (by decide), heard_active _ _ ha]
  refine judge_byOffset _ h _ _ _ d ?_ (by rw [ha]; decide) ?_
  · exact (congrArg Entry.state (entry_of_roster _ _ htaken.roster h)).trans hact
  · refine (congrArg Drift.phase (drift_of_lw _ _ htaken.lw h)).trans ?_
    rw [heardAt_drift _ _ _ _ hh]
    exact hp

/-- The same without packets. -/
theorem cleanBurst_silent (s : State) (h : Nat) (map : CycleNo) (d : Int) (ack : Bool) (q : Nat)
    (ha : (s.entry h).state = .active) (hk : (s.entry h).acknowledges map ack = none) (hp : (s.drift h).phase = .off)
    (ht : s.ports.trafficOut = []) (hh : 1 ≤ h ∧ h ≤ 64) :
    s.cleanBurst h map .data d ack q [] = (s.heardAt h d q).judgeOffset h d := by
  rw [cleanBurst_data s h map d ack q [] ha hk hp hh, takePackets_nil (s.heardAt h d q) h ht]

/-- The third misplaced burst: what the DRIFT hold leaves of the home (R93). -/
theorem judgeOffset_drifts (s : State) (h : Nat) (d : Int) (hd : 25 ≤ d.natAbs) (ha : (s.entry h).state = .active)
    (hm : (s.entry h).misplaced = 2) (hh : 1 ≤ h ∧ h ≤ 64) :
    (s.judgeOffset h d).entry h = { s.entry h with
        misplaced := 3, holds := { (s.entry h).holds with drift := true }, rangeAttempts := 0,
        reRangeIdle := (s.entry h).idle } ∧
      (s.judgeOffset h d).drift h = { s.drift h with phase := .seeking, tripOffset := some d } ∧
      (s.judgeOffset h d).um = s.um ∧
      Alarmed s (s.judgeOffset h d) { kind := .homeDrift, handle := h } (.homeDrift (s.entry h).serial h d) ∧
      HomeStep s (s.judgeOffset h d) h := by
  have hentry : ((s.setEntry h { s.entry h with misplaced := 3 }).setDrift h
      { s.drift h with tripOffset := some d }).entry h = { s.entry h with misplaced := 3 } := entry_setEntry_self _ _ _ hh
  have hdrift : ((s.setEntry h { s.entry h with misplaced := 3 }).setDrift h
      { s.drift h with tripOffset := some d }).drift h = { s.drift h with tripOffset := some d } :=
    drift_setDrift_self _ _ _ hh
  rw [judgeOffset_third s h d hd ha hm]
  refine ⟨?_, ?_, setDriftHold_um _ h, ?_, ((setEntry_homeStep ..).trans (setDrift_homeStep ..)).trans
    (setDriftHold_homeStep ..)⟩
  · rw [setDriftHold_entry _ h hh, hentry]
  · rw [setDriftHold_drift _ h hh, hdrift]
  · have halarm := setDriftHold_alarmed ((s.setEntry h { s.entry h with misplaced := 3 }).setDrift h
      { s.drift h with tripOffset := some d }) h
    rw [hentry, hdrift] at halarm
    exact halarm.of_same rfl rfl rfl

/-- Settles O19: the packets are counted at the account, and the offset is judged near, far, or as the third misplaced one. -/
theorem cleanDataBurst : Obligations.CleanDataBurst := by
  unfold Obligations.CleanDataBurst
  refine ⟨?_, ?_⟩
  · intro s r w d ack q ps hreset hobs hkind hfind hserial hact hmail hphase hd hspan
    have hfree : (s.entry r.handle).state ≠ .free := by rw [hact]; decide
    have hh := handle_of_state s r.handle hfree
    obtain ⟨t, hexec, hoff⟩ := exec_observe s r w (.clean d r.handle ack q ps) hreset hobs (.inl hkind) hfind hspan
    have hentry := heardAt_entry (s.opened r) r.handle d q hh
    have hheard := heardAt_homeStep (s.opened r) r.handle d q
    obtain ⟨htaken, hacct, htraffic⟩ := takePackets_served ((s.opened r).heardAt r.handle d q) r.handle ps
      (by rw [hentry]; exact (congrArg HomeState.served hact).trans rfl) hh
    have hread := (entry_of_roster _ _ htaken.roster r.handle).trans hentry
    have himg := (hheard.trans htaken.step).img
    rw [observeBurst_clean (s.opened r) r w d ack q ps hfree hserial, hkind,
      cleanBurst_data (s.opened r) _ _ _ _ _ _ hact (acknowledges_empty _ _ _ hmail) hphase hh,
      judgeOffset_clean _ _ _ hd ((congrArg Entry.mailbox hread).trans hmail), hread, himg] at hoff
    obtain ⟨hframe, hev⟩ := (((hheard.trans htaken.step).trans (setEntry_homeStep _ r.handle _)).trans
      (hoff.homeStep r.handle)).framed
    refine ⟨t, hexec, ?_, (hoff.entry _).trans (entry_setEntry_self _ _ _ hh), ?_, (hoff.acct _).trans hacct, ?_,
      hoff.hu.trans htaken.hu, hframe, hev, fun who => (hoff.notices who).trans (htaken.outgoing who)⟩
    · exact (hoff.drift _).trans ((drift_of_lw _ _ htaken.lw _).trans (heardAt_drift (s.opened r) _ d q hh))
    · rw [hoff.ports]; exact htraffic
    · rw [hoff.ua]; exact congrArg Allocator.booked htaken.ua
  · intro s r w d ack q hreset hobs hkind hfind hserial hact hmail hphase hmis hd hspan
    have hfree : (s.entry r.handle).state ≠ .free := by rw [hact]; decide
    have hh := handle_of_state s r.handle hfree
    obtain ⟨t, hexec, hoff⟩ := exec_observe s r w (.clean d r.handle ack q []) hreset hobs (.inl hkind) hfind hspan
    rw [observeBurst_clean (s.opened r) r w d ack q [] hfree hserial, hkind,
      cleanBurst_silent (s.opened r) r.handle r.map d ack q hact (acknowledges_empty _ _ _ hmail) hphase rfl hh] at hoff
    have hentry := heardAt_entry (s.opened r) r.handle d q hh
    obtain ⟨he, hdr, hum, halarm, hstep⟩ := judgeOffset_drifts ((s.opened r).heardAt r.handle d q) r.handle d hd
      ((congrArg Entry.state hentry).trans hact) ((congrArg Entry.misplaced hentry).trans hmis) hh
    rw [hentry] at he halarm
    rw [heardAt_drift (s.opened r) r.handle d q hh] at hdr
    obtain ⟨hframe, hev⟩ := (((heardAt_homeStep (s.opened r) r.handle d q).trans hstep).trans
      (hoff.homeStep r.handle)).framed
    exact ⟨t, hexec, (hoff.entry _).trans he, (hoff.drift _).trans hdr, (halarm.offered hoff).of_same rfl rfl rfl,
      (hoff.acct _).trans (acct_of_um (s.opened r) _ hum _), hframe, hev⟩

end Sys2Proof.Machine
end

section
/-! PROOFS. The RANGE windows (R13, R17, R32, R40, R60, R94 to R96, R132, R133, R192): spans and stale windows, re-range, re-contact, arrival, confirmation. -/

namespace Sys2Proof.Machine

/-! ### Spans (R13) -/

/-- The span of a window, in steps (R13). -/
theorem spans_iff (w : Window) (d : Int) : w.spans d = true ↔ -96 ≤ d ∧ d ≤ 8 * ((w.length : Int) + 4 - 12) - 1 := by
  refine decide_eq_true_iff.trans ?_
  simp only [Config.overheadWords, Config.guardWords]
  omega

/-- A burst outside the span of its window is no observation of it (R13). -/
theorem exec_outOfSpan (s : State) (r : WindowRef) (w : Window) (o : BurstObs) (hw : s.findWindow r = some w)
    (hs : BurstObs.inSpan w o = false) : exec (.dataRangeObservation r o) s = .next s := by
  change execDataRangeObservation r o s = _
  unfold execDataRangeObservation
  simp only [hw, hs, Bool.false_eq_true, if_false, ite_self]

/-- So for a discovery reply (R13). -/
theorem exec_replyOutOfSpan (s : State) (r : WindowRef) (w : Window) (o : DiscoverObs) (hw : s.findWindow r = some w)
    (hs : DiscoverObs.inSpan w o = false) : exec (.discoverObservation r o) s = .next s := by
  change execDiscoverObservation r o s = _
  unfold execDiscoverObservation
  simp only [hw, hs, Bool.false_eq_true, if_false, ite_self]

/-! ### A clean RANGE burst by the entry's state -/

/-- The entry of a home that is not served, once its clean burst is heard. -/
def Entry.heardIdle (e : Entry) (q : Nat) : Entry := { e with reportQ := q, idle := 0 }

/-- A clean RANGE burst that acknowledges nothing, of a home that is not served. -/
theorem cleanBurst_unserved (s : State) (h : Nat) (map : CycleNo) (d : Int) (ack : Bool) (q : Nat) (ps : List UpPacket)
    (hu : (s.entry h).state.served = false) (hk : (s.entry h).acknowledges map ack = none) :
    s.cleanBurst h map .range d ack q ps =
      (((s.noteOffset h d).setEntry h ((s.entry h).heardIdle q)).rangeBurst h d).judge h (s.entry h).state .range none d := by
  rw [cleanBurst_unacked _ _ _ _ _ _ _ _ hk, if_pos rfl, heard_unserved _ _ hu]
  rfl

/-- The state of an ACTIVE entry leaves a RANGE burst to the judgement (R36). -/
theorem rangeBurst_active (s : State) (h : Nat) (d : Int) (ha : (s.entry h).state = .active) : s.rangeBurst h d = s := by
  simp only [State.rangeBurst, ha]

theorem rangeBurst_confirming (s : State) (h : Nat) (d : Int) (ha : (s.entry h).state = .confirming) :
    s.rangeBurst h d = s.confirmBurst h d := by
  simp only [State.rangeBurst, ha]

theorem rangeBurst_arriving (s : State) (h : Nat) (d : Int) (ha : (s.entry h).state = .arriving) :
    s.rangeBurst h d = s.arrivalBurst h d := by
  simp only [State.rangeBurst, ha]

theorem rangeBurst_lost (s : State) (h : Nat) (d : Int) (ha : (s.entry h).state = .lost) :
    s.rangeBurst h d = s.recontacted h := by
  simp only [State.rangeBurst, ha]

/-! ### The re-range (R94, R95) -/

/-- The clean burst in SEEKING measures the delay, posts it, and settles (R94). -/
theorem cleanBurst_seeking (s : State) (h : Nat) (map : CycleNo) (d : Int) (ack : Bool) (q : Nat) (ps : List UpPacket)
    (ha : (s.entry h).state = .active) (hk : (s.entry h).acknowledges map ack = none) (hp : (s.drift h).phase = .seeking)
    (hh : 1 ≤ h ∧ h ≤ 64) :
    s.cleanBurst h map .range d ack q ps =
      ((s.noteOffset h d).setEntry h (Entry.post { (s.entry h).heardActive q with misplaced := 0 }
        (.adjust (clampDelay s.img (((s.entry h).eqDelay.getD 0 : Nat) - d))))).setPhase h .settling := by
  have hentry := heardAt_entry s h d q hh
  have hact : ((s.heardAt h d q).entry h).state = .active := by rw [hentry]; exact ha
  rw [cleanBurst_unacked _ _ _ _ _ _ _ _ hk, if_pos rfl, heard_active _ _ ha]
  change ((s.heardAt h d q).rangeBurst h d).judge h _ _ _ d = _
  rw [rangeBurst_active _ _ _ hact,
    judge_seeking _ _ _ _ _ hact (by rw [ha]; decide) (by rw [heardAt_drift _ _ _ _ hh]; exact hp)]
  unfold State.measureDrift
  dsimp only
  rw [hentry]
  unfold State.heardAt
  rw [setEntry_setEntry]
  rfl

/-- In SETTLING a burst that does not acknowledge is heard and no more (R95). -/
theorem cleanBurst_settling (s : State) (h : Nat) (map : CycleNo) (d : Int) (ack : Bool) (q : Nat) (ps : List UpPacket)
    (ha : (s.entry h).state = .active) (hk : (s.entry h).acknowledges map ack = none) (hp : (s.drift h).phase = .settling)
    (hh : 1 ≤ h ∧ h ≤ 64) : s.cleanBurst h map .range d ack q ps = s.heardAt h d q := by
  have hact : ((s.heardAt h d q).entry h).state = .active := by rw [heardAt_entry _ _ _ _ hh]; exact ha
  rw [cleanBurst_unacked _ _ _ _ _ _ _ _ hk, if_pos rfl, heard_active _ _ ha]
  change ((s.heardAt h d q).rangeBurst h d).judge h _ _ _ d = _
  rw [rangeBurst_active _ _ _ hact,
    judge_settling _ _ _ _ _ _ hact (by rw [ha]; decide) (by rw [heardAt_drift _ _ _ _ hh]; exact hp)]
  exact if_neg (by decide)

/-- The entry of an ACTIVE home once its burst has acknowledged an ADJUST (R24, R32). -/
def Entry.adjusted (e : Entry) (img : Image) (q a : Nat) : Entry :=
  { e with reportQ := q, idle := 0, missed := 0, mailbox := none, eqDelay := some (clampDelay img a),
           roundTrip := some (160000 - clampDelay img a) }

theorem heard_adjusted (e : Entry) (img : Image) (q a : Nat) (ha : e.state = .active) :
    { e.heard q with mailbox := none }.storeDelay img a = e.adjusted img q a := by
  rw [heard_active e q ha]
  rfl

/-- The state as a burst that acknowledges an ADJUST is heard. -/
def State.adjustedAt (s : State) (h : Nat) (d : Int) (q a : Nat) : State :=
  (s.noteOffset h d).setEntry h ((s.entry h).adjusted s.img q a)

theorem adjustedAt_entry (s : State) (h : Nat) (d : Int) (q a : Nat) (hh : 1 ≤ h ∧ h ≤ 64) :
    (s.adjustedAt h d q a).entry h = (s.entry h).adjusted s.img q a := entry_setEntry_self _ _ _ hh

theorem adjustedAt_drift (s : State) (h : Nat) (d : Int) (q a : Nat) (hh : 1 ≤ h ∧ h ≤ 64) :
    (s.adjustedAt h d q a).drift h = { s.drift h with lastOffset := some d } := noteOffset_drift s h d hh

theorem adjustedAt_homeStep (s : State) (h : Nat) (d : Int) (q a : Nat) : HomeStep s (s.adjustedAt h d q a) h :=
  (noteOffset_homeStep s h d).trans (setEntry_homeStep ..)

/-- The acknowledged ADJUST of a DATA window outside a re-range, up to 4 steps off (R32, R91). -/
theorem cleanBurst_dataAdjusted (s : State) (h : Nat) (map : CycleNo) (d : Int) (ack : Bool) (q a : Nat)
    (ha : (s.entry h).state = .active) (hk : (s.entry h).acknowledges map ack = some (.adjust a))
    (hp : (s.drift h).phase = .off) (ht : s.ports.trafficOut = []) (hd : d.natAbs ≤ 4) (hh : 1 ≤ h ∧ h ≤ 64) :
    s.cleanBurst h map .data d ack q [] =
      (s.noteOffset h d).setEntry h { (s.entry h).adjusted s.img q a with misplaced := 0 } := by
  have hentry := adjustedAt_entry s h d q a hh
  rw [cleanBurst_acksAdjust _ _ _ _ _ _ _ _ _ hk, if_neg (by decide), heard_adjusted _ _ _ _ ha]
  change ((s.adjustedAt h d q a).takePackets h []).judge h _ _ _ d = _
  rw [takePackets_nil (s.adjustedAt h d q a) h ht,
    judge_byOffset _ _ _ _ _ _ (by rw [hentry]; exact ha) (by rw [ha]; decide)
      (by rw [adjustedAt_drift _ _ _ _ _ hh]; exact hp), judgeOffset_near _ _ _ hd, hentry]
  exact setEntry_setEntry ..

/-- The acknowledged ADJUST of a re-range ends it, up to 4 steps off (R95). -/
theorem cleanBurst_settled (s : State) (h : Nat) (map : CycleNo) (d : Int) (ack : Bool) (q a : Nat) (ps : List UpPacket)
    (ha : (s.entry h).state = .active) (hk : (s.entry h).acknowledges map ack = some (.adjust a))
    (hp : (s.drift h).phase = .settling) (hd : d.natAbs ≤ 4) (hh : 1 ≤ h ∧ h ≤ 64) :
    s.cleanBurst h map .range d ack q ps =
      ((s.adjustedAt h d q a).clearDriftHold h).setEntry h
        { ((s.adjustedAt h d q a).clearDriftHold h).entry h with misplaced := 0 } := by
  have hact : ((s.adjustedAt h d q a).entry h).state = .active := by rw [adjustedAt_entry _ _ _ _ _ hh]; exact ha
  rw [cleanBurst_acksAdjust _ _ _ _ _ _ _ _ _ hk, if_pos rfl, heard_adjusted _ _ _ _ ha]
  change ((s.adjustedAt h d q a).rangeBurst h d).judge h _ _ _ d = _
  rw [rangeBurst_active _ _ _ hact,
    judge_settling _ _ _ _ _ _ hact (by rw [ha]; decide) (by rw [adjustedAt_drift _ _ _ _ _ hh]; exact hp)]
  exact (if_pos rfl).trans (judgeOffset_near _ _ _ hd)

theorem clearDriftHold_entry (s : State) (h : Nat) (hh : 1 ≤ h ∧ h ≤ 64) :
    (s.clearDriftHold h).entry h = { s.entry h with
      holds := { (s.entry h).holds with drift := false }, idle := (s.entry h).reRangeIdle, reRangeIdle := 0 } :=
  entry_setEntry_self _ _ _ hh

theorem clearDriftHold_drift (s : State) (h : Nat) (hh : 1 ≤ h ∧ h ≤ 64) :
    (s.clearDriftHold h).drift h = { s.drift h with phase := .off } := drift_setDrift_self _ _ _ hh

/-- The end of a condition leaves no repeat timer of its source (R182). -/
theorem endCondition_repeats (s : State) (a : AlarmSource) : ∀ x ∈ (s.endCondition a).rq.repeats, x.source ≠ a :=
  fun _ hx => of_decide_eq_true (List.mem_filter.1 hx).2

/-! ### The re-contact of a LOST home (R40, R192) -/

/-- The entry of a LOST home once its re-contact burst is heard. -/
def Entry.recontacted (e : Entry) (q : Nat) : Entry :=
  { e with
    reportQ := q, idle := 0, state := .active, missed := 0, rangeAttempts := 0, recontact := 0, lostTimer := none,
    handover := none, holds := { e.holds with drift := false } }

/-- The state as a re-contact burst returns the home to ACTIVE, before any close. -/
def State.recontactedAt (s : State) (h : Nat) (d : Int) (q : Nat) : State :=
  ((s.noteOffset h d).setEntry h ((s.entry h).recontacted q)).endCondition { kind := .homeLost, handle := h }

theorem recontactedAt_entry (s : State) (h : Nat) (d : Int) (q : Nat) (hh : 1 ≤ h ∧ h ≤ 64) :
    (s.recontactedAt h d q).entry h = (s.entry h).recontacted q := entry_setEntry_self _ _ _ hh

theorem recontactedAt_drift (s : State) (h : Nat) (d : Int) (q : Nat) (hh : 1 ≤ h ∧ h ≤ 64) :
    (s.recontactedAt h d q).drift h = { s.drift h with lastOffset := some d } := noteOffset_drift s h d hh

theorem recontactedAt_homeStep (s : State) (h : Nat) (d : Int) (q : Nat) : HomeStep s (s.recontactedAt h d q) h :=
  ((noteOffset_homeStep s h d).trans (setEntry_homeStep ..)).trans ((endCondition_reportsOnly ..).homeStep h)

theorem toActive_lost (e : Entry) (q : Nat) (hl : e.state = .lost) : (e.heardIdle q).toActive = e.recontacted q := by
  unfold Entry.toActive Entry.recontacted Entry.heardIdle
  simp only [hl, if_true]

theorem toClosing_state (e : Entry) (release : Bool) : (e.toClosing release).state = .closing := by
  unfold Entry.toClosing
  dsimp only
  split
  · obtain ⟨_, _, hpost⟩ := post_else { e with state := .closing, lostTimer := none, handover := none } .release
    rw [hpost]
  · rfl

/-- A clean burst of a LOST home brings it back, and a DRAINING part closes it at once (R40, R192). -/
theorem cleanBurst_lost (s : State) (h : Nat) (map : CycleNo) (d : Int) (ack : Bool) (q : Nat) (ps : List UpPacket)
    (hl : (s.entry h).state = .lost) (hm : (s.entry h).mailbox = none) (hh : 1 ≤ h ∧ h ≤ 64) :
    s.cleanBurst h map .range d ack q ps = ((s.recontactedAt h d q).drainClose h).judge h .lost .range none d := by
  have hentry : ((s.noteOffset h d).setEntry h ((s.entry h).heardIdle q)).entry h = (s.entry h).heardIdle q :=
    entry_setEntry_self _ _ _ hh
  rw [cleanBurst_unserved _ _ _ _ _ _ _ (by rw [hl]; rfl) (acknowledges_empty _ _ _ hm),
    rangeBurst_lost _ _ _ (by rw [hentry]; exact hl), hl]
  unfold State.recontacted
  rw [hentry, toActive_lost _ _ hl, setEntry_setEntry]
  rfl

theorem cleanBurst_recontacts (s : State) (h : Nat) (map : CycleNo) (d : Int) (ack : Bool) (q : Nat) (ps : List UpPacket)
    (hl : (s.entry h).state = .lost) (hm : (s.entry h).mailbox = none) (hp : (s.drift h).phase = .off)
    (hd : d.natAbs ≤ 4) (hdr : s.draining = false) (hh : 1 ≤ h ∧ h ≤ 64) :
    s.cleanBurst h map .range d ack q ps =
      (s.recontactedAt h d q).setEntry h { (s.entry h).recontacted q with misplaced := 0 } := by
  have hentry := recontactedAt_entry s h d q hh
  rw [cleanBurst_lost s h map d ack q ps hl hm hh, drainClose_stands (s.recontactedAt h d q) h hdr,
    judge_byOffset _ _ _ _ _ _ (by rw [hentry]; rfl) (by decide) (by rw [recontactedAt_drift _ _ _ _ hh]; exact hp),
    judgeOffset_near _ _ _ hd, hentry]

theorem cleanBurst_recontactCloses (s : State) (h : Nat) (map : CycleNo) (d : Int) (ack : Bool) (q : Nat)
    (ps : List UpPacket) (hl : (s.entry h).state = .lost) (hm : (s.entry h).mailbox = none) (hdr : s.draining = true)
    (hh : 1 ≤ h ∧ h ≤ 64) :
    s.cleanBurst h map .range d ack q ps = (s.recontactedAt h d q).drainClose h ∧
      DrainClosed (s.noteOffset h d) ((s.recontactedAt h d q).drainClose h) h ((s.entry h).recontacted q) := by
  have hentry := recontactedAt_entry s h d q hh
  have hclosed := drainClose_closed (s.recontactedAt h d q) h hdr hh (.inl (by rw [hentry]; rfl))
  rw [hentry] at hclosed
  obtain ⟨⟨hothers, -⟩, -⟩ := (setEntry_homeStep (s.noteOffset h d) h ((s.entry h).recontacted q)).trans
    ((endCondition_reportsOnly _ { kind := .homeLost, handle := h }).homeStep h)
  refine ⟨?_, hclosed.of_step ?_ rfl rfl rfl rfl hothers⟩
  · rw [cleanBurst_lost s h map d ack q ps hl hm hh]
    refine judge_unjudged _ _ _ _ _ _ ?_
    rw [drainClose_closes (s.recontactedAt h d q) h hdr (.inl (by rw [hentry]; rfl)), enterClosing_entry, if_pos ⟨rfl, hh⟩,
      toClosing_state]
    rfl
  · rw [hentry]
    unfold Entry.bookedTerm
    rw [noteOffset_entry, hl]
    rfl

end Sys2Proof.Machine
end

section
/-! PROOFS. RANGE windows of a home that arrives or confirms, RANGE windows without a clean burst, and the statement on all of them (R60, R94 to R96, R132, R133). -/

namespace Sys2Proof.Machine

theorem post_state (e : Entry) (k : MsgKind) : (e.post k).state = e.state := by
  obtain ⟨_, _, h⟩ := post_else e k
  rw [h]

theorem post_serial (e : Entry) (k : MsgKind) : (e.post k).serial = e.serial := by
  obtain ⟨_, _, h⟩ := post_else e k
  rw [h]

theorem post_handover (e : Entry) (k : MsgKind) : (e.post k).handover = e.handover := by
  obtain ⟨_, _, h⟩ := post_else e k
  rw [h]

/-- The state as a clean burst of a home that is not served is heard. -/
def State.heardIdleAt (s : State) (h : Nat) (d : Int) (q : Nat) : State :=
  (s.noteOffset h d).setEntry h ((s.entry h).heardIdle q)

theorem heardIdleAt_entry (s : State) (h : Nat) (d : Int) (q : Nat) (hh : 1 ≤ h ∧ h ≤ 64) :
    (s.heardIdleAt h d q).entry h = (s.entry h).heardIdle q := entry_setEntry_self _ _ _ hh

/-! ### The arrival of a home (R132, R133) -/

/-- While an ADJUST is pending the arrival is not judged (R132). -/
theorem arrivalBurst_pending (s : State) (h : Nat) (d : Int) (m : Message) (hm : (s.entry h).mailbox = some m)
    (ha : m.isAdjust = true) : s.arrivalBurst h d = s :=
  if_pos (by rw [hm]; exact ha)

/-- From 25 steps the delay is corrected by an ADJUST alone (R132). -/
theorem arrivalBurst_far (s : State) (h : Nat) (d : Int) (hm : (s.entry h).mailbox = none) (hd : 25 ≤ d.natAbs) :
    s.arrivalBurst h d =
      s.setEntry h ((s.entry h).post (.adjust (clampDelay s.img (((s.entry h).eqDelay.getD 0 : Nat) - d)))) :=
  (if_neg (by rw [hm]; decide)).trans (if_neg (by omega))

/-- An entry of an arriving home that has been judged up to 24 steps off: E stored, the burst in hand. -/
def Entry.stored (e : Entry) (target : Nat) (c : Handover) : Entry :=
  { e with
    eqDelay := some target, roundTrip := some (160000 - target), handover := some { c with burstInHand := true } }

/-- The same with the ADJUST posted where E has changed (R132). -/
def Entry.arrived (e : Entry) (target : Nat) (c : Handover) : Entry :=
  if e.eqDelay = some target then e.stored target c else (e.stored target c).post (.adjust target)

theorem arrived_state (e : Entry) (target : Nat) (c : Handover) : (e.arrived target c).state = e.state := by
  unfold Entry.arrived
  split
  · rfl
  · exact post_state ..

theorem arrived_serial (e : Entry) (target : Nat) (c : Handover) : (e.arrived target c).serial = e.serial := by
  unfold Entry.arrived
  split
  · rfl
  · exact post_serial ..

theorem arrived_handover (e : Entry) (target : Nat) (c : Handover) :
    (e.arrived target c).handover = some { c with burstInHand := true } := by
  unfold Entry.arrived
  split
  · rfl
  · exact post_handover ..

theorem stored_arrived (e : Entry) (img : Image) (x : Int) (c : Handover) (hm : e.mailbox = none)
    (hc : e.handover = some c) :
    (let stored := e.storeDelay img x
     let posted := if stored.eqDelay = e.eqDelay then stored else stored.post (.adjust (clampDelay img x))
     { posted with handover := posted.handover.map fun c => { c with burstInHand := true } }) =
      e.arrived (clampDelay img x) c := by
  have heq : (e.storeDelay img x).eqDelay = some (clampDelay img x) := rfl
  unfold Entry.arrived
  by_cases he : e.eqDelay = some (clampDelay img x)
  · simp only [heq, he, if_true]
    simp only [Entry.storeDelay, Entry.stored, hc, Option.map_some, Config.targetDelay]
  · simp only [heq, Ne.symm he, he, if_false]
    rw [post_empty (e.storeDelay img x) _ hm, post_empty (e.stored _ c) _ hm]
    simp only [Entry.storeDelay, Entry.stored, hc, Option.map_some, Config.targetDelay]

/-- Up to 24 steps the burst is in hand, and the entry takes the home where the account is too (R132, R133). -/
theorem arrivalBurst_near (s : State) (h : Nat) (d : Int) (c : Handover) (hm : (s.entry h).mailbox = none)
    (hc : (s.entry h).handover = some c) (hd : d.natAbs ≤ 24) :
    s.arrivalBurst h d =
      (s.setEntry h ((s.entry h).arrived (clampDelay s.img (((s.entry h).eqDelay.getD 0 : Nat) - d)) c)).tryTaking h := by
  refine (if_neg (by rw [hm]; decide)).trans ((if_pos hd).trans ?_)
  exact congrArg (fun e => (s.setEntry h e).tryTaking h) (stored_arrived (s.entry h) s.img _ c hm hc)

/-- Without the account in hand the entry waits (R133). -/
theorem tryTaking_waits (s : State) (h : Nat) (c : Handover) (hc : (s.entry h).handover = some c)
    (ha : c.accountInHand = false) : s.tryTaking h = s := by
  simp only [State.tryTaking, hc]
  cases (s.entry h).serial with
  | none => rfl
  | some serial => exact if_neg fun x => absurd (ha.symm.trans x.2) (by decide)

/-- With both in hand the entry is TAKING and TAKEN is queued (R133). -/
theorem tryTaking_takes (s : State) (h : Nat) (c : Handover) (serial : Serial) (hc : (s.entry h).handover = some c)
    (hs : (s.entry h).serial = some serial) (hb : c.burstInHand = true) (ha : c.accountInHand = true) :
    s.tryTaking h =
      (s.setEntry h { s.entry h with state := .taking, handover := some { c with timer := none } }).queueNotice
        (.taken serial s.channel) := by
  simp only [State.tryTaking, hc, hs, ha, hb, and_self, if_true]

/-- A burst of an arriving home: heard, judged as an arrival, and its timing not judged again (R90, R132). -/
theorem cleanBurst_arriving (s : State) (h : Nat) (map : CycleNo) (d : Int) (ack : Bool) (q : Nat) (ps : List UpPacket)
    (ha : (s.entry h).state = .arriving) (hk : (s.entry h).acknowledges map ack = none) (hh : 1 ≤ h ∧ h ≤ 64) :
    s.cleanBurst h map .range d ack q ps =
      ((s.heardIdleAt h d q).arrivalBurst h d).judge h .arriving .range none d := by
  rw [cleanBurst_unserved _ _ _ _ _ _ _ (by rw [ha]; rfl) hk]
  change ((s.heardIdleAt h d q).rangeBurst h d).judge h _ _ _ _ = _
  rw [rangeBurst_arriving _ _ _ (by rw [heardIdleAt_entry _ _ _ _ hh]; exact ha), ha]

theorem cleanBurst_arrivalPending (s : State) (h : Nat) (map : CycleNo) (d : Int) (ack : Bool) (q : Nat)
    (ps : List UpPacket) (m : Message) (ha : (s.entry h).state = .arriving) (hm : (s.entry h).mailbox = some m)
    (hadj : m.isAdjust = true) (hc : m.carried = 0) (hh : 1 ≤ h ∧ h ≤ 64) :
    s.cleanBurst h map .range d ack q ps = s.heardIdleAt h d q := by
  have hentry := heardIdleAt_entry s h d q hh
  rw [cleanBurst_arriving s h map d ack q ps ha (acknowledges_uncarried _ _ _ m hm hc) hh,
    arrivalBurst_pending _ _ _ m (by rw [hentry]; exact hm) hadj]
  exact judge_unjudged _ _ _ _ _ _ (by rw [hentry]; exact congrArg HomeState.served ha)

theorem cleanBurst_arrivalFar (s : State) (h : Nat) (map : CycleNo) (d : Int) (ack : Bool) (q : Nat) (ps : List UpPacket)
    (ha : (s.entry h).state = .arriving) (hm : (s.entry h).mailbox = none) (hd : 25 ≤ d.natAbs) (hh : 1 ≤ h ∧ h ≤ 64) :
    s.cleanBurst h map .range d ack q ps = (s.noteOffset h d).setEntry h (((s.entry h).heardIdle q).post
      (.adjust (clampDelay s.img (((s.entry h).eqDelay.getD 0 : Nat) - d)))) := by
  have hentry := heardIdleAt_entry s h d q hh
  rw [cleanBurst_arriving s h map d ack q ps ha (acknowledges_empty _ _ _ hm) hh,
    arrivalBurst_far _ _ _ (by rw [hentry]; exact hm) hd, hentry,
    judge_unjudged _ _ _ _ _ _ (by
      rw [entry_setEntry_self _ _ _ hh, post_state]; exact congrArg HomeState.served ha)]
  exact setEntry_setEntry ..

/-- The burst of an arriving home is in hand, and the account is not (R133). -/
theorem cleanBurst_arrives (s : State) (h : Nat) (map : CycleNo) (d : Int) (ack : Bool) (q : Nat) (ps : List UpPacket)
    (c : Handover) (ha : (s.entry h).state = .arriving) (hm : (s.entry h).mailbox = none)
    (hc : (s.entry h).handover = some c) (hd : d.natAbs ≤ 24) (hacct : c.accountInHand = false) (hh : 1 ≤ h ∧ h ≤ 64) :
    s.cleanBurst h map .range d ack q ps = (s.noteOffset h d).setEntry h (((s.entry h).heardIdle q).arrived
      (clampDelay s.img (((s.entry h).eqDelay.getD 0 : Nat) - d)) c) := by
  have hentry := heardIdleAt_entry s h d q hh
  rw [cleanBurst_arriving s h map d ack q ps ha (acknowledges_empty _ _ _ hm) hh,
    arrivalBurst_near _ _ _ c (by rw [hentry]; exact hm) (by rw [hentry]; exact hc) hd, hentry,
    tryTaking_waits _ _ { c with burstInHand := true } (by rw [entry_setEntry_self _ _ _ hh, arrived_handover]) hacct,
    judge_unjudged _ _ _ _ _ _ (by
      rw [entry_setEntry_self _ _ _ hh, arrived_state]; exact congrArg HomeState.served ha)]
  exact setEntry_setEntry ..

/-- Burst and account of an arriving home are both in hand (R133). -/
theorem cleanBurst_takes (s : State) (h : Nat) (map : CycleNo) (d : Int) (ack : Bool) (q : Nat) (ps : List UpPacket)
    (c : Handover) (serial : Serial) (ha : (s.entry h).state = .arriving) (hm : (s.entry h).mailbox = none)
    (hc : (s.entry h).handover = some c) (hs : (s.entry h).serial = some serial) (hd : d.natAbs ≤ 24)
    (hacct : c.accountInHand = true) (hh : 1 ≤ h ∧ h ≤ 64) :
    s.cleanBurst h map .range d ack q ps =
      ((s.noteOffset h d).setEntry h { ((s.entry h).heardIdle q).arrived
          (clampDelay s.img (((s.entry h).eqDelay.getD 0 : Nat) - d)) c with
        state := .taking, handover := some { c with burstInHand := true, timer := none } }).queueNotice
        (.taken serial s.channel) := by
  have hentry := heardIdleAt_entry s h d q hh
  rw [cleanBurst_arriving s h map d ack q ps ha (acknowledges_empty _ _ _ hm) hh,
    arrivalBurst_near _ _ _ c (by rw [hentry]; exact hm) (by rw [hentry]; exact hc) hd, hentry,
    tryTaking_takes _ _ { c with burstInHand := true } serial (by rw [entry_setEntry_self _ _ _ hh, arrived_handover])
      (by rw [entry_setEntry_self _ _ _ hh, arrived_serial]; exact hs) rfl hacct,
    entry_setEntry_self _ _ _ hh, setEntry_setEntry]
  refine (judge_unjudged _ _ _ _ _ _ ?_).trans ?_
  · exact congrArg (fun e => e.state.served) (entry_setEntry_self _ _ _ hh)
  · exact congrArg (fun x : State => x.queueNotice _) (setEntry_setEntry ..)

/-! ### A confirmation without success (R60) -/

/-- A window without success short of the third counts an attempt (R60). -/
theorem confirmAttempt_counts (s : State) (h : Nat) (hr : (s.entry h).rangeAttempts < 2) :
    s.confirmAttempt h = s.setEntry h { s.entry h with rangeAttempts := (s.entry h).rangeAttempts + 1 } :=
  if_pos (by unfold Config.confirmAttempts; omega)

/-- The third frees the entry (R60). -/
theorem confirmAttempt_frees (s : State) (h : Nat) (hr : 2 ≤ (s.entry h).rangeAttempts) :
    s.confirmAttempt h = s.freeEntry h :=
  if_neg (by unfold Config.confirmAttempts; omega)

/-- Freeing forgets what was last written in the entry, its term apart. -/
theorem freeEntry_setEntry (s : State) (h : Nat) (e : Entry) (hb : e.bookedTerm = (s.entry h).bookedTerm)
    (hh : 1 ≤ h ∧ h ≤ 64) : (s.setEntry h e).freeEntry h = s.freeEntry h := by
  have hunbook : (s.setEntry h e).unbook h = (s.unbook h).setEntry h e := by
    unfold State.unbook
    rw [entry_setEntry_self _ _ _ hh, hb]
    rfl
  unfold State.freeEntry
  rw [hunbook, setEntry_setEntry]

/-- A clean burst of a confirming home beyond 24 steps is no success (R60). -/
theorem cleanBurst_unconfirmed (s : State) (h : Nat) (map : CycleNo) (d : Int) (ack : Bool) (q : Nat) (ps : List UpPacket)
    (ha : (s.entry h).state = .confirming) (hm : (s.entry h).mailbox = none) (hd : 25 ≤ d.natAbs) (hh : 1 ≤ h ∧ h ≤ 64) :
    s.cleanBurst h map .range d ack q ps =
      ((s.heardIdleAt h d q).confirmAttempt h).judge h .confirming .range none d := by
  rw [cleanBurst_unserved _ _ _ _ _ _ _ (by rw [ha]; rfl) (acknowledges_empty _ _ _ hm)]
  change ((s.heardIdleAt h d q).rangeBurst h d).judge h _ _ _ _ = _
  rw [rangeBurst_confirming _ _ _ (by rw [heardIdleAt_entry _ _ _ _ hh]; exact ha), ha]
  exact congrArg (fun x : State => x.judge h _ _ _ d) (if_neg fun x => absurd x.1 (by omega))

theorem cleanBurst_attempts (s : State) (h : Nat) (map : CycleNo) (d : Int) (ack : Bool) (q : Nat) (ps : List UpPacket)
    (ha : (s.entry h).state = .confirming) (hm : (s.entry h).mailbox = none) (hd : 25 ≤ d.natAbs)
    (hr : (s.entry h).rangeAttempts < 2) (hh : 1 ≤ h ∧ h ≤ 64) :
    s.cleanBurst h map .range d ack q ps = (s.noteOffset h d).setEntry h
      { (s.entry h).heardIdle q with rangeAttempts := (s.entry h).rangeAttempts + 1 } := by
  have hentry := heardIdleAt_entry s h d q hh
  rw [cleanBurst_unconfirmed s h map d ack q ps ha hm hd hh, confirmAttempt_counts _ _ (by rw [hentry]; exact hr), hentry,
    judge_unjudged _ _ _ _ _ _ (by rw [entry_setEntry_self _ _ _ hh]; exact congrArg HomeState.served ha)]
  exact setEntry_setEntry ..

theorem cleanBurst_unconfirms (s : State) (h : Nat) (map : CycleNo) (d : Int) (ack : Bool) (q : Nat) (ps : List UpPacket)
    (ha : (s.entry h).state = .confirming) (hm : (s.entry h).mailbox = none) (hd : 25 ≤ d.natAbs)
    (hr : 2 ≤ (s.entry h).rangeAttempts) (hh : 1 ≤ h ∧ h ≤ 64) :
    s.cleanBurst h map .range d ack q ps = (s.noteOffset h d).freeEntry h := by
  rw [cleanBurst_unconfirmed s h map d ack q ps ha hm hd hh,
    confirmAttempt_frees _ _ (by rw [heardIdleAt_entry _ _ _ _ hh]; exact hr),
    judge_unjudged _ _ _ _ _ _ (by rw [freeEntry_entry, if_pos rfl]; rfl)]
  exact freeEntry_setEntry _ _ _ rfl hh

/-! ### RANGE windows without a clean burst (R60, R94 to R96) -/

/-- A RANGE window of a home that neither confirms nor is in a re-range counts nothing. -/
theorem rangeMissed_nothing (s : State) (h : Nat) (hc : (s.entry h).state ≠ .confirming)
    (hr : (s.entry h).state ≠ .active ∨ (s.drift h).phase = .off) : s.rangeMissed h = s :=
  (if_neg hc).trans (if_neg fun x => hr.elim (fun y => y x.1) x.2)

theorem rangeMissed_confirming (s : State) (h : Nat) (hc : (s.entry h).state = .confirming) :
    s.rangeMissed h = s.confirmAttempt h := if_pos hc

/-- Seven attempts of a re-range at most are counted (R94, R95). -/
theorem rangeMissed_counts (s : State) (h : Nat) (ha : (s.entry h).state = .active) (hp : (s.drift h).phase ≠ .off)
    (hr : (s.entry h).rangeAttempts < 7) :
    s.rangeMissed h = s.setEntry h { s.entry h with rangeAttempts := (s.entry h).rangeAttempts + 1 } := by
  refine (if_neg (by rw [ha]; decide)).trans ((if_pos ⟨ha, hp⟩).trans ((if_pos ?_).trans ?_))
  · unfold Config.rerangeAttempts; omega
  · rw [Nat.min_eq_right (by unfold Config.rerangeAttempts; omega)]

/-- The entry at the eighth attempt of its re-range. -/
def Entry.spent (e : Entry) : Entry := { e with rangeAttempts := min 8 (e.rangeAttempts + 1) }

/-- The eighth loses the home (R96). -/
theorem rangeMissed_loses (s : State) (h : Nat) (ha : (s.entry h).state = .active) (hp : (s.drift h).phase ≠ .off)
    (hr : 7 ≤ (s.entry h).rangeAttempts) : s.rangeMissed h = (s.setEntry h (s.entry h).spent).loseHome h := by
  refine (if_neg (by rw [ha]; decide)).trans ((if_pos ⟨ha, hp⟩).trans (if_neg ?_))
  unfold Config.rerangeAttempts; omega

end Sys2Proof.Machine
end

section
/-! PROOFS. What the RANGE windows leave of the home, once the frames are offered; the statement on RANGE windows. -/

namespace Sys2Proof.Machine

section Left
variable {s t : State} {r : WindowRef} {d : Int} {ack : Bool} {q : Nat}

/-- What the measurement of a re-range leaves (R94). -/
theorem seeking_left (o : Offered ((s.opened r).cleanBurst r.handle r.map .range d ack q []) t)
    (ha : (s.entry r.handle).state = .active) (hp : (s.drift r.handle).phase = .seeking)
    (hm : (s.entry r.handle).mailbox = none) (hh : 1 ≤ r.handle ∧ r.handle ≤ 64) :
    t.entry r.handle = Entry.post { (s.entry r.handle).heardActive q with misplaced := 0 }
        (.adjust (clampDelay s.img (((s.entry r.handle).eqDelay.getD 0 : Nat) - d))) ∧
      t.drift r.handle = { s.drift r.handle with lastOffset := some d, phase := .settling } ∧
      t.acct r.handle = s.acct r.handle ∧ t.ua = s.ua ∧ HomeFrame (s.clearOutstanding r) t r.handle ∧ NoEvent s t := by
  rw [cleanBurst_seeking (s.opened r) _ _ _ _ _ _ ha (acknowledges_empty _ _ _ hm) hp hh] at o
  refine ⟨(o.entry _).trans (entry_setEntry_self _ _ _ hh), (o.drift _).trans ?_, o.acct _, o.ua,
    ((((noteOffset_homeStep ..).trans (setEntry_homeStep ..)).trans (setPhase_homeStep ..)).trans (o.homeStep _)).framed⟩
  refine (drift_setDrift_self _ _ _ hh).trans ?_
  rw [setEntry_drift, noteOffset_drift _ _ _ hh]
  rfl

/-- What the end of a re-range leaves (R95). -/
theorem settled_left (o : Offered ((s.opened r).cleanBurst r.handle r.map .range d ack q []) t) (a : Nat)
    (ha : (s.entry r.handle).state = .active) (hp : (s.drift r.handle).phase = .settling)
    (hk : (s.entry r.handle).acknowledges r.map ack = some (.adjust a)) (hd : d.natAbs ≤ 4)
    (hh : 1 ≤ r.handle ∧ r.handle ≤ 64) :
    t.entry r.handle = { (s.entry r.handle).adjusted s.img q a with
        misplaced := 0, holds := { (s.entry r.handle).holds with drift := false },
        idle := (s.entry r.handle).reRangeIdle, reRangeIdle := 0 } ∧
      t.drift r.handle = { s.drift r.handle with lastOffset := some d, phase := .off } ∧
      (∀ x ∈ t.rq.repeats, x.source ≠ { kind := .homeDrift, handle := r.handle }) ∧
      t.acct r.handle = s.acct r.handle ∧ t.ua = s.ua ∧ HomeFrame (s.clearOutstanding r) t r.handle ∧ NoEvent s t := by
  rw [cleanBurst_settled (s.opened r) _ _ _ _ _ _ _ ha hk hp hd hh] at o
  refine ⟨(o.entry _).trans ((entry_setEntry_self _ _ _ hh).trans ?_), (o.drift _).trans ?_, ?_, o.acct _, o.ua,
    ((((adjustedAt_homeStep ..).trans (clearDriftHold_homeStep ..)).trans (setEntry_homeStep ..)).trans
      (o.homeStep _)).framed⟩
  · rw [clearDriftHold_entry _ _ hh, adjustedAt_entry _ _ _ _ _ hh]
    rfl
  · rw [setEntry_drift, clearDriftHold_drift _ _ hh, adjustedAt_drift _ _ _ _ _ hh]
    rfl
  · rw [o.repeats]
    exact endCondition_repeats _ _

/-- What a re-contact leaves outside DRAINING (R40). -/
theorem recontact_left (o : Offered ((s.opened r).cleanBurst r.handle r.map .range d ack q []) t)
    (hl : (s.entry r.handle).state = .lost) (hm : (s.entry r.handle).mailbox = none)
    (hp : (s.drift r.handle).phase = .off) (hd : d.natAbs ≤ 4) (hdr : s.draining = false)
    (hh : 1 ≤ r.handle ∧ r.handle ≤ 64) :
    t.entry r.handle = { (s.entry r.handle).recontacted q with misplaced := 0 } ∧
      t.drift r.handle = { s.drift r.handle with lastOffset := some d } ∧
      (∀ x ∈ t.rq.repeats, x.source ≠ { kind := .homeLost, handle := r.handle }) ∧
      t.acct r.handle = s.acct r.handle ∧ t.ua = s.ua ∧ HomeFrame (s.clearOutstanding r) t r.handle ∧ NoEvent s t := by
  rw [cleanBurst_recontacts (s.opened r) _ _ _ _ _ _ hl hm hp hd hdr hh] at o
  refine ⟨(o.entry _).trans (entry_setEntry_self _ _ _ hh),
    (o.drift _).trans (recontactedAt_drift (s.opened r) _ d q hh), ?_, o.acct _, o.ua,
    (((recontactedAt_homeStep ..).trans (setEntry_homeStep ..)).trans (o.homeStep _)).framed⟩
  rw [o.repeats]
  exact endCondition_repeats _ _

/-- What a re-contact leaves while DRAINING (R40, R192). -/
theorem recontact_closed (o : Offered ((s.opened r).cleanBurst r.handle r.map .range d ack q []) t)
    (hl : (s.entry r.handle).state = .lost) (hm : (s.entry r.handle).mailbox = none) (hdr : s.draining = true)
    (hh : 1 ≤ r.handle ∧ r.handle ≤ 64) :
    DrainClosed ((s.opened r).noteOffset r.handle d) t r.handle ((s.entry r.handle).recontacted q) ∧
      HomeFrame (s.clearOutstanding r) t r.handle ∧ NoEvent s t := by
  obtain ⟨hburst, hclosed⟩ := cleanBurst_recontactCloses (s.opened r) r.handle r.map d ack q [] hl hm hdr hh
  rw [hburst] at o
  exact ⟨hclosed.offered o,
    (((recontactedAt_homeStep ..).trans (drainClose_homeStep ..)).trans (o.homeStep _)).framed⟩

/-- What the eighth attempt of a re-range leaves outside DRAINING (R96). -/
theorem rangeLoss_left (o : Offered ((s.opened r).rangeMissed r.handle) t) (ha : (s.entry r.handle).state = .active)
    (hp : (s.drift r.handle).phase ≠ .off) (hr : 7 ≤ (s.entry r.handle).rangeAttempts) (hdr : s.draining = false)
    (hh : 1 ≤ r.handle ∧ r.handle ≤ 64) :
    t.entry r.handle = (s.entry r.handle).gone s.img.lostTime ∧
      t.drift r.handle = { s.drift r.handle with phase := .off } ∧ t.acct r.handle = s.acct r.handle ∧ t.ua = s.ua := by
  rw [rangeMissed_loses (s.opened r) _ ha hp hr] at o
  obtain ⟨he, hd, hac, hua⟩ := loseHome_stands (s.opened r) r.handle (s.entry r.handle).spent hh hdr
  exact ⟨(o.entry _).trans he, (o.drift _).trans hd, (o.acct _).trans hac, o.ua.trans hua⟩

/-- What it leaves while DRAINING (R96, R192). -/
theorem rangeLoss_closed (o : Offered ((s.opened r).rangeMissed r.handle) t) (ha : (s.entry r.handle).state = .active)
    (hp : (s.drift r.handle).phase ≠ .off) (hr : 7 ≤ (s.entry r.handle).rangeAttempts) (hdr : s.draining = true)
    (hh : 1 ≤ r.handle ∧ r.handle ≤ 64) : DrainClosed s t r.handle ((s.entry r.handle).gone s.img.lostTime) := by
  rw [rangeMissed_loses (s.opened r) _ ha hp hr] at o
  have hb : (s.entry r.handle).spent.state.booked = true := congrArg HomeState.booked ha
  have hclosed := loseHome_closes (s.opened r) r.handle (s.entry r.handle).spent hh hdr hb rfl
  exact (hclosed.offered o).of_step rfl rfl rfl rfl rfl fun k _ => ⟨rfl, rfl, rfl⟩

/-- The alarm and the frame of either (R38, R96). -/
theorem rangeLoss_alarmed (o : Offered ((s.opened r).rangeMissed r.handle) t) (ha : (s.entry r.handle).state = .active)
    (hp : (s.drift r.handle).phase ≠ .off) (hr : 7 ≤ (s.entry r.handle).rangeAttempts)
    (hh : 1 ≤ r.handle ∧ r.handle ≤ 64) :
    Alarmed s t { kind := .homeLost, handle := r.handle } (.homeLost (s.entry r.handle).serial) ∧
      HomeFrame (s.clearOutstanding r) t r.handle ∧ NoEvent s t := by
  rw [rangeMissed_loses (s.opened r) _ ha hp hr] at o
  have halarm := (loseHome_alarmed ((s.opened r).setEntry r.handle (s.entry r.handle).spent) r.handle).offered o
  rw [entry_setEntry_self _ _ _ hh] at halarm
  exact ⟨halarm.of_same rfl rfl rfl, ((loseHome_step (s.opened r) r.handle _).trans (o.homeStep _)).framed⟩

end Left

/-- Settles O22: spans, stale windows, then each state a DATA or RANGE window can find its home in. -/
theorem rangeWindowJudged : Obligations.RangeWindowJudged := by
  unfold Obligations.RangeWindowJudged
  refine ⟨fun w d => ⟨spans_iff w d, fun hlen => ?_⟩, fun s r w hfind => ⟨?_, ?_⟩, ?_⟩
  · rw [spans_iff, hlen]
    omega
  · exact fun d header ack q ps hspan => exec_outOfSpan s r w _ hfind hspan
  · rintro rs ⟨p, hp, hspan⟩
    refine exec_replyOutOfSpan s r w _ hfind (List.all_eq_false.2 ⟨p, hp, ?_⟩)
    rw [hspan]
    decide
  intro s r w hreset hobs hfind
  refine ⟨fun o hkind hspan hstale => ?_, fun hfree hserial => ?_⟩
  · obtain ⟨t, hexec, hoff⟩ := exec_observe s r w o hreset hobs hkind hfind hspan
    rw [observeBurst_stale (s.opened r) r w o hstale] at hoff
    exact ⟨t, hexec, hoff⟩
  have hh := handle_of_state s r.handle hfree
  refine ⟨?_, ?_, ?_⟩
  · intro m a f d ack q hkind hact hphase hmail hm hcarried hfirst hlater hd hspan
    obtain ⟨t, hexec, hoff⟩ := exec_observe s r w (.clean d r.handle ack q []) hreset hobs (.inl hkind) hfind hspan
    rw [observeBurst_clean (s.opened r) r w d ack q [] hfree hserial, hkind] at hoff
    have hack := acknowledges_adjust _ r.map f ack m a hmail hm hcarried hfirst hlater
    refine ⟨t, hexec, fun hbit => ?_, fun hbit => ?_⟩
    · rw [if_pos hbit] at hack
      rwa [cleanBurst_dataAdjusted (s.opened r) r.handle r.map d ack q a hact hack hphase rfl hd hh] at hoff
    · rw [if_neg hbit] at hack
      rwa [cleanBurst_silent (s.opened r) r.handle r.map d ack q hact hack hphase rfl hh, judgeOffset_near _ _ _ hd,
        heardAt_entry _ _ _ _ hh, State.heardAt, setEntry_setEntry] at hoff
  · intro d ack q hkind hspan
    obtain ⟨t, hexec, hoff⟩ := exec_observe s r w (.clean d r.handle ack q []) hreset hobs (.inr hkind) hfind hspan
    rw [observeBurst_clean (s.opened r) r w d ack q [] hfree hserial, hkind] at hoff
    refine ⟨t, hexec, fun hact hphase hmail => seeking_left hoff hact hphase hmail hh, ?_,
      fun hlost hmail hphase hd hdrain => recontact_left hoff hlost hmail hphase hd hdrain hh,
      fun hlost hmail hdrain => recontact_closed hoff hlost hmail hdrain hh, ?_, ?_, ?_⟩
    · intro m a hact hphase hmail hm hcarried hfirst
      have hack := acknowledges_adjust _ r.map r.map ack m a hmail hm hcarried hfirst (by simp)
      refine ⟨fun hbit => ?_, fun hbit hd => ?_⟩
      · rw [if_neg hbit] at hack
        rwa [cleanBurst_settling (s.opened r) r.handle r.map d ack q [] hact hack hphase hh] at hoff
      · rw [if_pos hbit] at hack
        exact settled_left hoff a hact hphase hack hd hh
    · intro m harr hmail hadj hcarried
      rwa [cleanBurst_arrivalPending (s.opened r) r.handle r.map d ack q [] m harr hmail hadj hcarried hh] at hoff
    · intro ctx serial harr hmail hctx hser
      refine ⟨fun hd => ?_, fun hd => ⟨fun hacct => ?_, fun hacct => ?_⟩⟩
      · rwa [cleanBurst_arrivalFar (s.opened r) r.handle r.map d ack q [] harr hmail hd hh] at hoff
      · rwa [cleanBurst_arrives (s.opened r) r.handle r.map d ack q [] ctx harr hmail hctx hd hacct hh] at hoff
      · rwa [cleanBurst_takes (s.opened r) r.handle r.map d ack q [] ctx serial harr hmail hctx hser hd hacct hh] at hoff
    · intro hconf hd hmail
      refine ⟨fun hr => ?_, fun hr => ?_⟩
      · rwa [cleanBurst_attempts (s.opened r) r.handle r.map d ack q [] hconf hmail hd hr hh] at hoff
      · rwa [cleanBurst_unconfirms (s.opened r) r.handle r.map d ack q [] hconf hmail hd hr hh] at hoff
  · intro o hkind hmissed
    obtain ⟨t, hexec, hoff⟩ := exec_observe s r w o hreset hobs (.inr hkind) hfind (MissedBy.inSpan hmissed)
    rw [observeBurst_missed (s.opened r) r w o hmissed hfree hserial, if_pos hkind] at hoff
    refine ⟨t, hexec, fun hact hphase => ?_, fun hst => ?_, fun hact hphase hr => ?_, fun hact hphase hr hdrain => ?_,
      fun hact hphase hr hdrain => ⟨rangeLoss_closed hoff hact hphase hr hdrain hh,
        rangeLoss_alarmed hoff hact hphase hr hh⟩, fun hconf hr => ?_, fun hconf hr => ?_⟩
    · rwa [rangeMissed_nothing (s.opened r) _ (fun x => absurd (hact.symm.trans x) (by decide)) (.inr hphase)] at hoff
    · obtain hst | hst := hst <;>
        rwa [rangeMissed_nothing (s.opened r) _ (fun x => absurd (hst.symm.trans x) (by decide))
          (.inl fun x => absurd (hst.symm.trans x) (by decide))] at hoff
    · rwa [rangeMissed_counts (s.opened r) _ hact hphase hr] at hoff
    · obtain ⟨he, hd, hac, hua⟩ := rangeLoss_left hoff hact hphase hr hdrain hh
      exact ⟨he, hd, hac, hua, rangeLoss_alarmed hoff hact hphase hr hh⟩
    · rwa [rangeMissed_confirming (s.opened r) _ hconf, confirmAttempt_counts (s.opened r) _ hr] at hoff
    · rwa [rangeMissed_confirming (s.opened r) _ hconf, confirmAttempt_frees (s.opened r) _ hr] at hoff

end Sys2Proof.Machine
end

section
/-! PROOFS. The start of a cycle (R1, R5, R6, R8 to R11, R33, R35, R39, R115). -/

namespace Sys2Proof.Machine

/-! ### Rewriting every entry of the roster -/

/-- A change of every entry that leaves a FREE one as it is reads the same at every handle, on the roster or not. -/
theorem entry_tableMap (s : State) (f : Nat → Entry → Entry) (hf : ∀ h, f h Entry.free = Entry.free) (h : Nat) :
    ({ s with roster := tableMap f s.roster } : State).entry h = f h (s.entry h) := by
  refine (tableGet_tableMap f s.roster Entry.free h).trans ?_
  split
  · rfl
  next ho => rw [entry_outside s h ho, hf]

theorem tick_entry (s : State) (h : Nat) : s.tick.entry h = (s.entry h).tick :=
  entry_tableMap s (fun _ e => e.tick) (fun _ => rfl) h

theorem advanceRecontacts_entry (s : State) (h : Nat) : s.advanceRecontacts.entry h = (s.entry h).advanceRecontact :=
  entry_tableMap s (fun _ e => e.advanceRecontact) (fun _ => rfl) h

/-! ### The map that reaches its cycle (R11, R115) -/

/-- The READY that waits for the map now reached is queued (R115). -/
theorem reachMap_ready (s : State) (w : Awaiting) (id : HuntId) (hw : s.hu.awaiting = some w)
    (hid : s.hu.huntId = some id) (hm : w.map = s.cb.cycle - 2) (hr : s.inRing (s.cb.cycle - 2) = true) :
    s.reachMap = State.queueNotice
      { s with cb := { s.cb with reached := some (s.cb.cycle - 2) }, hu := { s.hu with awaiting := none } }
      (.huntReady id s.channel w.step w.named) := by
  unfold State.reachMap
  dsimp only
  rw [if_pos hr, hw, hid]
  exact if_pos hm

/-- Where no READY waits for it, the map is reached and no more (R11). -/
theorem reachMap_quiet (s : State) (h : s.hu.awaiting = none ∨ s.hu.huntId = none ∨
    (∃ w, s.hu.awaiting = some w ∧ w.map ≠ s.cb.cycle - 2) ∨ s.inRing (s.cb.cycle - 2) = false) :
    s.reachMap = { s with cb := { s.cb with
      reached := if s.inRing (s.cb.cycle - 2) = true then some (s.cb.cycle - 2) else none } } := by
  unfold State.reachMap
  dsimp only
  by_cases hr : s.inRing (s.cb.cycle - 2) = true
  · rw [if_pos hr, if_pos hr]
    cases hw : s.hu.awaiting with
    | none => rfl
    | some w =>
      cases hid : s.hu.huntId with
      | none => rfl
      | some id =>
        refine if_neg fun hm => ?_
        obtain h | h | ⟨w', h, hne⟩ | h := h
        · rw [hw] at h; cases h
        · rw [hid] at h; cases h
        · rw [hw] at h; cases h; exact hne hm
        · rw [hr] at h; cases h
  · rw [if_neg hr, if_neg hr]

/-- Either way nothing but the map reached, the READY awaited and the queue of notices changes. -/
theorem reachMap_only (s : State) : ∃ awaiting queued, s.reachMap =
    { s with
      cb := { s.cb with reached := if s.inRing (s.cb.cycle - 2) = true then some (s.cb.cycle - 2) else none }
      hu := { s.hu with awaiting := awaiting }
      slp := { s.slp with queued := queued } } := by
  by_cases h : s.hu.awaiting = none ∨ s.hu.huntId = none ∨
      (∃ w, s.hu.awaiting = some w ∧ w.map ≠ s.cb.cycle - 2) ∨ s.inRing (s.cb.cycle - 2) = false
  · exact ⟨_, _, reachMap_quiet s h⟩
  · simp only [not_or, not_exists, not_and, ne_eq, not_not, Bool.not_eq_false] at h
    obtain ⟨hw, hid, hm, hr⟩ := h
    obtain ⟨w, hw⟩ := Option.ne_none_iff_exists'.1 hw
    obtain ⟨id, hid⟩ := Option.ne_none_iff_exists'.1 hid
    refine ⟨none, s.slp.queued ++ [.huntReady id s.channel w.step w.named], ?_⟩
    rw [reachMap_ready s w id hw hid (hm w hw) hr, if_pos hr]
    rfl

/-! ### The build (R5 to R10) -/

/-- The state as the build begins: the timers counted, the map reached, nothing sent yet. -/
def State.cycleBegun (s : State) : State := s.tick.reachMap.emptyDownstream

/-- The state at the end of the start of a cycle, before the frames are offered. -/
def State.cycleStarted (s : State) : State :=
  if s.cycleBegun.builds then s.cycleBegun.buildMap s.cycleBegun.cb.cycle else s.cycleBegun

theorem exec_cycleStart (s : State) (hr : s.resetHeld = false) :
    ∃ t, exec .cycleStart s = .next t ∧ Offered s.cycleStarted t :=
  ⟨_, if_neg (by rw [hr]; decide), settle_offered _⟩

/-- What the start of a cycle may change beside the timers. -/
theorem cycleStarted_only (s : State) : ∃ ring awaiting queued down rho roster, s.cycleStarted =
    { s.tick with
      cb := { s.tick.cb with
        ring := ring, reached := if s.inRing (s.cb.cycle + 1 - 2) = true then some (s.cb.cycle + 1 - 2) else none }
      hu := { s.tick.hu with awaiting := awaiting }
      slp := { s.tick.slp with queued := queued }
      ports := { s.tick.ports with downstream := down }
      ua := { s.tick.ua with rho := rho }
      roster := roster } := by
  obtain ⟨a, q, h⟩ := reachMap_only s.tick
  unfold State.cycleStarted
  by_cases hb : s.cycleBegun.builds = true
  · rw [if_pos hb]
    unfold State.cycleBegun
    rw [h]
    exact ⟨_, _, _, _, _, _, rfl⟩
  · rw [if_neg hb]
    unfold State.cycleBegun
    rw [h]
    exact ⟨_, _, _, _, _, _, rfl⟩

theorem cycleStarted_builds (s : State) (hb : s.cycleBegun.builds = true) :
    s.cycleStarted = s.cycleBegun.buildMap s.cycleBegun.cb.cycle := if_pos hb

theorem cycleStarted_idles (s : State) (hb : s.cycleBegun.builds = false) : s.cycleStarted = s.cycleBegun :=
  if_neg (by rw [hb]; decide)

/-- The build leaves the hunt and the line alone. -/
theorem buildMap_same (s : State) (n : CycleNo) : (s.buildMap n).hu = s.hu ∧ (s.buildMap n).slp = s.slp := by
  unfold State.buildMap State.advanceRecontacts
  exact ⟨rfl, rfl⟩

theorem cycleStarted_same (s : State) :
    s.cycleStarted.hu = s.tick.reachMap.hu ∧ s.cycleStarted.slp = s.tick.reachMap.slp := by
  cases hb : s.cycleBegun.builds with
  | true => rw [cycleStarted_builds s hb]; exact buildMap_same _ _
  | false => rw [cycleStarted_idles s hb]; exact ⟨rfl, rfl⟩

theorem cycleStarted_outgoing (s : State) (who : Producer) :
    s.cycleStarted.outgoing who = s.tick.reachMap.outgoing who := by
  obtain ⟨-, hslp⟩ := cycleStarted_same s
  rw [outgoing_eq, hslp]
  rfl

theorem cycleBegun_builds (s : State) : s.cycleBegun.builds = s.builds := by
  obtain ⟨_, _, h⟩ := reachMap_only s.tick
  unfold State.cycleBegun
  rw [h]
  rfl

theorem cycleBegun_entry (s : State) (h : Nat) : s.cycleBegun.entry h = (s.entry h).tick := by
  obtain ⟨_, _, hreach⟩ := reachMap_only s.tick
  unfold State.cycleBegun
  rw [hreach]
  exact tick_entry s h

theorem cycleBegun_cycle (s : State) : s.cycleBegun.cb.cycle = s.cb.cycle + 1 := by
  obtain ⟨_, _, h⟩ := reachMap_only s.tick
  unfold State.cycleBegun
  rw [h]
  rfl

theorem cycleBegun_ring (s : State) : s.cycleBegun.cb.ring = s.cb.ring := by
  obtain ⟨_, _, h⟩ := reachMap_only s.tick
  unfold State.cycleBegun
  rw [h]
  rfl

theorem cycleBegun_ua (s : State) : s.cycleBegun.ua = s.ua := by
  obtain ⟨_, _, h⟩ := reachMap_only s.tick
  unfold State.cycleBegun
  rw [h]
  rfl

theorem role_tick_taken (r : Role) : r.tick.taken = r.taken := by cases r <;> rfl

/-- The start of a cycle does not move the DISCOVER window (R48). -/
theorem cycleBegun_discoverDue (s : State) (n : CycleNo) :
    s.cycleBegun.advanceRecontacts.discoverDue n = s.discoverDue n := by
  obtain ⟨_, _, h⟩ := reachMap_only s.tick
  unfold State.cycleBegun
  rw [h]
  change (s.ee.discoveryEnable && _ && _ && !s.hu.role.tick.taken && _) = _
  rw [role_tick_taken]
  rfl

/-- What the ports keep of earlier cycles has no part in a map. -/
theorem cycleBegun_windowList (s : State) (n : CycleNo) :
    s.cycleBegun.advanceRecontacts.windowList n = s.tick.reachMap.advanceRecontacts.windowList n := rfl

theorem cycleBegun_allocation (s : State) (n : CycleNo) :
    s.cycleBegun.advanceRecontacts.allocation n = s.tick.reachMap.advanceRecontacts.allocation n := rfl

theorem cycleBegun_rangeServed (s : State) :
    s.cycleBegun.advanceRecontacts.rangeServed = s.tick.reachMap.advanceRecontacts.rangeServed := rfl

/-- An entry once its timers have counted and its re-contact count has advanced (R1, R39). -/
def Entry.begun (e : Entry) : Entry := e.tick.advanceRecontact

theorem cycleBegun_advanced (s : State) (h : Nat) : s.cycleBegun.advanceRecontacts.entry h = (s.entry h).begun := by
  rw [advanceRecontacts_entry, cycleBegun_entry]
  rfl

theorem begun_eq (e : Entry) :
    e.begun = { e.tick with recontact := if e.state = .lost then min 16 (e.recontact + 1) else e.recontact } := by
  unfold Entry.begun Entry.advanceRecontact
  by_cases h : e.state = .lost
  · rw [if_pos h]; exact if_pos h
  · rw [if_neg h]; exact if_neg h

theorem cycleBegun_darkList (s : State) :
    s.cycleBegun.advanceRecontacts.darkList = handles.filter fun h => (s.entry h).dark := by
  unfold State.darkList
  refine List.filter_congr fun h _ => ?_
  rw [cycleBegun_advanced, begun_eq]
  rfl

theorem cycleBegun_messages (s : State) :
    handles.filterMap s.cycleBegun.advanceRecontacts.carriedMessage = handles.filterMap s.carriedMessage := by
  refine List.filterMap_congr fun h _ => ?_
  have hm : (s.cycleBegun.advanceRecontacts.entry h).mailbox = (s.entry h).mailbox := by
    rw [cycleBegun_advanced, begun_eq]
    rfl
  unfold State.carriedMessage
  rw [hm]

/-- The entry after the build of map n, in the terms of the entry before the start of the cycle (R33, R35, R39, R95). -/
theorem begun_afterBuild (e : Entry) (n : CycleNo) (granted served : Bool) (hf : e.state ≠ .free) :
    e.begun.afterBuild n granted served = { e.tick with
      mailbox := e.mailbox.map fun x => x.advance n
      idle := if granted = true then 0 else min 255 (e.idle + 1)
      reRangeIdle := if e.state = .active ∧ e.holds.drift = true then min 255 (e.reRangeIdle + 1) else e.reRangeIdle
      recontact :=
        if e.state = .lost then (if served = true then 0 else min 16 (e.recontact + 1)) else e.recontact } := by
  have hranging : e.begun.reRanging = true ↔ e.state = .active ∧ e.holds.drift = true := by
    rw [begun_eq]
    unfold Entry.reRanging
    rw [Bool.and_eq_true, decide_eq_true_eq]
    exact And.comm
  have hcontact : (if (served && decide (e.begun.state = .lost)) = true then 0 else e.begun.recontact) =
      if e.state = .lost then (if served = true then 0 else min 16 (e.recontact + 1)) else e.recontact := by
    rw [begun_eq]
    by_cases hl : e.state = .lost <;> cases served <;> simp [hl, Entry.tick]
  refine (if_neg (by rw [begun_eq]; exact hf)).trans ?_
  rw [hcontact, begun_eq] at *
  simp only [hranging]
  rfl

theorem begun_free (e : Entry) (n : CycleNo) (granted served : Bool) (hf : e.state = .free) :
    e.begun.afterBuild n granted served = e.tick := by
  have hlost : ¬e.tick.state = .lost := fun x => absurd (hf.symm.trans x) (by decide)
  have hb : e.begun = e.tick := if_neg hlost
  rw [hb]
  exact if_pos hf

/-- Every entry after the build of a map (R35). -/
theorem buildMap_entry (s : State) (n : CycleNo) (h : Nat) :
    (s.buildMap n).entry h = (s.advanceRecontacts.entry h).afterBuild n
      ((s.advanceRecontacts.windowList n).any fun w => w.handle = h) (s.advanceRecontacts.rangeServed.contains h) :=
  entry_tableMap s.advanceRecontacts (fun h e => e.afterBuild n
    ((s.advanceRecontacts.windowList n).any fun w => w.handle = h) (s.advanceRecontacts.rangeServed.contains h))
    (fun _ => rfl) h

end Sys2Proof.Machine
end

section
/-! PROOFS. The statement on CYCLE_START, assembled from what the tick, the map reached and the build do. -/

namespace Sys2Proof.Machine

/-! ### What the build leaves -/

/-- The map that is built and sent (R5, R6). -/
def State.builtMap (s : State) : MapRecord := s.cycleBegun.advanceRecontacts.mapFor (s.cb.cycle + 1)

theorem builtMap_eq (s : State) : s.builtMap =
    { number := s.cb.cycle + 1, windows := s.tick.reachMap.advanceRecontacts.windowList (s.cb.cycle + 1),
      dark := handles.filter fun h => (s.entry h).dark, messages := handles.filterMap s.carriedMessage,
      preDelay := if s.discoverDue (s.cb.cycle + 1) = true then some (160000 - s.img.rLow) else none } := by
  have himg : s.cycleBegun.advanceRecontacts.img = s.img := by
    obtain ⟨_, _, h⟩ := reachMap_only s.tick
    unfold State.advanceRecontacts State.cycleBegun
    rw [h]
    rfl
  unfold State.builtMap State.mapFor
  rw [cycleBegun_darkList, cycleBegun_messages, cycleBegun_discoverDue, cycleBegun_windowList, himg]
  rfl

/-- The fields the build writes, but for the roster. -/
theorem buildMap_writes (s : State) (n : CycleNo) :
    (s.buildMap n).cb.ring = (s.cb.ring ++ [s.advanceRecontacts.mapFor n]).drop (s.cb.ring.length + 1 - 4) ∧
      (s.buildMap n).ports.downstream = [.map (s.advanceRecontacts.mapFor n).sent] ∧
      (s.buildMap n).ua = { s.ua with rho := (s.advanceRecontacts.allocation n).2 } := by
  unfold State.buildMap ringPush
  exact ⟨rfl, rfl, rfl⟩

/-- A building part's ring, port, pointer and roster at the end of the start of a cycle. -/
theorem cycleStarted_build (s : State) (hb : s.builds = true) :
    s.cycleStarted.cb.ring = (s.cb.ring ++ [s.builtMap]).drop (s.cb.ring.length + 1 - 4) ∧
      s.cycleStarted.ports.downstream = [.map s.builtMap.sent] ∧
      s.cycleStarted.ua =
        { s.ua with rho := (s.tick.reachMap.advanceRecontacts.allocation (s.cb.cycle + 1)).2 } ∧
      ∀ h, s.cycleStarted.entry h = (s.entry h).begun.afterBuild (s.cb.cycle + 1)
        (s.builtMap.windows.any fun w => w.handle = h) (s.tick.reachMap.advanceRecontacts.rangeServed.contains h) := by
  obtain ⟨hring, hdown, hua⟩ := buildMap_writes s.cycleBegun (s.cb.cycle + 1)
  rw [cycleStarted_builds s ((cycleBegun_builds s).trans hb), cycleBegun_cycle]
  refine ⟨?_, hdown, ?_, fun h => ?_⟩
  · rw [hring, cycleBegun_ring]; rfl
  · rw [hua, cycleBegun_ua, cycleBegun_allocation]
  · rw [buildMap_entry, cycleBegun_advanced, cycleBegun_rangeServed]; rfl

/-- A part that builds no map keeps its ring and sends nothing. -/
theorem cycleStarted_noBuild (s : State) (hb : s.builds = false) :
    s.cycleStarted.cb.ring = s.cb.ring ∧ s.cycleStarted.ua = s.ua ∧ s.cycleStarted.ports.downstream = [] ∧
      ∀ h, s.cycleStarted.entry h = (s.entry h).tick := by
  rw [cycleStarted_idles s ((cycleBegun_builds s).trans hb)]
  exact ⟨cycleBegun_ring s, cycleBegun_ua s, rfl, cycleBegun_entry s⟩

/-! ### The READY that waits (R115) -/

theorem cycleStarted_ready (s : State) (w : Awaiting) (id : HuntId) (hw : s.hu.awaiting = some w)
    (hid : s.hu.huntId = some id) (hm : w.map = s.cb.cycle + 1 - 2) (hr : s.inRing (s.cb.cycle + 1 - 2) = true) :
    s.cycleStarted.hu.awaiting = none ∧ ∀ who, s.cycleStarted.outgoing who =
      s.outgoing who ++ if Producer.hunt = who then [.huntReady id s.channel w.step w.named] else [] := by
  obtain ⟨hhu, -⟩ := cycleStarted_same s
  have hreach := reachMap_ready s.tick w id hw hid hm hr
  refine ⟨by rw [hhu, hreach]; rfl, fun who => ?_⟩
  rw [cycleStarted_outgoing, hreach, queueNotice_outgoing]
  rfl

theorem cycleStarted_quiet (s : State) (h : s.hu.awaiting = none ∨ s.hu.huntId = none ∨
    (∃ w, s.hu.awaiting = some w ∧ w.map ≠ s.cb.cycle + 1 - 2) ∨ s.inRing (s.cb.cycle + 1 - 2) = false) :
    s.cycleStarted.hu.awaiting = s.hu.awaiting ∧ ∀ who, s.cycleStarted.outgoing who = s.outgoing who := by
  obtain ⟨hhu, -⟩ := cycleStarted_same s
  have hreach := reachMap_quiet s.tick h
  refine ⟨by rw [hhu, hreach]; rfl, fun who => ?_⟩
  rw [cycleStarted_outgoing, hreach]
  rfl

/-- A READY is the Hunt Unit's alone. -/
theorem cycleStarted_others (s : State) (who : Producer) (hne : who ≠ .hunt) :
    s.cycleStarted.outgoing who = s.outgoing who := by
  by_cases h : s.hu.awaiting = none ∨ s.hu.huntId = none ∨
      (∃ w, s.hu.awaiting = some w ∧ w.map ≠ s.cb.cycle + 1 - 2) ∨ s.inRing (s.cb.cycle + 1 - 2) = false
  · obtain ⟨-, hout⟩ := cycleStarted_quiet s h
    exact hout who
  · simp only [not_or, not_exists, not_and, ne_eq, not_not, Bool.not_eq_false] at h
    obtain ⟨hw, hid, hm, hr⟩ := h
    obtain ⟨w, hw⟩ := Option.ne_none_iff_exists'.1 hw
    obtain ⟨id, hid⟩ := Option.ne_none_iff_exists'.1 hid
    obtain ⟨-, hout⟩ := cycleStarted_ready s w id hw hid (hm w hw) hr
    rw [hout who, if_neg (Ne.symm hne), List.append_nil]

/-- Settles O14: the tick, the map reached, the READY and the build, read off the state at the end of the start of a cycle. -/
theorem cycleStart : Obligations.CycleStart := by
  unfold Obligations.CycleStart
  intro s hreset
  obtain ⟨t, hexec, hoff⟩ := exec_cycleStart s hreset
  obtain ⟨ring, awaiting, queued, down, rho, roster, honly⟩ := cycleStarted_only s
  have hil : t.il = s.tick.il := by rw [hoff.il, honly]
  have hee : t.ee = s.tick.ee := by rw [hoff.ee, honly]
  have hhu : t.hu = { s.tick.hu with awaiting := awaiting } := by rw [hoff.hu, honly]
  refine ⟨t, hexec, by rw [hoff.cb, honly]; rfl, by rw [hoff.cb, honly]; rfl, ?_, ?_, ?_, ?_, ?_, fun h => rfl, ?_, ?_,
    by rw [hhu]; rfl, by rw [hoff.detachTimer, honly]; rfl, by rw [hoff.detachSpan, honly]; rfl, hil, by rw [hee]; rfl,
    by rw [hee]; rfl, by rw [hoff.repeats, honly]; rfl, by rw [hhu]; rfl, by rw [hhu]; rfl, by rw [hoff.um, honly]; rfl,
    by rw [hoff.lw, honly]; rfl, ⟨by rw [hoff.events, honly]; rfl, by rw [hoff.dropped, honly]; rfl⟩,
    by rw [hoff.results, honly]; rfl, by rw [hoff.ports, honly]; rfl, by rw [hoff.resetHeld, honly]; exact hreset,
    by rw [hoff.pending, honly]; rfl⟩
  · intro w id hw hid hm hr
    obtain ⟨hawait, hout⟩ := cycleStarted_ready s w id hw hid hm hr
    exact ⟨by rw [hoff.hu, hawait], by rw [hoff.notices, hout]; rfl⟩
  · intro hnone
    obtain ⟨hawait, hout⟩ := cycleStarted_quiet s hnone
    exact ⟨by rw [hoff.hu, hawait], by rw [hoff.notices, hout]⟩
  · intro who hne
    rw [hoff.notices, cycleStarted_others s who hne]
  · intro hb
    obtain ⟨hring, hua, hdown, hentry⟩ := cycleStarted_noBuild s hb
    exact ⟨by rw [hoff.cb, hring], by rw [hoff.ua, hua], by rw [hoff.ports, hdown], fun h => by rw [hoff.entry, hentry]⟩
  · intro hb
    obtain ⟨hring, hdown, hua, hentry⟩ := cycleStarted_build s hb
    have hmap := builtMap_eq s
    refine ⟨s.builtMap, by rw [hoff.cb, hring], rfl, rfl, by rw [hmap], by rw [hmap], by rw [hmap], by rw [hoff.ports, hdown]; rfl,
      by rw [hoff.ua, hua], fun h => ⟨fun hf => ?_, fun hf => ?_⟩⟩
    · rw [hoff.entry, hentry, begun_free _ _ _ _ hf]
    · rw [hoff.entry, hentry, begun_afterBuild _ _ _ _ hf]
      simp only [List.contains_iff_mem]
  · intro o ho
    rw [hhu]
    change s.hu.role.tick = _
    rw [ho]
    rfl
  · intro ho
    rw [hhu]
    change s.hu.role.tick = _
    cases hrole : s.hu.role with
    | noRole => rfl
    | owner o => rw [hrole] at ho; cases ho
    | participant => rfl

end Sys2Proof.Machine
end

section
/-! PROOFS. The layout of a map (R7) and the two passes of stage 2 (R75 to R78). -/

namespace Sys2Proof.Machine

/-! ### The layout (R7) -/

/-- A window as it was planned. -/
def Window.plan (w : Window) : Planned := (w.kind, w.handle, w.length)

theorem layOut_plan (f : Nat → Option Serial) (p : Nat) (ws : List Planned) : (layOut f p ws).map Window.plan = ws := by
  induction ws generalizing p with
  | nil => rfl
  | cons x xs ih =>
    obtain ⟨kind, h, len⟩ := x
    rw [layOut, List.map_cons, ih]
    rfl

theorem layOut_after (f : Nat → Option Serial) (p : Nat) (ws : List Planned) : ∀ w ∈ layOut f p ws, p ≤ w.start := by
  induction ws generalizing p with
  | nil => exact fun w hw => absurd hw List.not_mem_nil
  | cons x xs ih =>
    obtain ⟨kind, h, len⟩ := x
    intro w hw
    rcases List.mem_cons.1 hw with rfl | hw
    · exact Nat.le_refl p
    · exact Nat.le_trans (by omega) (ih _ w hw)

/-- The windows stand in order, each with its guard before the next. -/
theorem layOut_apart (f : Nat → Option Serial) (p : Nat) (ws : List Planned) :
    (layOut f p ws).Pairwise fun a b => a.start + a.length + 4 ≤ b.start := by
  induction ws generalizing p with
  | nil => exact List.Pairwise.nil
  | cons x xs ih =>
    obtain ⟨kind, h, len⟩ := x
    exact List.pairwise_cons.2 ⟨fun b hb => layOut_after f _ xs b hb, ih _⟩

theorem planCost_cons (x : Planned) (xs : List Planned) : planCost (x :: xs) = x.2.2 + 4 + planCost xs := by
  simp [planCost, Config.guardWords]

theorem planCost_append (xs ys : List Planned) : planCost (xs ++ ys) = planCost xs + planCost ys := by
  simp [planCost]

/-- Every window ends, with its guard, within the cost of the plan. -/
theorem layOut_within (f : Nat → Option Serial) (p : Nat) (ws : List Planned) :
    ∀ w ∈ layOut f p ws, w.start + w.length + 4 ≤ p + planCost ws := by
  induction ws generalizing p with
  | nil => exact fun w hw => absurd hw List.not_mem_nil
  | cons x xs ih =>
    obtain ⟨kind, h, len⟩ := x
    intro w hw
    rw [planCost_cons]
    rcases List.mem_cons.1 hw with rfl | hw
    · dsimp only
      omega
    · have hrest := ih _ w hw
      simp only [Config.guardWords] at hrest
      dsimp only
      omega

/-! ### Grants and their costs (R72) -/

/-- The cost of a grant in two parts is the cost of both: the second extends what the first has opened. -/
theorem grantCost_add (before x y : Nat) :
    grantCost before (x + y) = grantCost before x + grantCost (before + x) y := by
  unfold grantCost
  split_ifs <;> omega

/-- A stage-1 grant is nothing, or 4 words at least (R73). -/
theorem stage1_payload (kPoll : Nat) (i : AllocIn) : stage1 kPoll i = 0 ∨ 4 ≤ stage1 kPoll i := by
  unfold stage1 Config.minPayload
  dsimp only
  split_ifs <;> omega

/-- It is at most the assured share, or the minimum payload (R73). -/
theorem stage1_le (kPoll : Nat) (i : AllocIn) : stage1 kPoll i ≤ max i.assuredCap 4 := by
  unfold stage1 Config.minPayload
  dsimp only
  split_ifs <;> omega

/-! ### Pass A (R77) -/

theorem passA_le_need (s0 weight : Nat) (r : Grant) : passA s0 weight r ≤ r.need := by
  unfold passA
  dsimp only
  split_ifs <;> omega

theorem passA_payload (s0 weight : Nat) (r : Grant) (hg : r.g = 0) : passA s0 weight r = 0 ∨ 4 ≤ passA s0 weight r := by
  unfold passA Config.minPayload
  dsimp only
  rw [if_pos hg]
  split_ifs <;> omega

/-- A pass-A grant costs no more than its share. -/
theorem passA_cost (s0 weight : Nat) (r : Grant) : grantCost r.g (passA s0 weight r) ≤ s0 * r.input.weight / weight := by
  unfold passA grantCost Config.minPayload Config.dataCost
  dsimp only
  generalize s0 * r.input.weight / weight = share
  split_ifs <;> omega

/-- Parts rounded down sum to no more than the whole. -/
theorem sum_div_le (weight : Nat) (xs : List Nat) : (xs.map fun x => x / weight).sum ≤ xs.sum / weight := by
  induction xs with
  | nil => simp
  | cons x xs ih =>
    rw [List.map_cons, List.sum_cons, List.sum_cons]
    exact (Nat.add_le_add_left ih _).trans (Nat.div_add_div_le_add_div ..)

/-- The shares of all candidates together are within S0 (R77). -/
theorem shares_le (s0 : Nat) (order : List Grant) :
    (order.map fun r => s0 * r.input.weight / (order.map fun r => r.input.weight).sum).sum ≤ s0 := by
  have h := sum_div_le (order.map fun r => r.input.weight).sum (order.map fun r => s0 * r.input.weight)
  rw [List.map_map, List.sum_map_mul_left] at h
  exact h.trans (Nat.div_le_of_le_mul (Nat.mul_comm _ _).le)

/-! ### Pass B (R78) -/

theorem passB_le (s1 : Nat) (r : Grant) : passB s1 r ≤ r.need - r.x := by
  unfold passB
  dsimp only
  split_ifs <;> omega

theorem passB_payload (s1 : Nat) (r : Grant) (hg : r.g + r.x = 0) : passB s1 r = 0 ∨ 4 ≤ passB s1 r := by
  unfold passB Config.minPayload
  dsimp only
  rw [if_pos hg]
  split_ifs <;> omega

/-- A pass-B grant costs no more than what is left. -/
theorem passB_cost (s1 : Nat) (r : Grant) : grantCost (r.g + r.x) (passB s1 r) ≤ s1 := by
  unfold passB grantCost Config.minPayload Config.dataCost
  dsimp only
  split_ifs <;> omega

/-- What a candidate is charged in each pass. -/
def Grant.costA (r : Grant) : Nat := grantCost r.g r.x
def Grant.costB (r : Grant) : Nat := grantCost (r.g + r.x) r.y

/-- Pass B gives each candidate its grant and changes nothing else. -/
theorem runPassB_keeps {α : Type} (f : Grant → α) (hf : ∀ r y, f { r with y := y } = f r) (s1 : Nat) (rs : List Grant) :
    (runPassB s1 rs).map f = rs.map f := by
  induction rs generalizing s1 with
  | nil => rfl
  | cons r rs ih =>
    rw [runPassB, List.map_cons, List.map_cons, ih, hf]

theorem mem_runPassB (s1 : Nat) (rs : List Grant) (r : Grant) (h : r ∈ runPassB s1 rs) :
    ∃ r0 ∈ rs, ∃ left, r = { r0 with y := passB left r0 } := by
  induction rs generalizing s1 with
  | nil => exact absurd h List.not_mem_nil
  | cons x xs ih =>
    rw [runPassB] at h
    rcases List.mem_cons.1 h with rfl | h
    · exact ⟨x, List.mem_cons_self, s1, rfl⟩
    · obtain ⟨r0, h0, left, hr⟩ := ih _ h
      exact ⟨r0, List.mem_cons_of_mem _ h0, left, hr⟩

/-- Each candidate is granted from what those before it have left. -/
theorem runPassB_falls (s1 : Nat) (rs pre : List Grant) (r : Grant) (post : List Grant)
    (h : runPassB s1 rs = pre ++ r :: post) : r.y = passB (s1 - (pre.map Grant.costB).sum) r := by
  induction rs generalizing s1 pre with
  | nil => exact absurd h (by simp [runPassB])
  | cons x xs ih =>
    rw [runPassB] at h
    cases pre with
    | nil =>
      obtain ⟨rfl, -⟩ := List.cons.inj h
      rfl
    | cons p pre =>
      obtain ⟨rfl, htail⟩ := List.cons.inj h
      rw [ih _ _ htail, List.map_cons, List.sum_cons, Nat.sub_sub]
      rfl

theorem runPassB_cost (s1 : Nat) (rs : List Grant) : ((runPassB s1 rs).map Grant.costB).sum ≤ s1 := by
  induction rs generalizing s1 with
  | nil => exact Nat.zero_le s1
  | cons r rs ih =>
    rw [runPassB, List.map_cons, List.sum_cons]
    have hone := passB_cost s1 r
    have hrest := ih (s1 - grantCost (r.g + r.x) (passB s1 r))
    change grantCost (r.g + r.x) (passB s1 r) + _ ≤ s1
    omega

/-! ### Stage 2 (R75 to R78) -/

/-- The weights of the candidates together. -/
def weightOf (order : List Grant) : Nat := (order.map fun r => r.input.weight).sum

/-- The candidates with their pass-A grants. -/
def withPassA (s0 : Nat) (order : List Grant) : List Grant :=
  order.map fun r => { r with x := passA s0 (weightOf order) r }

theorem stage2_eq (s0 : Nat) (order : List Grant) :
    stage2 s0 order = runPassB (s0 - ((withPassA s0 order).map Grant.costA).sum) (withPassA s0 order) := rfl

theorem stage2_inputs (s0 : Nat) (order : List Grant) :
    (stage2 s0 order).map (fun r => (r.input, r.g)) = order.map fun r => (r.input, r.g) := by
  rw [stage2_eq, runPassB_keeps _ fun _ _ => rfl, withPassA, List.map_map]
  rfl

theorem stage2_costA (s0 : Nat) (order : List Grant) :
    ((stage2 s0 order).map Grant.costA).sum = ((withPassA s0 order).map Grant.costA).sum := by
  rw [stage2_eq, runPassB_keeps _ fun _ _ => rfl]

theorem withPassA_cost (s0 : Nat) (order : List Grant) : ((withPassA s0 order).map Grant.costA).sum ≤ s0 := by
  refine Nat.le_trans ?_ (shares_le s0 order)
  rw [withPassA, List.map_map]
  exact List.sum_le_sum fun r _ => passA_cost s0 (weightOf order) r

/-- The cost of all grants of stage 2 stays within S0. -/
theorem stage2_cost (s0 : Nat) (order : List Grant) :
    ((stage2 s0 order).map Grant.costA).sum + ((stage2 s0 order).map Grant.costB).sum ≤ s0 := by
  have ha := withPassA_cost s0 order
  have hb := runPassB_cost (s0 - ((withPassA s0 order).map Grant.costA).sum) (withPassA s0 order)
  rw [← stage2_eq] at hb
  rw [stage2_costA]
  omega

/-- A candidate after stage 2: its pass-A grant by its share, and what pass B left it. -/
theorem mem_stage2 (s0 : Nat) (order : List Grant) (r : Grant) (h : r ∈ stage2 s0 order) :
    r.x = passA s0 (weightOf order) r ∧ ∃ left, r.y = passB left r := by
  obtain ⟨r1, h1, left, rfl⟩ := mem_runPassB _ _ r h
  obtain ⟨r0, -, rfl⟩ := List.mem_map.1 h1
  exact ⟨rfl, left, rfl⟩

/-- No candidate gets more than its need, and a window it opens has 4 words at least (R77, R78). -/
theorem stage2_grant (s0 : Nat) (order : List Grant) (r : Grant) (h : r ∈ stage2 s0 order) :
    r.x + r.y ≤ r.need ∧ (r.g = 0 → r.x + r.y = 0 ∨ 4 ≤ r.x + r.y) := by
  obtain ⟨hx, left, hy⟩ := mem_stage2 s0 order r h
  have hxn := passA_le_need s0 (weightOf order) r
  have hyn := passB_le left r
  refine ⟨by omega, fun hg => ?_⟩
  have hxp := passA_payload s0 (weightOf order) r hg
  rcases Nat.eq_zero_or_pos r.x with h0 | hpos
  · have hyp := passB_payload left r (by omega)
    omega
  · omega

end Sys2Proof.Machine
end

section
/-! PROOFS. The whole allocation (R72 to R79): the grants it ends with, their windows, their cost, and the pointer. -/

namespace Sys2Proof.Machine

/-! ### The grants it ends with -/

/-- An input with its stage-1 grant alone (R73). -/
def Grant.start (kPoll : Nat) (i : AllocIn) : Grant := { input := i, g := stage1 kPoll i, x := 0, y := 0 }

/-- S0: the words that stage 1 leaves (R75). -/
def spareWords (kPoll capacity : Nat) (inputs : List AllocIn) : Nat :=
  capacity - ((inputs.map (Grant.start kPoll)).map fun r => grantCost 0 r.g).sum

/-- The candidates of stage 2 in the order of the pointer (R76). -/
def candidateOrder (kPoll rho : Nat) (inputs : List AllocIn) : List Grant :=
  rotate rho ((inputs.map (Grant.start kPoll)).filter fun r => 0 < r.need)

/-- The grants after both stages. -/
def finalGrants (kPoll rho capacity : Nat) (inputs : List AllocIn) : List Grant :=
  if spareWords kPoll capacity inputs < 20 then inputs.map (Grant.start kPoll)
  else ((inputs.map (Grant.start kPoll)).filter fun r => r.need = 0) ++
    stage2 (spareWords kPoll capacity inputs) (candidateOrder kPoll rho inputs)

/-- The payload of a grant: what stage 1 and both passes give. -/
def Grant.total (r : Grant) : Nat := r.g + r.x + r.y

/-- The payload granted to a handle. -/
def payloadAt (rs : List Grant) (h : Nat) : Nat := ((rs.filter fun r => r.input.handle = h).map Grant.total).sum

theorem allocate_grants (kPoll rho capacity : Nat) (inputs : List AllocIn) :
    (allocate kPoll rho capacity inputs).1 =
      (handles.map fun h => (h, payloadAt (finalGrants kPoll rho capacity inputs) h)).filter fun p => 0 < p.2 := rfl

theorem allocate_pointer (kPoll rho capacity : Nat) (inputs : List AllocIn) :
    (allocate kPoll rho capacity inputs).2 =
      if spareWords kPoll capacity inputs < 20 then rho
      else match candidateOrder kPoll rho inputs with
        | [] => rho
        | r :: _ => r.input.handle := rfl

theorem spareWords_eq (kPoll capacity : Nat) (inputs : List AllocIn) :
    spareWords kPoll capacity inputs = capacity - (inputs.map fun i => grantCost 0 (stage1 kPoll i)).sum := by
  rw [spareWords, List.map_map]
  rfl

theorem rotate_perm (rho : Nat) (cs : List Grant) : (rotate rho cs).Perm cs := by
  have h := List.filter_append_perm (fun r : Grant => decide (rho < r.input.handle)) cs
  simpa only [rotate, decide_not.symm, Nat.not_lt] using h

/-- Every input stands among the grants once, with its stage-1 grant. -/
theorem finalGrants_inputs (kPoll rho capacity : Nat) (inputs : List AllocIn) :
    ((finalGrants kPoll rho capacity inputs).map fun r => (r.input, r.g)).Perm
      (inputs.map fun i => (i, stage1 kPoll i)) := by
  have hstart : (inputs.map (Grant.start kPoll)).map (fun r => (r.input, r.g)) = inputs.map fun i => (i, stage1 kPoll i) :=
    List.map_map
  rw [← hstart, finalGrants]
  split_ifs with hs
  · exact List.Perm.refl _
  · rw [List.map_append, stage2_inputs, ← List.map_append]
    refine List.Perm.map _ ((List.Perm.append_left _ (rotate_perm _ _)).trans ?_)
    have h := List.filter_append_perm (fun r : Grant => decide (r.need = 0)) (inputs.map (Grant.start kPoll))
    simpa only [decide_not.symm, Nat.pos_iff_ne_zero] using h

theorem finalGrants_mem (kPoll rho capacity : Nat) (inputs : List AllocIn) (r : Grant)
    (hr : r ∈ finalGrants kPoll rho capacity inputs) : r.input ∈ inputs ∧ r.g = stage1 kPoll r.input := by
  have h := (finalGrants_inputs kPoll rho capacity inputs).mem_iff.1 (List.mem_map_of_mem (f := fun r => (r.input, r.g)) hr)
  obtain ⟨i, hi, he⟩ := List.mem_map.1 h
  obtain ⟨rfl, hg⟩ := Prod.mk.inj he
  exact ⟨hi, hg.symm⟩

theorem finalGrants_handles (kPoll rho capacity : Nat) (inputs : List AllocIn) :
    ((finalGrants kPoll rho capacity inputs).map fun r => r.input.handle).Perm (inputs.map AllocIn.handle) := by
  have h := (finalGrants_inputs kPoll rho capacity inputs).map fun p => p.1.handle
  rwa [List.map_map, List.map_map] at h

/-- No grant of stage 2 passes the need, and a window it opens has 4 words at least. -/
theorem finalGrants_grant (kPoll rho capacity : Nat) (inputs : List AllocIn) (r : Grant)
    (hr : r ∈ finalGrants kPoll rho capacity inputs) :
    r.x + r.y ≤ r.need ∧ (r.g = 0 → r.x + r.y = 0 ∨ 4 ≤ r.x + r.y) := by
  have hstart : ∀ r ∈ inputs.map (Grant.start kPoll), r.x + r.y ≤ r.need ∧ (r.g = 0 → r.x + r.y = 0 ∨ 4 ≤ r.x + r.y) := by
    intro r hr
    obtain ⟨i, -, rfl⟩ := List.mem_map.1 hr
    exact ⟨Nat.zero_le _, fun _ => .inl rfl⟩
  unfold finalGrants at hr
  split_ifs at hr with hs
  · exact hstart r hr
  · rcases List.mem_append.1 hr with h | h
    · exact hstart r (List.mem_filter.1 h).1
    · exact stage2_grant _ _ r h

/-! ### The windows they open -/

/-- A handle that stands once among the grants has the payload of its grant. -/
theorem payloadAt_of_mem (rs : List Grant) (hn : (rs.map fun r => r.input.handle).Nodup) (r : Grant) (hr : r ∈ rs) :
    payloadAt rs r.input.handle = r.total := by
  induction rs with
  | nil => exact absurd hr List.not_mem_nil
  | cons q qs ih =>
    obtain ⟨hq, hqs⟩ := List.nodup_cons.1 hn
    rcases List.mem_cons.1 hr with rfl | hr
    · have hnone : (qs.filter fun k => k.input.handle = r.input.handle) = [] := by
        refine List.filter_eq_nil_iff.2 fun k hk heq => hq ?_
        exact List.mem_map.2 ⟨k, hk, of_decide_eq_true heq⟩
      simp [payloadAt, hnone]
    · have hne : q.input.handle ≠ r.input.handle := fun heq => hq (List.mem_map.2 ⟨r, hr, heq.symm⟩)
      rw [← ih hqs hr]
      simp [payloadAt, hne]

theorem payloadAt_pos (rs : List Grant) (h : Nat) (hp : 0 < payloadAt rs h) : ∃ r ∈ rs, r.input.handle = h := by
  by_contra hno
  have hnone : (rs.filter fun k => k.input.handle = h) = [] :=
    List.filter_eq_nil_iff.2 fun k hk heq => hno ⟨k, hk, of_decide_eq_true heq⟩
  rw [payloadAt, hnone] at hp
  exact absurd hp (Nat.lt_irrefl 0)

/-- The handles of the windows ascend. -/
theorem allocate_ascending (kPoll rho capacity : Nat) (inputs : List AllocIn) :
    ((allocate kPoll rho capacity inputs).1.map Prod.fst).Pairwise (· < ·) := by
  rw [allocate_grants]
  have hsub := (List.filter_sublist (p := fun p : Nat × Nat => decide (0 < p.2))
    (l := handles.map fun h => (h, payloadAt (finalGrants kPoll rho capacity inputs) h))).map Prod.fst
  refine List.Pairwise.sublist hsub ?_
  rw [List.map_map]
  exact (List.map_id handles).symm ▸ List.pairwise_lt_range'

section
variable (kPoll rho capacity : Nat) (inputs : List AllocIn) (hd : (inputs.map AllocIn.handle).Pairwise (· < ·))
include hd

theorem finalGrants_nodup : ((finalGrants kPoll rho capacity inputs).map fun r => r.input.handle).Nodup :=
  (finalGrants_handles kPoll rho capacity inputs).nodup_iff.2 (hd.imp fun h => Nat.ne_of_lt h)

/-- Every window is that of one grant. -/
theorem allocate_mem (p : Nat × Nat) (hp : p ∈ (allocate kPoll rho capacity inputs).1) :
    ∃ r ∈ finalGrants kPoll rho capacity inputs, p = (r.input.handle, r.total) ∧ 0 < r.total := by
  rw [allocate_grants] at hp
  obtain ⟨hmap, hpos⟩ := List.mem_filter.1 hp
  obtain ⟨h, -, rfl⟩ := List.mem_map.1 hmap
  have hpay := of_decide_eq_true hpos
  obtain ⟨r, hr, rfl⟩ := payloadAt_pos _ _ hpay
  dsimp only at hpay
  rw [payloadAt_of_mem _ (finalGrants_nodup kPoll rho capacity inputs hd) r hr] at hpay ⊢
  exact ⟨r, hr, rfl, hpay⟩

/-- Every grant that is not empty opens a window. -/
theorem mem_allocate (r : Grant) (hr : r ∈ finalGrants kPoll rho capacity inputs) (hh : r.input.handle ∈ handles)
    (hpos : 0 < r.total) : (r.input.handle, r.total) ∈ (allocate kPoll rho capacity inputs).1 := by
  rw [allocate_grants]
  refine List.mem_filter.2 ⟨List.mem_map.2 ⟨_, hh, ?_⟩, decide_eq_true hpos⟩
  rw [payloadAt_of_mem _ (finalGrants_nodup kPoll rho capacity inputs hd) r hr]

/-- The payload of a window: 4 words at least, its stage-1 grant at least, and no more than that or min(D, P′) (R73, R75). -/
theorem allocate_payload (p : Nat × Nat) (hp : p ∈ (allocate kPoll rho capacity inputs).1) :
    4 ≤ p.2 ∧ ∃ i ∈ inputs, i.handle = p.1 ∧ stage1 kPoll i ≤ p.2 ∧ p.2 ≤ max (stage1 kPoll i) (min i.demand i.peakCap) := by
  obtain ⟨r, hr, rfl, hpos⟩ := allocate_mem kPoll rho capacity inputs hd p hp
  obtain ⟨hi, hg⟩ := finalGrants_mem kPoll rho capacity inputs r hr
  obtain ⟨hneed, hopen⟩ := finalGrants_grant kPoll rho capacity inputs r hr
  have hone := stage1_payload kPoll r.input
  rw [Grant.need, hg] at hneed
  rw [hg] at hopen
  simp only [Grant.total, hg] at hpos ⊢
  refine ⟨?_, r.input, hi, rfl, by omega, by omega⟩
  rcases hone with h | h
  · have := hopen h
    omega
  · omega

end

/-! ### Their cost (R72, R79) -/

/-- What a grant costs is what its three parts cost. -/
theorem total_cost (r : Grant) : grantCost 0 r.total = grantCost 0 r.g + r.costA + r.costB := by
  rw [Grant.total, grantCost_add, grantCost_add, Nat.zero_add, Nat.zero_add]
  rfl

theorem sum_total_cost (rs : List Grant) :
    (rs.map fun r => grantCost 0 r.total).sum =
      (rs.map fun r => grantCost 0 r.g).sum + (rs.map fun r => r.costA + r.costB).sum := by
  rw [← List.sum_map_add]
  exact congrArg List.sum (List.map_congr_left fun r _ => (total_cost r).trans (Nat.add_assoc _ _ _))

/-- Stage 2 costs no more than stage 1 leaves. -/
theorem finalGrants_stage2 (kPoll rho capacity : Nat) (inputs : List AllocIn) :
    ((finalGrants kPoll rho capacity inputs).map fun r => r.costA + r.costB).sum ≤ spareWords kPoll capacity inputs := by
  have hstart : ∀ rs : List Grant, (∀ r ∈ rs, r ∈ inputs.map (Grant.start kPoll)) →
      (rs.map fun r => r.costA + r.costB).sum = 0 := by
    intro rs hrs
    refine List.sum_eq_zero fun c hc => ?_
    obtain ⟨r, hr, rfl⟩ := List.mem_map.1 hc
    obtain ⟨i, -, rfl⟩ := List.mem_map.1 (hrs r hr)
    rfl
  unfold finalGrants
  split_ifs with hs
  · rw [hstart _ fun _ h => h]
    exact Nat.zero_le _
  · rw [List.map_append, List.sum_append, hstart _ fun r hr => (List.mem_filter.1 hr).1, Nat.zero_add, List.sum_map_add]
    exact stage2_cost _ _

/-- All grants together cost no more than the capacity, where those of stage 1 do. -/
theorem finalGrants_cost (kPoll rho capacity : Nat) (inputs : List AllocIn)
    (hfit : (inputs.map fun i => grantCost 0 (stage1 kPoll i)).sum ≤ capacity) :
    ((finalGrants kPoll rho capacity inputs).map fun r => grantCost 0 r.total).sum ≤ capacity := by
  have hone : ((finalGrants kPoll rho capacity inputs).map fun r => grantCost 0 r.g).sum =
      (inputs.map fun i => grantCost 0 (stage1 kPoll i)).sum := by
    have h := ((finalGrants_inputs kPoll rho capacity inputs).map fun p => grantCost 0 p.2).sum_eq
    rwa [List.map_map, List.map_map] at h
  have htwo := finalGrants_stage2 kPoll rho capacity inputs
  rw [sum_total_cost, hone]
  rw [spareWords_eq] at htwo
  omega

/-- The windows cost no more than the capacity, where those of stage 1 do. -/
theorem allocate_cost (kPoll rho capacity : Nat) (inputs : List AllocIn)
    (hd : (inputs.map AllocIn.handle).Pairwise (· < ·))
    (hfit : (inputs.map fun i => grantCost 0 (stage1 kPoll i)).sum ≤ capacity) :
    ((allocate kPoll rho capacity inputs).1.map fun p => p.2 + 16).sum ≤ capacity := by
  refine Nat.le_trans ?_ (finalGrants_cost kPoll rho capacity inputs hfit)
  have hnodup : (allocate kPoll rho capacity inputs).1.Nodup :=
    List.Nodup.of_map Prod.fst ((allocate_ascending kPoll rho capacity inputs).imp fun h => Nat.ne_of_lt h)
  have hsub : (allocate kPoll rho capacity inputs).1 ⊆
      (finalGrants kPoll rho capacity inputs).map fun r => (r.input.handle, r.total) := by
    intro p hp
    obtain ⟨r, hr, rfl, -⟩ := allocate_mem kPoll rho capacity inputs hd p hp
    exact List.mem_map.2 ⟨r, hr, rfl⟩
  obtain ⟨l, hperm, hl⟩ := List.subperm_of_subset hnodup hsub
  have hcost : ((allocate kPoll rho capacity inputs).1.map fun p => p.2 + 16) =
      (allocate kPoll rho capacity inputs).1.map fun p => grantCost 0 p.2 := by
    refine List.map_congr_left fun p hp => ?_
    obtain ⟨r, -, rfl, hpos⟩ := allocate_mem kPoll rho capacity inputs hd p hp
    rw [grantCost, if_neg (by omega), if_pos rfl]
    rfl
  have hle := (hl.map fun p => grantCost 0 p.2).sum_le_sum fun _ _ => Nat.zero_le _
  rw [List.map_map] at hle
  rw [hcost, ← (hperm.map fun p => grantCost 0 p.2).sum_eq]
  exact hle

/-! ### The pointer (R76) -/

/-- The first of ascending handles taken from above a pointer, then from the start. -/
theorem rotated_first (rho : Nat) (cs : List Nat) (hasc : cs.Pairwise (· < ·)) (c : Nat) (rest : List Nat)
    (he : (cs.filter fun k => rho < k) ++ (cs.filter fun k => k ≤ rho) = c :: rest) :
    c ∈ cs ∧ ((∃ k ∈ cs, rho < k) → rho < c ∧ ∀ k ∈ cs, rho < k → c ≤ k) ∧
      ((∀ k ∈ cs, k ≤ rho) → ∀ k ∈ cs, c ≤ k) := by
  have hfirst : ∀ (l : List Nat) (tl : List Nat), l.Pairwise (· < ·) → l = c :: tl → ∀ k ∈ l, c ≤ k := by
    rintro _ tl hl rfl k hk
    rcases List.mem_cons.1 hk with rfl | hk
    · exact Nat.le_refl k
    · exact Nat.le_of_lt ((List.pairwise_cons.1 hl).1 k hk)
  have hmem : c ∈ cs := by
    have h : c ∈ (cs.filter fun k => rho < k) ++ (cs.filter fun k => k ≤ rho) := he ▸ List.mem_cons_self
    rcases List.mem_append.1 h with h | h
    · exact (List.mem_filter.1 h).1
    · exact (List.mem_filter.1 h).1
  refine ⟨hmem, fun ⟨k0, hk0, hlt⟩ => ?_, fun hall => ?_⟩
  · have hk0' : k0 ∈ cs.filter fun k => rho < k := List.mem_filter.2 ⟨hk0, decide_eq_true hlt⟩
    cases hup : cs.filter fun k => rho < k with
    | nil => rw [hup] at hk0'; exact absurd hk0' List.not_mem_nil
    | cons d tl =>
      rw [hup] at he
      obtain ⟨rfl, -⟩ := List.cons.inj he
      have hd : d ∈ cs.filter fun k => rho < k := hup ▸ List.mem_cons_self
      refine ⟨of_decide_eq_true (List.mem_filter.1 hd).2, fun k hk hkr => ?_⟩
      exact hfirst _ tl (hasc.filter _) hup k (List.mem_filter.2 ⟨hk, decide_eq_true hkr⟩)
  · have hup : (cs.filter fun k => rho < k) = [] :=
      List.filter_eq_nil_iff.2 fun k hk h => absurd (of_decide_eq_true h) (Nat.not_lt.2 (hall k hk))
    have hdown : (cs.filter fun k => k ≤ rho) = cs :=
      List.filter_eq_self.2 fun k hk => decide_eq_true (hall k hk)
    rw [hup, hdown, List.nil_append] at he
    exact hfirst cs rest hasc he

/-- The handles of the candidates: those whose demand stage 1 has not met (R75). -/
def candidateHandles (kPoll : Nat) (inputs : List AllocIn) : List Nat :=
  (inputs.filter fun i => stage1 kPoll i < min i.demand i.peakCap).map AllocIn.handle

theorem candidateOrder_handles (kPoll rho : Nat) (inputs : List AllocIn) :
    (candidateOrder kPoll rho inputs).map (fun r => r.input.handle) =
      ((candidateHandles kPoll inputs).filter fun k => rho < k) ++
        (candidateHandles kPoll inputs).filter fun k => k ≤ rho := by
  have hcand : ((inputs.map (Grant.start kPoll)).filter fun r => 0 < r.need).map (fun r => r.input.handle) =
      candidateHandles kPoll inputs := by
    rw [List.filter_map, List.map_map, candidateHandles]
    simp only [Function.comp_def, Grant.start, Grant.need, Nat.sub_pos_iff_lt]
    rfl
  rw [candidateOrder, rotate, List.map_append, ← hcand]
  generalize (inputs.map (Grant.start kPoll)).filter (fun r => decide (0 < r.need)) = cs
  rw [List.filter_map, List.filter_map]
  rfl

theorem candidateOrder_nil (kPoll rho : Nat) (inputs : List AllocIn) (h : candidateHandles kPoll inputs = []) :
    candidateOrder kPoll rho inputs = [] := by
  have hh := candidateOrder_handles kPoll rho inputs
  rw [h] at hh
  exact List.map_eq_nil_iff.1 hh

/-- Where stage 2 gives no grants, the pointer stands. -/
theorem allocate_pointer_stands (kPoll rho capacity : Nat) (inputs : List AllocIn)
    (h : spareWords kPoll capacity inputs < 20 ∨ candidateHandles kPoll inputs = []) :
    (allocate kPoll rho capacity inputs).2 = rho := by
  rw [allocate_pointer]
  rcases h with h | h
  · exact if_pos h
  · rw [candidateOrder_nil kPoll rho inputs h]
    exact ite_self rho

/-- There the grants are those of stage 1. -/
theorem finalGrants_stage1 (kPoll rho capacity : Nat) (inputs : List AllocIn)
    (h : spareWords kPoll capacity inputs < 20 ∨ candidateHandles kPoll inputs = []) :
    ∀ i ∈ inputs, Grant.start kPoll i ∈ finalGrants kPoll rho capacity inputs := by
  intro i hi
  have hmem : Grant.start kPoll i ∈ inputs.map (Grant.start kPoll) := List.mem_map_of_mem hi
  unfold finalGrants
  split_ifs with hs
  · exact hmem
  · refine List.mem_append_left _ (List.mem_filter.2 ⟨hmem, decide_eq_true ?_⟩)
    have hnone := List.map_eq_nil_iff.1 (h.resolve_left hs)
    have hneed := List.filter_eq_nil_iff.1 hnone i hi
    rw [decide_eq_true_eq, Nat.not_lt] at hneed
    exact Nat.sub_eq_zero_of_le hneed

/-- Where it gives grants, the pointer moves to the smallest candidate handle above it, or else to the smallest (R76). -/
theorem allocate_pointer_moves (kPoll rho capacity : Nat) (inputs : List AllocIn)
    (hd : (inputs.map AllocIn.handle).Pairwise (· < ·)) (hs : 20 ≤ spareWords kPoll capacity inputs)
    (hc : candidateHandles kPoll inputs ≠ []) :
    let rho' := (allocate kPoll rho capacity inputs).2
    let cs := candidateHandles kPoll inputs
    rho' ∈ cs ∧ ((∃ c ∈ cs, rho < c) → rho < rho' ∧ ∀ c ∈ cs, rho < c → rho' ≤ c) ∧
      ((∀ c ∈ cs, c ≤ rho) → ∀ c ∈ cs, rho' ≤ c) := by
  have hasc : (candidateHandles kPoll inputs).Pairwise (· < ·) :=
    hd.sublist ((List.filter_sublist).map AllocIn.handle)
  have horder := candidateOrder_handles kPoll rho inputs
  have hptr := allocate_pointer kPoll rho capacity inputs
  rw [if_neg (Nat.not_lt.2 hs)] at hptr
  cases ho : candidateOrder kPoll rho inputs with
  | nil =>
    rw [ho, List.map_nil] at horder
    obtain ⟨hup, hdown⟩ := List.append_eq_nil_iff.1 horder.symm
    obtain ⟨c, hcm⟩ := List.exists_mem_of_ne_nil _ hc
    have h1 := List.filter_eq_nil_iff.1 hup c hcm
    have h2 := List.filter_eq_nil_iff.1 hdown c hcm
    simp only [decide_eq_true_eq] at h1 h2
    omega
  | cons r rs =>
    rw [ho] at hptr horder
    intro rho' cs
    have hr : rho' = r.input.handle := hptr
    rw [hr]
    exact rotated_first rho cs hasc _ _ horder.symm

end Sys2Proof.Machine
end

section
/-! PROOFS. The RANGE arbiter (R19, R20), the windows of a map by kind and handle (R3, R8), and obligation O13. -/

namespace Sys2Proof.Machine

/-! ### The requesters (R19, R20) -/

/-- What R20 asks of every requester: no RANGE window outstanding, and no hold but DRIFT. -/
def State.rangeFree (s : State) (h : Nat) : Prop :=
  s.rangeOutstanding h = false ∧ (s.entry h).holds.hunt = false ∧ (s.entry h).holds.rogue = false ∧
    (s.entry h).holds.manager = false

theorem darken_eq_false (x : Holds) : x.darken = false ↔ x.hunt = false ∧ x.rogue = false ∧ x.manager = false := by
  rw [Holds.darken, Bool.or_eq_false_iff, Bool.or_eq_false_iff, and_assoc]

theorem requester_iff (s : State) (cls h : Nat) :
    s.requester cls h = true ↔ s.rangeFree h ∧ s.requesterClass h = some cls := by
  rw [State.requester, Bool.and_eq_true, Bool.and_eq_true, decide_eq_true_eq, Bool.not_eq_true', Bool.not_eq_true',
    darken_eq_false, State.rangeFree]
  tauto

/-- An entry has one class at most. -/
theorem requester_class_unique {s : State} {a b h : Nat} (ha : s.requester a h = true) (hb : s.requester b h = true) :
    a = b :=
  Option.some.inj (((requester_iff s a h).1 ha).2.symm.trans ((requester_iff s b h).1 hb).2)

/-- Waiting for its first burst in a handover (R132). -/
def Entry.awaitsBurst (e : Entry) : Prop := e.state = .arriving ∧ ∀ c, e.handover = some c → c.burstInHand = false

/-- In its re-range (R94). -/
def State.ranged (s : State) (h : Nat) : Prop := (s.entry h).holds.drift = true ∧ (s.drift h).phase ≠ .off

/-- The classes in their order. -/
theorem requesterClass_cases (s : State) (h : Nat) :
    ((s.entry h).awaitsBurst ∧ s.requesterClass h = some 1) ∨
    ((s.entry h).state = .confirming ∧ s.requesterClass h = some 2) ∨
    (¬(s.entry h).awaitsBurst ∧ (s.entry h).state ≠ .confirming ∧ s.ranged h ∧ s.requesterClass h = some 3) ∨
    (¬s.ranged h ∧ (s.entry h).state = .lost ∧ (s.entry h).recontact = 16 ∧ s.requesterClass h = some 4) ∨
    (¬(s.entry h).awaitsBurst ∧ (s.entry h).state ≠ .confirming ∧ ¬s.ranged h ∧
      ¬((s.entry h).state = .lost ∧ (s.entry h).recontact = 16) ∧ s.requesterClass h = none) := by
  have hawaits : (s.entry h).awaitsBurst ↔ (s.entry h).state = .arriving ∧
      ((s.entry h).handover.all fun c => c.burstInHand = false) = true := by
    refine and_congr_right fun _ => ?_
    cases (s.entry h).handover <;> simp
  rw [hawaits]
  unfold State.requesterClass State.ranged Config.recontactMaps
  dsimp only
  by_cases h1 : (s.entry h).state = .arriving ∧ ((s.entry h).handover.all fun c => c.burstInHand = false) = true
  · exact .inl ⟨h1, if_pos h1⟩
  rw [if_neg h1]
  by_cases h2 : (s.entry h).state = .confirming
  · exact .inr (.inl ⟨h2, if_pos h2⟩)
  rw [if_neg h2]
  by_cases h3 : (s.entry h).holds.drift = true ∧ (s.drift h).phase ≠ .off
  · exact .inr (.inr (.inl ⟨h1, h2, h3, if_pos h3⟩))
  rw [if_neg h3]
  by_cases h4 : (s.entry h).state = .lost ∧ (s.entry h).recontact = 16
  · exact .inr (.inr (.inr (.inl ⟨h3, h4.1, h4.2, if_pos h4⟩)))
  · exact .inr (.inr (.inr (.inr ⟨h1, h2, h3, h4, if_neg h4⟩)))

theorem requester_one (s : State) (h : Nat) : s.requester 1 h = true ↔ s.rangeFree h ∧ (s.entry h).awaitsBurst := by
  rw [requester_iff]
  refine and_congr_right fun _ => ?_
  rcases requesterClass_cases s h with ⟨h1, hc⟩ | ⟨h2, hc⟩ | ⟨h1, -, -, hc⟩ | ⟨-, h4, -, hc⟩ | ⟨h1, -, -, -, hc⟩ <;> rw [hc]
  · exact iff_of_true rfl h1
  · exact iff_of_false (by decide) fun ha => by rw [ha.1] at h2; cases h2
  · exact iff_of_false (by decide) h1
  · exact iff_of_false (by decide) fun ha => by rw [ha.1] at h4; cases h4
  · exact iff_of_false (by decide) h1

theorem requester_two (s : State) (h : Nat) :
    s.requester 2 h = true ↔ s.rangeFree h ∧ (s.entry h).state = .confirming := by
  rw [requester_iff]
  refine and_congr_right fun _ => ?_
  rcases requesterClass_cases s h with ⟨h1, hc⟩ | ⟨h2, hc⟩ | ⟨-, h2, -, hc⟩ | ⟨-, h4, -, hc⟩ | ⟨-, h2, -, -, hc⟩ <;> rw [hc]
  · exact iff_of_false (by decide) fun h2 => by rw [h1.1] at h2; cases h2
  · exact iff_of_true rfl h2
  · exact iff_of_false (by decide) h2
  · exact iff_of_false (by decide) fun h2 => by rw [h4] at h2; cases h2
  · exact iff_of_false (by decide) h2

theorem requester_three (s : State) (h : Nat) : s.requester 3 h = true ↔
    s.rangeFree h ∧ s.ranged h ∧ s.requester 1 h = false ∧ s.requester 2 h = false := by
  rw [← Bool.not_eq_true, ← Bool.not_eq_true, requester_one, requester_two, requester_iff]
  refine and_congr_right fun hf => ?_
  rcases requesterClass_cases s h with ⟨h1, hc⟩ | ⟨h2, hc⟩ | ⟨h1, h2, h3, hc⟩ | ⟨h3, -, -, hc⟩ | ⟨-, -, h3, -, hc⟩ <;> rw [hc]
  · exact iff_of_false (by decide) fun ⟨_, hn, _⟩ => hn ⟨hf, h1⟩
  · exact iff_of_false (by decide) fun ⟨_, _, hn⟩ => hn ⟨hf, h2⟩
  · exact iff_of_true rfl ⟨h3, fun h => h1 h.2, fun h => h2 h.2⟩
  · exact iff_of_false (by decide) fun h => h3 h.1
  · exact iff_of_false (by decide) fun h => h3 h.1

theorem requester_four (s : State) (h : Nat) : s.requester 4 h = true ↔
    s.rangeFree h ∧ ¬s.ranged h ∧ (s.entry h).state = .lost ∧ (s.entry h).recontact = 16 := by
  rw [requester_iff]
  refine and_congr_right fun _ => ?_
  rcases requesterClass_cases s h with ⟨h1, hc⟩ | ⟨h2, hc⟩ | ⟨-, -, h3, hc⟩ | ⟨h3, h4, h5, hc⟩ | ⟨-, -, -, h4, hc⟩ <;> rw [hc]
  · exact iff_of_false (by decide) fun ⟨_, hl, _⟩ => by rw [h1.1] at hl; cases hl
  · exact iff_of_false (by decide) fun ⟨_, hl, _⟩ => by rw [h2] at hl; cases hl
  · exact iff_of_false (by decide) fun h => h.1 h3
  · exact iff_of_true rfl ⟨h3, h4, h5⟩
  · exact iff_of_false (by decide) fun h => h4 h.2

theorem requester_class_range {s : State} {c h : Nat} (hr : s.requester c h = true) : 1 ≤ c ∧ c ≤ 4 := by
  have hc := ((requester_iff s c h).1 hr).2
  rcases requesterClass_cases s h with ⟨-, h1⟩ | ⟨-, h1⟩ | ⟨-, -, -, h1⟩ | ⟨-, -, -, h1⟩ | ⟨-, -, -, -, h1⟩ <;>
    (rw [h1] at hc; cases hc)
  all_goals decide

/-! ### The arbiter (R19) -/

/-- The order of service: by class, and by handle within a class. -/
def State.servedBefore (s : State) (k h : Nat) : Prop :=
  ∃ a b, s.requester a k = true ∧ s.requester b h = true ∧ (a < b ∨ a = b ∧ k < h)

theorem servedBefore_ne {s : State} {k h : Nat} (hb : s.servedBefore k h) : k ≠ h := by
  rintro rfl
  obtain ⟨a, b, ha, hb, hlt⟩ := hb
  have := requester_class_unique ha hb
  omega

/-- All requesters, in the order of service. -/
def State.requesters (s : State) : List Nat := [1, 2, 3, 4].flatMap fun cls => handles.filter fun h => s.requester cls h

theorem mem_requesters (s : State) (h : Nat) : h ∈ s.requesters ↔ h ∈ handles ∧ ∃ c, s.requester c h = true := by
  simp only [State.requesters, List.mem_flatMap, List.mem_filter]
  constructor
  · rintro ⟨c, -, hh, hr⟩
    exact ⟨hh, c, hr⟩
  · rintro ⟨hh, c, hr⟩
    have hc := requester_class_range hr
    exact ⟨c, by simp only [List.mem_cons, List.not_mem_nil]; omega, hh, hr⟩

theorem requesters_ordered (s : State) : s.requesters.Pairwise s.servedBefore := by
  refine List.pairwise_flatMap.2 ⟨fun c _ => ?_, ?_⟩
  · have hasc : (handles.filter fun h => s.requester c h).Pairwise (· < ·) := (List.pairwise_lt_range' (s := 1) (n := 64)).filter _
    refine hasc.imp_of_mem fun hk hh hlt => ?_
    exact ⟨c, c, (List.mem_filter.1 hk).2, (List.mem_filter.1 hh).2, .inr ⟨rfl, hlt⟩⟩
  · have hasc : [1, 2, 3, 4].Pairwise (· < ·) := by decide
    refine hasc.imp fun hlt k hk h hh => ?_
    exact ⟨_, _, (List.mem_filter.1 hk).2, (List.mem_filter.1 hh).2, .inl hlt⟩

theorem rangeServed_eq (s : State) : s.rangeServed = s.requesters.take 2 := rfl

theorem rangeServed_length (s : State) : s.rangeServed.length ≤ 2 := List.length_take_le 2 _

theorem rangeServed_ordered (s : State) : s.rangeServed.Pairwise s.servedBefore :=
  (requesters_ordered s).sublist (List.take_sublist 2 _)

theorem rangeServed_nodup (s : State) : s.rangeServed.Nodup := (rangeServed_ordered s).imp servedBefore_ne

theorem mem_rangeServed (s : State) (h : Nat) (hs : h ∈ s.rangeServed) : h ∈ handles ∧ ∃ c, s.requester c h = true :=
  (mem_requesters s h).1 (List.mem_of_mem_take hs)

/-- A requester that waits stands behind two that are served. -/
theorem rangeServed_first (s : State) (h : Nat) (hh : h ∈ handles) (hno : h ∉ s.rangeServed)
    (hr : ∃ c, s.requester c h = true) : s.rangeServed.length = 2 ∧ ∀ k ∈ s.rangeServed, s.servedBefore k h := by
  have hsplit := List.take_append_drop 2 s.requesters
  have hmem := (mem_requesters s h).2 ⟨hh, hr⟩
  rw [← hsplit] at hmem
  have hdrop := (List.mem_append.1 hmem).resolve_left hno
  have hord := requesters_ordered s
  rw [← hsplit] at hord
  refine ⟨?_, fun k hk => (List.pairwise_append.1 hord).2.2 k hk h hdrop⟩
  have hpos := List.length_pos_of_mem hdrop
  rw [List.length_drop] at hpos
  rw [rangeServed_eq, List.length_take]
  omega

/-! ### Eligible entries (R68, R70) -/

theorem mem_allocInputs (s : State) (i : AllocIn) (hi : i ∈ s.allocInputs) :
    (s.entry i.handle).eligible = true ∧ s.starved i.handle = false ∧ i.handle ∈ handles ∧
      i.assuredCap = s.assuredCap i.handle ∧ i.peakCap = s.peakCap i.handle := by
  obtain ⟨h, hh, rfl⟩ := List.mem_map.1 hi
  obtain ⟨hmem, hcond⟩ := List.mem_filter.1 hh
  obtain ⟨he, hst⟩ := of_decide_eq_true hcond
  exact ⟨he, hst, hmem, rfl, rfl⟩

theorem allocInputs_handles (s : State) : s.allocInputs.map AllocIn.handle =
    handles.filter fun h => (s.entry h).eligible = true ∧ s.starved h = false := by
  rw [State.allocInputs, List.map_map]
  exact List.map_id _

theorem allocInputs_ascending (s : State) : (s.allocInputs.map AllocIn.handle).Pairwise (· < ·) := by
  rw [allocInputs_handles]
  exact (List.pairwise_lt_range' (s := 1) (n := 64)).filter _

/-- The window of an allocation is that of an eligible entry. -/
theorem allocation_mem (s : State) (n : CycleNo) (p : Nat × Nat) (hp : p ∈ (s.allocation n).1) :
    4 ≤ p.2 ∧ ∃ i ∈ s.allocInputs, i.handle = p.1 ∧
      p.2 ≤ max (stage1 s.img.kPoll i) (min i.demand i.peakCap) := by
  obtain ⟨hfour, i, hi, hh, -, hle⟩ := allocate_payload _ _ _ _ (allocInputs_ascending s) p hp
  exact ⟨hfour, i, hi, hh, hle⟩

theorem eligible_iff (e : Entry) : e.eligible = true ↔ e.state.served = true ∧ e.holds = Holds.clear := by
  rcases hx : e.holds with ⟨hunt, rogue, drift, manager⟩
  simp only [Entry.eligible, Bool.and_eq_true, Bool.not_eq_true', hx, Holds.any, Bool.or_eq_false_iff, Holds.clear,
    Holds.mk.injEq, and_assoc]

/-- A requester gets no DATA window: it is not served, or it has the DRIFT hold. -/
theorem requester_not_eligible (s : State) (c h : Nat) (hr : s.requester c h = true) : (s.entry h).eligible ≠ true := by
  intro he
  obtain ⟨hserved, hclear⟩ := (eligible_iff _).1 he
  have hc := ((requester_iff s c h).1 hr).2
  rcases requesterClass_cases s h with ⟨h1, -⟩ | ⟨h2, -⟩ | ⟨-, -, h3, -⟩ | ⟨-, h4, -, -⟩ | ⟨-, -, -, -, h5⟩
  · rw [h1.1] at hserved; cases hserved
  · rw [h2] at hserved; cases hserved
  · rw [State.ranged, hclear] at h3; cases h3.1
  · rw [h4] at hserved; cases hserved
  · rw [h5] at hc; cases hc

/-! ### The windows of a map (R3, R8) -/

theorem windowList_plan (s : State) (n : CycleNo) : (s.windowList n).map Window.plan = s.planned n := layOut_plan _ _ _

/-- The handles of the planned windows, those of DISCOVER and QUIET being 0. -/
theorem planned_handles (s : State) (n : CycleNo) : ∃ zeros : List Nat, (∀ k ∈ zeros, k = 0) ∧
    (s.planned n).map (fun w => w.2.1) = zeros ++ (s.rangeServed ++ (s.allocation n).1.map Prod.fst) := by
  refine ⟨((if s.discoverDue n then [(WindowKind.discover, 0, s.img.wDisc)] else []) ++
    (if s.quietDue n then [(WindowKind.quiet, 0, s.img.qLen)] else [])).map fun w : Planned => w.2.1, ?_, ?_⟩
  · split_ifs <;> simp
  · have hid : (s.rangeServed.map fun h => (WindowKind.range, h, Config.rangeWords)).map (fun w => w.2.1) = s.rangeServed := by
      rw [List.map_map]
      exact List.map_id _
    rw [State.planned, State.fixedWindows, List.map_append, List.map_append, hid, List.append_assoc, List.map_map]
    rfl

theorem rangeServed_allocation_disjoint (s : State) (n : CycleNo) (h : Nat) (hr : h ∈ s.rangeServed) :
    h ∉ (s.allocation n).1.map Prod.fst := by
  intro hd
  obtain ⟨p, hp, rfl⟩ := List.mem_map.1 hd
  obtain ⟨-, c, hc⟩ := mem_rangeServed s _ hr
  obtain ⟨-, i, hi, hh, -⟩ := allocation_mem s n p hp
  obtain ⟨he, -⟩ := mem_allocInputs s i hi
  exact requester_not_eligible s c p.1 hc (hh ▸ he)

/-- A handle has one window at most. -/
theorem window_of_handle (s : State) (n : CycleNo) (h : Nat) (hh : 1 ≤ h) :
    ((s.windowList n).filter fun w => w.handle = h).length ≤ 1 := by
  obtain ⟨zeros, hz, hp⟩ := planned_handles s n
  have hcount : ((s.windowList n).filter fun w => w.handle = h).length =
      (((s.planned n).map fun w => w.2.1).filter fun k => k = h).length := by
    rw [← windowList_plan, List.map_map, List.filter_map, List.length_map]
    rfl
  have hnozero : (zeros.filter fun k => k = h) = [] := by
    refine List.filter_eq_nil_iff.2 fun k hk heq => ?_
    have := hz k hk
    have := of_decide_eq_true heq
    omega
  have hnodup : (s.rangeServed ++ (s.allocation n).1.map Prod.fst).Nodup :=
    List.nodup_append.2 ⟨rangeServed_nodup s, (allocate_ascending _ _ _ _).imp fun h => Nat.ne_of_lt h,
      fun a ha b hb he => rangeServed_allocation_disjoint s n a ha (he ▸ hb)⟩
  have hone := List.nodup_iff_count_le_one.1 hnodup h
  rw [hcount, hp, List.filter_append, hnozero, List.nil_append]
  rw [List.count_eq_length_filter] at hone
  exact hone

/-- A window names a requester served, or an eligible entry. -/
theorem window_handle (s : State) (n : CycleNo) (w : Window) (hw : w ∈ s.windowList n) (hh : 1 ≤ w.handle) :
    w.handle ∈ s.rangeServed ∨ ∃ p ∈ (s.allocation n).1, p.1 = w.handle := by
  obtain ⟨zeros, hz, hp⟩ := planned_handles s n
  have hmem : w.handle ∈ (s.planned n).map fun w => w.2.1 := by
    rw [← windowList_plan, List.map_map]
    exact List.mem_map.2 ⟨w, hw, rfl⟩
  rw [hp] at hmem
  rcases List.mem_append.1 hmem with h0 | hmem
  · have := hz _ h0
    omega
  · exact (List.mem_append.1 hmem).imp_right fun hd => List.mem_map.1 hd

/-- No window is given to a darkened home (R8). -/
theorem window_not_dark (s : State) (n : CycleNo) (w : Window) (hw : w ∈ s.windowList n) (hh : 1 ≤ w.handle) :
    w.handle ∉ s.darkList := by
  intro hd
  have hdark : (s.entry w.handle).holds.darken = true := (of_decide_eq_true (List.mem_filter.1 hd).2).2
  suffices hno : (s.entry w.handle).holds.darken = false by
    rw [hdark] at hno
    cases hno
  rcases window_handle s n w hw hh with hr | ⟨p, hp, he⟩
  · obtain ⟨-, c, hc⟩ := mem_rangeServed s _ hr
    exact (darken_eq_false _).2 ((requester_iff s c _).1 hc).1.2
  · obtain ⟨-, i, hi, hih, -⟩ := allocation_mem s n p hp
    obtain ⟨hel, -⟩ := mem_allocInputs s i hi
    rw [hih, he] at hel
    rw [((eligible_iff _).1 hel).2]
    rfl

/-- The planned windows of one kind. -/
theorem planned_kind (s : State) (n : CycleNo) (kind : WindowKind) :
    ((s.planned n).filter fun w => w.1 = kind) = match kind with
      | .discover => if s.discoverDue n then [(.discover, 0, s.img.wDisc)] else []
      | .quiet => if s.quietDue n then [(.quiet, 0, s.img.qLen)] else []
      | .range => s.rangeServed.map fun h => (.range, h, Config.rangeWords)
      | .data => (s.allocation n).1.map fun p => (.data, p.1, p.2 + Config.overheadWords) := by
  rw [State.planned, State.fixedWindows, List.filter_append, List.filter_append, List.filter_append, List.filter_map,
    List.filter_map]
  cases kind <;> split_ifs <;> simp [Function.comp_def]

theorem windowList_kind (s : State) (n : CycleNo) (kind : WindowKind) :
    ((s.windowList n).filter fun w => w.kind = kind).map Window.plan = (s.planned n).filter fun w => w.1 = kind := by
  rw [← windowList_plan, List.filter_map]
  rfl

theorem windowList_discover (s : State) (n : CycleNo) :
    ((s.windowList n).filter fun w => w.kind = .discover).length ≤ 1 := by
  have h := congrArg List.length ((windowList_kind s n .discover).trans (planned_kind s n .discover))
  rw [List.length_map] at h
  rw [h]
  dsimp only
  split_ifs <;> simp

theorem windowList_quiet (s : State) (n : CycleNo) : ((s.windowList n).filter fun w => w.kind = .quiet).length ≤ 1 := by
  have h := congrArg List.length ((windowList_kind s n .quiet).trans (planned_kind s n .quiet))
  rw [List.length_map] at h
  rw [h]
  dsimp only
  split_ifs <;> simp

theorem windowList_range (s : State) (n : CycleNo) :
    ((s.windowList n).filter fun w => w.kind = .range).map (fun w => (w.handle, w.length)) =
      s.rangeServed.map fun h => (h, 64) := by
  have h := congrArg (List.map Prod.snd) ((windowList_kind s n .range).trans (planned_kind s n .range))
  rw [List.map_map, List.map_map] at h
  exact h

/-! ### O13 -/

theorem stage2_arbitrated (s0 : Nat) (order : List Grant) :
    (stage2 s0 order).map (fun r => (r.input, r.g)) = order.map (fun r => (r.input, r.g)) ∧
    (∀ r ∈ stage2 s0 order, r.x = passA s0 (weightOf order) r ∧ r.x + r.y ≤ r.need ∧
      (r.g = 0 → r.x + r.y = 0 ∨ 4 ≤ r.x + r.y)) ∧
    (∀ pre r post, stage2 s0 order = pre ++ r :: post →
      r.y = passB (s0 - ((stage2 s0 order).map Grant.costA).sum - (pre.map Grant.costB).sum) r) ∧
    ((stage2 s0 order).map Grant.costA).sum + ((stage2 s0 order).map Grant.costB).sum ≤ s0 := by
  refine ⟨stage2_inputs s0 order, fun r hr => ⟨(mem_stage2 s0 order r hr).1, stage2_grant s0 order r hr⟩,
    fun pre r post he => ?_, stage2_cost s0 order⟩
  rw [stage2_costA]
  exact runPassB_falls _ _ pre r post he

/-- Settles O13: the windows by kind and handle from the plan, the arbiter from its ordered list of requesters, and the allocation from the costs of its grants. -/
theorem mapArbitrated : Obligations.MapArbitrated := by
  unfold Obligations.MapArbitrated
  refine ⟨fun s n => ?windows, fun s h => ?classes, fun s => ?arbiter, fun s0 order _ => ?passes,
    fun kPoll rho capacity inputs hd hh hfit => ?allocation⟩
  case windows =>
    exact ⟨windowList_discover s n, windowList_quiet s n, windowList_range s n, window_of_handle s n, window_not_dark s n⟩
  case classes =>
    exact ⟨requester_one s h, requester_two s h, requester_three s h, requester_four s h, fun c => requester_class_range⟩
  case arbiter =>
    exact ⟨rangeServed_length s, rangeServed_ordered s, mem_rangeServed s, rangeServed_first s⟩
  case passes =>
    exact stage2_arbitrated s0 order
  case allocation =>
    rw [← spareWords_eq]
    refine ⟨fun h => ⟨allocate_pointer_stands kPoll rho capacity inputs h, fun i hi hg => ?_⟩,
      fun hs hc => allocate_pointer_moves kPoll rho capacity inputs hd hs hc,
      allocate_ascending kPoll rho capacity inputs, allocate_payload kPoll rho capacity inputs hd,
      allocate_cost kPoll rho capacity inputs hd hfit⟩
    exact mem_allocate kPoll rho capacity inputs hd (Grant.start kPoll i)
      (finalGrants_stage1 kPoll rho capacity inputs h i hi) (hh i hi) (Nat.pos_of_ne_zero hg)

end Sys2Proof.Machine
end

section
/-! PROOFS. The cost of a map against the cycle (R71, R74, R81), and obligation O12. -/

namespace Sys2Proof.Machine

/-! ### The fixed windows and the admission floor (R71, R81) -/

theorem planCost_range (hs : List Nat) :
    planCost (hs.map fun h => (WindowKind.range, h, Config.rangeWords)) = hs.length * 68 := by
  induction hs with
  | nil => rfl
  | cons h hs ih =>
    rw [List.map_cons, planCost_cons, ih, List.length_cons]
    simp only [Config.rangeWords]
    omega

/-- The fixed windows cost no more than the floor sets aside for them. -/
theorem fixedWindows_cost (s : State) (n : CycleNo) :
    planCost (s.fixedWindows n) ≤ (s.img.wDisc + 4) + (s.img.qLen + 4) + 2 * 68 := by
  have hd : planCost (if s.discoverDue n then [(.discover, 0, s.img.wDisc)] else []) ≤ s.img.wDisc + 4 := by
    split_ifs <;> simp [planCost, Config.guardWords]
  have hq : planCost (if s.quietDue n then [(.quiet, 0, s.img.qLen)] else []) ≤ s.img.qLen + 4 := by
    split_ifs <;> simp [planCost, Config.guardWords]
  have hr := planCost_range s.rangeServed
  have hlen := rangeServed_length s
  rw [State.fixedWindows, planCost_append, planCost_append]
  omega

theorem fixedWindows_length (s : State) (n : CycleNo) : (s.fixedWindows n).length ≤ 4 := by
  have hlen := rangeServed_length s
  rw [State.fixedWindows, List.length_append, List.length_append, List.length_map]
  split_ifs <;> simp only [List.length_cons, List.length_nil] <;> omega

/-- What the fixed windows cost and the capacity for data make up the cycle. -/
theorem dataCapacity_split (s : State) (n : CycleNo) (hf : s.img.Fits) :
    planCost (s.fixedWindows n) + s.dataCapacity n = 10000 := by
  have hcost := fixedWindows_cost s n
  obtain ⟨hw, hq⟩ := hf
  simp only [State.dataCapacity, Config.cycleWords]
  omega

theorem admissionFloor_le_capacity (s : State) (n : CycleNo) (hf : s.img.Fits) :
    admissionFloor s.img ≤ s.dataCapacity n := by
  have hcost := fixedWindows_cost s n
  have hsplit := dataCapacity_split s n hf
  obtain ⟨hw, hq⟩ := hf
  simp only [admissionFloor, Config.cycleWords, Config.guardWords, Config.rangeWords]
  omega

/-! ### Stage 1 fits (R74) -/

theorem assuredCap_le (s : State) (h : Nat) : s.assuredCap h ≤ (s.entry h).prof.assured := by
  unfold State.assuredCap
  split_ifs
  · exact Nat.min_le_left _ _
  · exact Nat.le_refl _

theorem bookedTerm_eligible (e : Entry) (he : e.eligible = true) : e.bookedTerm = max e.prof.assured 4 + 16 := by
  rw [Entry.bookedTerm, if_pos (booked_of_served _ ((eligible_iff e).1 he).1)]
  rfl

/-- The stage-1 grant of an eligible entry costs no more than its term of the booked sum. -/
theorem stage1_cost (s : State) (i : AllocIn) (he : (s.entry i.handle).eligible = true)
    (ha : i.assuredCap = s.assuredCap i.handle) :
    grantCost 0 (stage1 s.img.kPoll i) ≤ (s.entry i.handle).bookedTerm := by
  have hle := stage1_le s.img.kPoll i
  have hcap := assuredCap_le s i.handle
  rw [bookedTerm_eligible _ he, grantCost, if_pos rfl]
  simp only [Config.dataCost]
  split_ifs <;> omega

theorem stage1_fits (s : State) (n : CycleNo) (hf : s.img.Fits)
    (hb : (handles.map fun h => (s.entry h).bookedTerm).sum ≤ admissionFloor s.img) :
    (s.allocInputs.map fun i => grantCost 0 (stage1 s.img.kPoll i)).sum ≤ s.dataCapacity n := by
  have hsub : (s.allocInputs.map AllocIn.handle).Sublist handles := by
    rw [allocInputs_handles]
    exact List.filter_sublist
  calc (s.allocInputs.map fun i => grantCost 0 (stage1 s.img.kPoll i)).sum
      ≤ (s.allocInputs.map fun i => (s.entry i.handle).bookedTerm).sum := by
        refine List.sum_le_sum fun i hi => ?_
        obtain ⟨he, -, -, ha, -⟩ := mem_allocInputs s i hi
        exact stage1_cost s i he ha
    _ = ((s.allocInputs.map AllocIn.handle).map fun h => (s.entry h).bookedTerm).sum := by
        rw [List.map_map]
        rfl
    _ ≤ (handles.map fun h => (s.entry h).bookedTerm).sum :=
        (hsub.map _).sum_le_sum fun _ _ => Nat.zero_le _
    _ ≤ admissionFloor s.img := hb
    _ ≤ s.dataCapacity n := admissionFloor_le_capacity s n hf

/-! ### The whole plan -/

theorem planCost_data (ps : List (Nat × Nat)) :
    planCost (ps.map fun p => (WindowKind.data, p.1, p.2 + Config.overheadWords)) = (ps.map fun p => p.2 + 16).sum := by
  rw [planCost, List.map_map]
  rfl

/-- The planned windows, each with its guard, cost no more than the cycle has words. -/
theorem planned_cost (s : State) (n : CycleNo) (hf : s.img.Fits)
    (hb : (handles.map fun h => (s.entry h).bookedTerm).sum ≤ admissionFloor s.img) :
    planCost (s.planned n) ≤ 10000 := by
  have hdata := allocate_cost s.img.kPoll s.ua.rho (s.dataCapacity n) s.allocInputs (allocInputs_ascending s)
    (stage1_fits s n hf hb)
  have hsplit := dataCapacity_split s n hf
  rw [State.planned, planCost_append, planCost_data, State.allocation]
  omega

theorem allocation_length (s : State) (n : CycleNo) : (s.allocation n).1.length ≤ 64 :=
  (List.length_filter_le _ _).trans (by rw [List.length_map]; rfl)

theorem windowList_length (s : State) (n : CycleNo) : (s.windowList n).length ≤ 96 := by
  have hfixed := fixedWindows_length s n
  have hdata := allocation_length s n
  have hplan := congrArg List.length (windowList_plan s n)
  rw [List.length_map, State.planned, List.length_append, List.length_map] at hplan
  omega

/-! ### The DATA windows (R68, R70) -/

/-- A DATA window carries the payload of its grant beyond the overhead (R79). -/
theorem data_window (s : State) (n : CycleNo) (w : Window) (hw : w ∈ s.windowList n) (hk : w.kind = .data) :
    ∃ p ∈ (s.allocation n).1, w.handle = p.1 ∧ w.length = p.2 + 12 := by
  have hmem : w.plan ∈ (s.planned n).filter fun w => w.1 = .data := by
    rw [← windowList_kind]
    exact List.mem_map_of_mem (List.mem_filter.2 ⟨hw, decide_eq_true hk⟩)
  rw [planned_kind] at hmem
  obtain ⟨p, hp, he⟩ := List.mem_map.1 hmem
  obtain ⟨-, hrest⟩ := Prod.mk.inj he
  obtain ⟨hh, hl⟩ := Prod.mk.inj hrest
  exact ⟨p, hp, hh.symm, hl.symm⟩

/-- An exhausted account caps the payload at L (R70). -/
theorem payload_exhausted (s : State) (i : AllocIn) (hi : i ∈ s.allocInputs) (hx : s.exhausted i.handle = true) :
    max (stage1 s.img.kPoll i) (min i.demand i.peakCap) ≤ s.img.lifeline := by
  obtain ⟨-, hst, -, ha, hp⟩ := mem_allocInputs s i hi
  have hle := stage1_le s.img.kPoll i
  rw [State.assuredCap, if_pos hx] at ha
  rw [State.peakCap, if_pos hx] at hp
  rw [State.starved, hx, Bool.true_and, decide_eq_false_iff_not] at hst
  simp only [Config.minPayload] at hst
  omega

/-- Settles O12: the cost of the plan against the cycle, and the inputs of the allocation. -/
theorem mapFits : Obligations.MapFits := by
  unfold Obligations.MapFits
  refine ⟨fun s n hf hb => ⟨layOut_apart _ _ _, windowList_length s n, fun w hw => ?_⟩, fun s n w hw hk => ?_⟩
  · have hend := layOut_within _ _ _ w hw
    have hcost := planned_cost s n hf hb
    omega
  · obtain ⟨p, hp, hh, hl⟩ := data_window s n w hw hk
    obtain ⟨hfour, i, hi, hih, hle⟩ := allocation_mem s n p hp
    rw [hh, ← hih]
    obtain ⟨he, hst, -⟩ := mem_allocInputs s i hi
    obtain ⟨hserved, hclear⟩ := (eligible_iff _).1 he
    refine ⟨hclear, hserved, hst, by omega, fun hx => ?_⟩
    have hcap := payload_exhausted s i hi hx
    omega

end Sys2Proof.Machine
end

section
/-! PROOFS. What the shared operations do to the counts of `CountsInv`: none leaves its range, and none adds a result. -/

namespace Sys2Proof.Machine

/-! ### The counts of an entry -/

/-- The counts of an entry are in their ranges (R23, R35, R37, R39, R60, R91, R94). -/
def Entry.Counted (e : Entry) : Prop :=
  e.idle ≤ 255 ∧ e.reRangeIdle ≤ 255 ∧ e.missed ≤ 8 ∧ e.losses ≤ 255 ∧ e.misplaced ≤ 3 ∧ e.duplicates ≤ 255 ∧
    e.rangeAttempts ≤ 8 ∧ e.recontact ≤ 16

theorem free_counted : Entry.free.Counted := by simp [Entry.Counted, Entry.free]

theorem CountsInv.entry {s : State} (hi : CountsInv s) (h : Nat) : (s.entry h).Counted := hi.2.2.2.2.2.2 h

theorem post_counted {e : Entry} (he : e.Counted) (k : MsgKind) : (e.post k).Counted := by
  obtain ⟨m, b, hp⟩ := post_else e k
  rw [hp]
  exact he

theorem toActive_counted {e : Entry} (he : e.Counted) : e.toActive.Counted := by
  obtain ⟨-, hr, -, hl, hm, hd, -, -⟩ := he
  exact ⟨Nat.zero_le _, hr, Nat.zero_le _, hl, hm, hd, Nat.zero_le _, Nat.zero_le _⟩

theorem toLost_counted {e : Entry} (he : e.Counted) (time : Nat) : (e.toLost time).Counted := by
  obtain ⟨hi, -, -, -, -, hd, -, -⟩ := he
  exact ⟨hi, Nat.zero_le _, Nat.zero_le _, Nat.min_le_left _ _, Nat.zero_le _, hd, Nat.zero_le _, Nat.zero_le _⟩

theorem toClosing_counted {e : Entry} (he : e.Counted) (release : Bool) : (e.toClosing release).Counted := by
  unfold Entry.toClosing
  dsimp only
  split
  · refine post_counted ?_ _
    exact he
  · exact he

theorem misplaced_counted {e : Entry} (he : e.Counted) (m : Nat) (hm : m ≤ 3) :
    Entry.Counted { e with misplaced := m } := by
  obtain ⟨hi, hr, hmi, hl, -, hd, ha, hc⟩ := he
  exact ⟨hi, hr, hmi, hl, hm, hd, ha, hc⟩

theorem missed_counted {e : Entry} (he : e.Counted) (m : Nat) (hm : m ≤ 8) : Entry.Counted { e with missed := m } := by
  obtain ⟨hi, hr, -, hl, hmp, hd, ha, hc⟩ := he
  exact ⟨hi, hr, hm, hl, hmp, hd, ha, hc⟩

theorem rangeAttempts_counted {e : Entry} (he : e.Counted) (n : Nat) (hn : n ≤ 8) :
    Entry.Counted { e with rangeAttempts := n } := by
  obtain ⟨hi, hr, hm, hl, hmp, hd, -, hc⟩ := he
  exact ⟨hi, hr, hm, hl, hmp, hd, hn, hc⟩

theorem duplicates_counted {e : Entry} (he : e.Counted) (n : Nat) (hn : n ≤ 255) :
    Entry.Counted { e with duplicates := n } := by
  obtain ⟨hi, hr, hm, hl, hmp, -, ha, hc⟩ := he
  exact ⟨hi, hr, hm, hl, hmp, hn, ha, hc⟩

theorem recontact_counted {e : Entry} (he : e.Counted) (n : Nat) (hn : n ≤ 16) :
    Entry.Counted { e with recontact := n } := by
  obtain ⟨hi, hr, hm, hl, hmp, hd, ha, -⟩ := he
  exact ⟨hi, hr, hm, hl, hmp, hd, ha, hn⟩

theorem heard_counted {e : Entry} (he : e.Counted) (q : Nat) : (e.heard q).Counted := by
  obtain ⟨-, hr, hm, hl, hmp, hd, ha, hc⟩ := he
  refine ⟨Nat.zero_le _, hr, ?_, hl, hmp, hd, ha, hc⟩
  unfold Entry.heard
  dsimp only
  split
  · exact Nat.zero_le _
  · exact hm

theorem takeAck_counted {e : Entry} (he : e.Counted) (img : Image) (k : Option MsgKind) : (e.takeAck img k).Counted := by
  unfold Entry.takeAck
  split <;> exact he

theorem correct_counted {e : Entry} (he : e.Counted) (img : Image) (d : Int) : (e.correct img d).Counted := by
  unfold Entry.correct
  dsimp only
  split
  · exact he
  · exact post_counted he _

theorem advanceRecontact_counted {e : Entry} (he : e.Counted) : e.advanceRecontact.Counted := by
  unfold Entry.advanceRecontact
  split
  · exact recontact_counted he _ (Nat.min_le_left _ _)
  · exact he

theorem afterBuild_counted {e : Entry} (he : e.Counted) (n : CycleNo) (granted served : Bool) :
    (e.afterBuild n granted served).Counted := by
  unfold Entry.afterBuild
  split
  · exact he
  · obtain ⟨-, hr, hm, hl, hmp, hd, ha, hc⟩ := he
    refine ⟨?_, ?_, hm, hl, hmp, hd, ha, ?_⟩ <;> dsimp only <;> split
    · exact Nat.zero_le _
    · exact Nat.min_le_left _ _
    · exact Nat.min_le_left _ _
    · exact hr
    · exact Nat.zero_le _
    · exact hc

/-! ### Keeping the counts -/

/-- From s to t no result is added, and every count named by `CountsInv` stays in its range. -/
structure KeepsCounts (s t : State) : Prop where
  results : t.rq.results.length ≤ s.rq.results.length
  counts : CountsInv s → CountsInv t

theorem KeepsCounts.refl (s : State) : KeepsCounts s s := ⟨Nat.le_refl _, fun h => h⟩

theorem KeepsCounts.trans {s t u : State} (h : KeepsCounts s t) (k : KeepsCounts t u) : KeepsCounts s u :=
  ⟨Nat.le_trans k.results h.results, fun hi => k.counts (h.counts hi)⟩

theorem KeepsCounts.ite {s t u : State} {c : Prop} [Decidable c] (h : KeepsCounts s t) (k : KeepsCounts s u) :
    KeepsCounts s (if c then t else u) := by
  split
  · exact h
  · exact k

theorem KeepsCounts.foldl {α : Type} (f : State → α → State) (hf : ∀ s a, KeepsCounts s (f s a)) (s : State)
    (xs : List α) : KeepsCounts s (xs.foldl f s) := by
  induction xs generalizing s with
  | nil => exact KeepsCounts.refl s
  | cons x xs ih => exact (hf s x).trans (ih (f s x))

/-! ### Each write of the state -/

/-- A state whose counted fields are those of s. -/
theorem sameCounts_keeps {s t : State} (hring : t.cb.ring.length = s.cb.ring.length)
    (hcap : t.ee.captures.length = s.ee.captures.length) (hhist : t.lw.history = s.lw.history)
    (hvoid : t.slp.voidCount = s.slp.voidCount) (hres : t.rq.results = s.rq.results) (hev : t.rq.events = s.rq.events)
    (hent : ∀ h, t.entry h = s.entry h) : KeepsCounts s t := by
  refine ⟨Nat.le_of_eq (congrArg List.length hres), fun hi => ?_⟩
  unfold CountsInv
  simp only [hring, hcap, hhist, hvoid, hres, hev, hent]
  exact hi

theorem ReportsOnly.keeps {s t : State} (h : ReportsOnly s t) : KeepsCounts s t := by
  obtain ⟨_, _, _, rfl⟩ := h
  exact ⟨Nat.le_refl _, fun h => h⟩

theorem settle_keeps (s : State) : KeepsCounts s s.settle :=
  let o := settle_offered s
  sameCounts_keeps (congrArg (fun x => x.ring.length) o.cb) (congrArg (fun x => x.captures.length) o.ee)
    (congrArg (fun x => x.history) o.lw) o.voidCount o.results o.events o.entry

theorem setEntry_keeps (s : State) (h : Nat) (e : Entry) (he : (s.entry h).Counted → e.Counted) :
    KeepsCounts s (s.setEntry h e) := by
  refine ⟨Nat.le_refl _, fun hi => ?_⟩
  obtain ⟨hring, hcap, hhist, hvoid, hres, hev, hent⟩ := hi
  refine ⟨hring, hcap, hhist, hvoid, hres, hev, fun k => ?_⟩
  rw [entry_setEntry]
  split
  · exact he (hent h)
  · exact hent k

/-- The whole roster is written, entry by entry. -/
theorem mapRoster_keeps (s : State) (f : Nat → Entry → Entry) (hf : ∀ h e, e.Counted → (f h e).Counted) :
    KeepsCounts s { s with roster := tableMap f s.roster } := by
  refine ⟨Nat.le_refl _, fun hi => ?_⟩
  obtain ⟨hring, hcap, hhist, hvoid, hres, hev, hent⟩ := hi
  refine ⟨hring, hcap, hhist, hvoid, hres, hev, fun k => ?_⟩
  have hk : State.entry { s with roster := tableMap f s.roster } k =
      if 1 ≤ k ∧ k ≤ 64 then f k (s.entry k) else Entry.free := tableGet_tableMap f s.roster Entry.free k
  rw [hk]
  split
  · exact hf k _ (hent k)
  · exact free_counted

theorem setAcct_keeps (s : State) (h : Nat) (a : Option Account) : KeepsCounts s (s.setAcct h a) :=
  ⟨Nat.le_refl _, fun h => h⟩

theorem setDrift_keeps (s : State) (h : Nat) (d : Drift) : KeepsCounts s (s.setDrift h d) := ⟨Nat.le_refl _, fun h => h⟩

theorem setPhase_keeps (s : State) (h : Nat) (p : Phase) : KeepsCounts s (s.setPhase h p) := ⟨Nat.le_refl _, fun h => h⟩

theorem unbook_keeps (s : State) (h : Nat) : KeepsCounts s (s.unbook h) := ⟨Nat.le_refl _, fun h => h⟩

theorem markDead_keeps (s : State) (h : Nat) : KeepsCounts s (s.markDead h) := ⟨Nat.le_refl _, fun h => h⟩

theorem queueNotice_keeps (s : State) (n : Notice) : KeepsCounts s (s.queueNotice n) := ⟨Nat.le_refl _, fun h => h⟩

theorem withdraw_keeps (s : State) (test : Notice → Bool) : KeepsCounts s (s.withdraw test) := ⟨Nat.le_refl _, fun h => h⟩

theorem endConditions_keeps (s : State) (h : Nat) : KeepsCounts s (s.endConditions h) :=
  (endConditions_reportsOnly s h).keeps

theorem endCondition_keeps (s : State) (a : AlarmSource) : KeepsCounts s (s.endCondition a) :=
  (endCondition_reportsOnly s a).keeps

theorem raiseAlarm_keeps (s : State) (a : AlarmSource) (c : AlarmContent) : KeepsCounts s (s.raiseAlarm a c) :=
  (raiseAlarm_reportsOnly s a c).keeps

theorem startCredit_keeps (s : State) (h : Nat) : KeepsCounts s (s.startCredit h) := (startCredit_reportsOnly s h).keeps

theorem changeAcct_keeps (s : State) (h : Nat) (a : Account) : KeepsCounts s (s.changeAcct h a) :=
  (setAcct_keeps s h (some a)).trans (changeAcct_reportsOnly s h a).keeps

/-- An event is queued while fewer than 16 are (R184). -/
theorem pushEvent_keeps (s : State) (e : Event) : KeepsCounts s (s.pushEvent e) := by
  unfold State.pushEvent
  split
  next hlt =>
    refine ⟨Nat.le_refl _, fun hi => ?_⟩
    obtain ⟨hring, hcap, hhist, hvoid, hres, -, hent⟩ := hi
    refine ⟨hring, hcap, hhist, hvoid, hres, ?_, hent⟩
    rw [List.length_append]
    exact hlt
  next => exact ⟨Nat.le_refl _, fun h => h⟩

/-! ### Entries entering FREE, LOST, CLOSING and ACTIVE -/

theorem freeEntry_keeps (s : State) (h : Nat) : KeepsCounts s (s.freeEntry h) :=
  (unbook_keeps s h).trans <| (setEntry_keeps _ h _ fun _ => free_counted).trans <| (setAcct_keeps _ h none).trans <|
    (setDrift_keeps _ h Drift.clear).trans <| (markDead_keeps _ h).trans <| endConditions_keeps _ h

theorem enterLost_keeps (s : State) (h : Nat) : KeepsCounts s (s.enterLost h) :=
  (setEntry_keeps s h _ fun hc => toLost_counted hc _).trans <| (setPhase_keeps _ h .off).trans <|
    (endCondition_keeps _ _).trans <| raiseAlarm_keeps _ _ _

theorem enterClosing_keeps (s : State) (h : Nat) (kind : RecordKind) (release : Bool) :
    KeepsCounts s (s.enterClosing h kind release) :=
  (unbook_keeps s h).trans <| (setAcct_keeps _ h _).trans <|
    (setEntry_keeps _ h _ fun hc => toClosing_counted hc release).trans <| (setPhase_keeps _ h .off).trans <|
    endConditions_keeps _ h

theorem release_keeps (s : State) (h : Nat) (reason : ReleaseReason) (release : Bool) :
    KeepsCounts s (s.release h reason release) :=
  (enterClosing_keeps s h _ release).trans (pushEvent_keeps _ _)

theorem drainClose_keeps (s : State) (h : Nat) : KeepsCounts s (s.drainClose h) :=
  KeepsCounts.ite (enterClosing_keeps s h .restart true) (KeepsCounts.refl s)

theorem loseHome_keeps (s : State) (h : Nat) : KeepsCounts s (s.loseHome h) :=
  (enterLost_keeps s h).trans (drainClose_keeps _ h)

theorem setDriftHold_keeps (s : State) (h : Nat) : KeepsCounts s (s.setDriftHold h) := by
  refine (setEntry_keeps s h _ fun hc => ?_).trans <| (setPhase_keeps _ h .seeking).trans <| raiseAlarm_keeps _ _ _
  obtain ⟨hi, -, hm, hl, hmp, hd, -, hc⟩ := hc
  exact ⟨hi, hi, hm, hl, hmp, hd, Nat.zero_le _, hc⟩

theorem clearDriftHold_keeps (s : State) (h : Nat) : KeepsCounts s (s.clearDriftHold h) := by
  refine (setEntry_keeps s h _ fun hc => ?_).trans <| (setPhase_keeps _ h .off).trans <| endCondition_keeps _ _
  obtain ⟨-, hr, hm, hl, hmp, hd, ha, hc⟩ := hc
  exact ⟨hr, Nat.zero_le _, hm, hl, hmp, hd, ha, hc⟩

theorem countChoice_keeps (s : State) (n : Nat) : KeepsCounts s { s with choices := n } := ⟨Nat.le_refl _, fun h => h⟩

theorem returnActive_keeps (s : State) (h : Nat) : KeepsCounts s (s.returnActive h) := by
  have hact := setEntry_keeps s h (s.entry h).toActive toActive_counted
  have hdrift := hact.trans (setDriftHold_keeps _ h)
  unfold State.returnActive
  dsimp only
  split_ifs
  · exact hact.trans (drainClose_keeps _ h)
  · exact hdrift.trans (drainClose_keeps _ h)
  · exact hact.trans (loseHome_keeps _ h)
  · exact (hact.trans (loseHome_keeps _ h)).trans (countChoice_keeps _ _)
  · exact (hdrift.trans (loseHome_keeps _ h)).trans (countChoice_keeps _ _)

theorem clearHunt_keeps (s : State) : KeepsCounts s s.clearHunt := mapRoster_keeps s _ fun _ _ hc => hc

theorem endStray_keeps (s : State) : KeepsCounts s s.endStray := ⟨Nat.le_refl _, fun h => h⟩

theorem emptyHistory_keeps (s : State) : KeepsCounts s s.emptyHistory := by
  refine ⟨Nat.le_refl _, fun hi => ?_⟩
  obtain ⟨hring, hcap, -, hvoid, hres, hev, hent⟩ := hi
  exact ⟨hring, hcap, Nat.zero_le _, hvoid, hres, hev, hent⟩

theorem takeEntry_keeps (s : State) (h : Nat) (e : Entry) (he : e.Counted) : KeepsCounts s (s.takeEntry h e) :=
  (setEntry_keeps s h e fun _ => he).trans ⟨Nat.le_refl _, fun h => h⟩

/-- The reset values are in their ranges (R187). -/
theorem powerOn_keeps (s : State) (straps : Station) : KeepsCounts s (s.powerOn straps) := by
  refine ⟨Nat.zero_le _, fun _ => ⟨Nat.zero_le _, rfl, Nat.zero_le _, Nat.zero_le _, Nat.zero_le _,
    Nat.zero_le _, fun h => ?_⟩⟩
  have hfree : (s.powerOn straps).entry h = Entry.free := by
    unfold State.powerOn State.reset State.entry tableGet
    dsimp only
    split
    · rfl
    · rw [Vector.getElem?_replicate]
      split <;> rfl
  rw [hfree]
  exact free_counted

end Sys2Proof.Machine
end

section
/-! PROOFS. The counts through the line, the upstream path, enrolment and the start of a cycle. -/

namespace Sys2Proof.Machine

/-! ### The line (R174, R178, R183, R169) -/

theorem lineHeard_keeps (s : State) : KeepsCounts s s.lineHeard := ⟨Nat.le_refl _, fun h => h⟩

theorem ownCarried_keeps (s : State) : KeepsCounts s s.ownCarried := by
  have hvoid : KeepsCounts s { s with
      slp := { s.slp with transmitting := none, voidCount := 0, detachSpan := none }
      ports := { s.ports with voidDriven := false } } := by
    refine ⟨Nat.le_refl _, fun hi => ?_⟩
    obtain ⟨hring, hcap, hhist, -, hres, hev, hent⟩ := hi
    exact ⟨hring, hcap, hhist, Nat.zero_le _, hres, hev, hent⟩
  unfold State.ownCarried
  dsimp only
  split
  · exact hvoid
  · exact hvoid.trans (pushEvent_keeps _ _)

theorem noticeCarried_keeps (s : State) : KeepsCounts s s.noticeCarried := by
  refine KeepsCounts.trans ?_ (ownCarried_keeps _)
  exact ⟨Nat.le_refl _, fun h => h⟩

theorem dropClaim_keeps (s : State) (serial : Serial) (h : Nat) : KeepsCounts s (s.dropClaim serial h) := by
  refine (freeEntry_keeps s h).trans (KeepsCounts.trans ?_ (withdraw_keeps _ _))
  exact sameCounts_keeps rfl (List.length_map _) rfl rfl rfl rfl fun _ => rfl

theorem dropUncarried_keeps (s : State) : KeepsCounts s s.dropUncarried := by
  refine KeepsCounts.foldl _ (fun t c => ?_) s _
  split
  · exact KeepsCounts.refl t
  · split
    · exact KeepsCounts.refl t
    · exact KeepsCounts.ite (KeepsCounts.refl t) (dropClaim_keeps t _ _)

theorem detachIfDue_keeps (s : State) : KeepsCounts s s.detachIfDue := by
  refine KeepsCounts.ite (KeepsCounts.refl s) (KeepsCounts.trans ?_ (dropUncarried_keeps _))
  exact ⟨Nat.le_refl _, fun h => h⟩

theorem removeWithdrawn_keeps (s : State) : KeepsCounts s s.removeWithdrawn := by
  have hslot : KeepsCounts s { s with slp := { s.slp with noticeSlot := none } } := ⟨Nat.le_refl _, fun h => h⟩
  unfold State.removeWithdrawn
  split
  · exact KeepsCounts.refl s
  · split
    · dsimp only
      split
      · split
        · exact hslot
        · exact KeepsCounts.ite (hslot.trans (freeEntry_keeps _ _)) hslot
      · exact hslot
    · exact KeepsCounts.refl s

theorem reportGone_keeps (s : State) (f : ReportFrame) : KeepsCounts s (s.reportGone f) := by
  unfold State.reportGone
  dsimp only
  split
  · exact ⟨Nat.le_refl _, fun h => h⟩
  · exact ⟨Nat.le_refl _, fun h => h⟩
  · refine ⟨Nat.le_refl _, fun hi => ?_⟩
    obtain ⟨hring, hcap, hhist, hvoid, hres, hev, hent⟩ := hi
    refine ⟨hring, hcap, hhist, hvoid, hres, Nat.le_trans ?_ hev, hent⟩
    exact (List.tail_sublist _).length_le

theorem recordCarried_keeps (s : State) (f : UsageFrame) : KeepsCounts s (s.recordCarried f) := by
  have hslot : KeepsCounts s { s with slp := { s.slp with usageSlot := none } } := ⟨Nat.le_refl _, fun h => h⟩
  unfold State.recordCarried
  dsimp only
  split
  · exact hslot
  · split
    · exact hslot
    · refine hslot.trans (KeepsCounts.ite ?_ ?_)
      · exact (setAcct_keeps _ _ _).trans (freeEntry_keeps _ _)
      · exact setAcct_keeps _ _ _

/-! ### The upstream path (R17, R32, R60, R91, R94, R132) -/

theorem clearOutstanding_keeps (s : State) (r : WindowRef) : KeepsCounts s (s.clearOutstanding r) :=
  sameCounts_keeps (List.length_map _) rfl rfl rfl rfl rfl fun _ => rfl

theorem openAccount_keeps (s : State) (h : Nat) : KeepsCounts s (s.openAccount h) :=
  (setAcct_keeps s h _).trans (startCredit_keeps _ h)

theorem confirmed_keeps (s : State) (h : Nat) (d : Int) : KeepsCounts s (s.confirmed h d) := by
  refine (setEntry_keeps s h _ fun hc => ?_).trans <| (openAccount_keeps _ h).trans <| (pushEvent_keeps _ _).trans <|
    drainClose_keeps _ h
  have hact := toActive_counted hc
  split
  · exact hact
  · refine post_counted ?_ _
    exact hact

theorem confirmAttempt_keeps (s : State) (h : Nat) : KeepsCounts s (s.confirmAttempt h) := by
  unfold State.confirmAttempt Config.confirmAttempts
  dsimp only
  split
  next hlt => exact setEntry_keeps s h _ fun hc => rangeAttempts_counted hc _ (by omega)
  next => exact freeEntry_keeps s h

theorem confirmBurst_keeps (s : State) (h : Nat) (d : Int) : KeepsCounts s (s.confirmBurst h d) :=
  KeepsCounts.ite (confirmed_keeps s h d) (confirmAttempt_keeps s h)

theorem tryTaking_keeps (s : State) (h : Nat) : KeepsCounts s (s.tryTaking h) := by
  unfold State.tryTaking
  dsimp only
  split
  · refine KeepsCounts.ite ((setEntry_keeps s h _ ?_).trans (queueNotice_keeps _ _)) (KeepsCounts.refl s)
    exact fun hc => hc
  · exact KeepsCounts.refl s
  · exact KeepsCounts.refl s

theorem arrivalBurst_keeps (s : State) (h : Nat) (d : Int) : KeepsCounts s (s.arrivalBurst h d) := by
  refine KeepsCounts.ite (KeepsCounts.refl s) (KeepsCounts.ite ?_ (setEntry_keeps s h _ fun hc => post_counted hc _))
  refine (setEntry_keeps s h _ fun hc => ?_).trans (tryTaking_keeps _ h)
  have hpost : Entry.Counted (if ((s.entry h).storeDelay s.img (((s.entry h).eqDelay.getD 0 : Nat) - d)).eqDelay =
        (s.entry h).eqDelay then (s.entry h).storeDelay s.img (((s.entry h).eqDelay.getD 0 : Nat) - d)
      else ((s.entry h).storeDelay s.img (((s.entry h).eqDelay.getD 0 : Nat) - d)).post
        (.adjust (clampDelay s.img (((s.entry h).eqDelay.getD 0 : Nat) - d)))) := by
    split
    · exact hc
    · refine post_counted ?_ _
      exact hc
  exact hpost

theorem recontacted_keeps (s : State) (h : Nat) : KeepsCounts s (s.recontacted h) :=
  (setEntry_keeps s h _ toActive_counted).trans <| (endCondition_keeps _ _).trans <| drainClose_keeps _ h

theorem countUpPacket_keeps (s : State) (h : Nat) (p : UpPacket) : KeepsCounts s (s.countUpPacket h p) := by
  unfold State.countUpPacket
  split
  · exact KeepsCounts.refl s
  · exact changeAcct_keeps s h _

theorem takePackets_keeps (s : State) (h : Nat) (ps : List UpPacket) : KeepsCounts s (s.takePackets h ps) := by
  refine KeepsCounts.ite ?_ (KeepsCounts.refl s)
  exact (KeepsCounts.foldl _ (fun t p => countUpPacket_keeps t h p) s _).trans ⟨Nat.le_refl _, fun h => h⟩

theorem handOver_keeps (s : State) (h : Nat) : KeepsCounts s (s.handOver h) := by
  have hend : KeepsCounts s ((s.setEntry h { s.entry h with state := .handed }).endCredit h) := by
    refine (setEntry_keeps s h _ ?_).trans (endCredit_reportsOnly _ h).keeps
    exact fun hc => hc
  unfold State.handOver
  dsimp only
  split
  · exact hend.trans (queueNotice_keeps _ _)
  · exact hend
  · exact hend

theorem judgeOffset_keeps (s : State) (h : Nat) (d : Int) : KeepsCounts s (s.judgeOffset h d) := by
  unfold State.judgeOffset
  dsimp only
  refine KeepsCounts.ite (setEntry_keeps s h _ fun hc => misplaced_counted hc 0 (Nat.zero_le _)) (KeepsCounts.ite ?_ ?_)
  · exact setEntry_keeps s h _ fun hc => correct_counted (misplaced_counted hc 0 (Nat.zero_le _)) _ _
  · have hset := setEntry_keeps s h { s.entry h with misplaced := min 3 ((s.entry h).misplaced + 1) }
      fun hc => misplaced_counted hc _ (Nat.min_le_left _ _)
    have htrip := KeepsCounts.ite (c := (s.entry h).misplaced = 2)
      (hset.trans (setDrift_keeps _ h { (s.setEntry h { s.entry h with
        misplaced := min 3 ((s.entry h).misplaced + 1) }).drift h with tripOffset := some d })) hset
    exact KeepsCounts.ite (htrip.trans (setDriftHold_keeps _ h)) htrip

theorem measureDrift_keeps (s : State) (h : Nat) (d : Int) : KeepsCounts s (s.measureDrift h d) :=
  (setEntry_keeps s h _ fun hc => post_counted (misplaced_counted hc 0 (Nat.zero_le _)) _).trans (setPhase_keeps _ h _)

theorem judge_keeps (s : State) (h : Nat) (before : HomeState) (kind : WindowKind) (acked : Option MsgKind) (d : Int) :
    KeepsCounts s (s.judge h before kind acked d) := by
  have hself := KeepsCounts.refl s
  have hoff := judgeOffset_keeps s h d
  unfold State.judge
  dsimp only
  split
  case h_1 =>
    refine KeepsCounts.ite (setEntry_keeps s h _ fun hc => misplaced_counted hc 0 (Nat.zero_le _)) ?_
    split
    · exact hoff
    · exact KeepsCounts.ite (measureDrift_keeps s h d) hself
    · exact KeepsCounts.ite ((clearDriftHold_keeps s h).trans (judgeOffset_keeps _ h d)) hself
  case h_2 => exact hoff
  case h_3 => exact hoff
  all_goals exact hself

theorem rangeBurst_keeps (s : State) (h : Nat) (d : Int) : KeepsCounts s (s.rangeBurst h d) := by
  unfold State.rangeBurst
  split
  case h_1 => exact confirmBurst_keeps s h d
  case h_2 => exact arrivalBurst_keeps s h d
  case h_3 => exact recontacted_keeps s h
  all_goals exact KeepsCounts.refl s

theorem cleanBurst_keeps (s : State) (h : Nat) (map : CycleNo) (kind : WindowKind) (d : Int) (ack : Bool)
    (report : Nat) (ps : List UpPacket) : KeepsCounts s (s.cleanBurst h map kind d ack report ps) := by
  have hheard : KeepsCounts s ((s.noteOffset h d).setEntry h
      (((s.entry h).heard report).takeAck s.img ((s.entry h).acknowledges map ack))) :=
    (setDrift_keeps s h _).trans (setEntry_keeps _ h _ fun hc => takeAck_counted (heard_counted hc _) _ _)
  have hburst := KeepsCounts.ite (c := kind = .range) (hheard.trans (rangeBurst_keeps _ h d))
    (hheard.trans (takePackets_keeps _ h ps))
  unfold State.cleanBurst
  dsimp only
  split
  · exact (KeepsCounts.ite (hburst.trans (handOver_keeps _ h)) hburst).trans (judge_keeps _ _ _ _ _ _)
  all_goals exact hburst.trans (judge_keeps _ _ _ _ _ _)

theorem rangeMissed_keeps (s : State) (h : Nat) : KeepsCounts s (s.rangeMissed h) := by
  refine KeepsCounts.ite (confirmAttempt_keeps s h) (KeepsCounts.ite ?_ (KeepsCounts.refl s))
  have hset := setEntry_keeps s h { s.entry h with
    rangeAttempts := min Config.rerangeAttempts ((s.entry h).rangeAttempts + 1) }
    fun hc => rangeAttempts_counted hc _ (Nat.min_le_left _ _)
  exact KeepsCounts.ite hset (hset.trans (loseHome_keeps _ h))

theorem dataMissed_keeps (s : State) (h : Nat) : KeepsCounts s (s.dataMissed h) := by
  refine KeepsCounts.ite ?_ (KeepsCounts.refl s)
  have hset := setEntry_keeps s h { s.entry h with missed := min Config.missedLimit ((s.entry h).missed + 1) }
    fun hc => missed_counted hc _ (Nat.min_le_left _ _)
  exact KeepsCounts.ite (hset.trans (loseHome_keeps _ h)) hset

theorem observeBurst_keeps (s : State) (r : WindowRef) (w : Window) (o : BurstObs) :
    KeepsCounts s (s.observeBurst r w o) := by
  have hmissed := KeepsCounts.ite (c := r.kind = .range) (rangeMissed_keeps s r.handle) (dataMissed_keeps s r.handle)
  refine KeepsCounts.ite (KeepsCounts.refl s) ?_
  split
  · exact cleanBurst_keeps s _ _ _ _ _ _ _
  · exact hmissed
  · exact hmissed

/-! ### Enrolment (R51 to R58) -/

theorem setPlace_keeps (s : State) (i : Nat) (c : Option Capture) : KeepsCounts s (s.setPlace i c) :=
  sameCounts_keeps rfl List.length_set rfl rfl rfl rfl fun _ => rfl

theorem startClaim_keeps (s : State) (i : Nat) (r : Reply) : KeepsCounts s (s.startClaim i r) := by
  unfold State.startClaim
  refine KeepsCounts.ite (setPlace_keeps s i none) ?_
  split
  · exact (setPlace_keeps s i none).trans (pushEvent_keeps _ _)
  · refine KeepsCounts.ite ?_ ((setPlace_keeps s i none).trans (pushEvent_keeps _ _))
    refine (takeEntry_keeps s _ _ ?_).trans <| (setPlace_keeps _ i _).trans <| queueNotice_keeps _ _
    exact free_counted

theorem judgeCapture_keeps (s : State) (p : Nat × Reply) : KeepsCounts s (s.judgeCapture p) :=
  KeepsCounts.ite ((setPlace_keeps s p.1 none).trans (pushEvent_keeps _ _)) (startClaim_keeps s p.1 p.2)

theorem takeReplies_keeps (s : State) (replies : List Reply) : KeepsCounts s (s.takeReplies replies) :=
  (KeepsCounts.foldl _ (fun t (p : Nat × Reply) => setPlace_keeps t p.1 _) s _).trans (KeepsCounts.foldl _ judgeCapture_keeps _ _)

theorem discovered_keeps (s : State) (o : DiscoverObs) : KeepsCounts s (s.discovered o) := by
  unfold State.discovered
  split
  · exact KeepsCounts.ite (takeReplies_keeps s _) (KeepsCounts.refl s)
  · exact KeepsCounts.refl s
  · exact KeepsCounts.refl s

theorem claimCarried_keeps (s : State) (serial : Serial) : KeepsCounts s (s.claimCarried serial) :=
  sameCounts_keeps rfl (List.length_map _) rfl rfl rfl rfl fun _ => rfl

theorem raiseDuplicate_keeps (s : State) (h : Nat) (serial : Serial) (other : Nat) :
    KeepsCounts s (s.raiseDuplicate h serial other) := raiseAlarm_keeps s _ _

theorem answerHeld_keeps (s : State) (h : Nat) (serial : Serial) (other : Nat) :
    KeepsCounts s (s.answerHeld h serial other) := by
  refine KeepsCounts.ite (KeepsCounts.refl s) ?_
  exact (setEntry_keeps s h _ fun hc => duplicates_counted hc _ (Nat.min_le_left _ _)).trans <|
    (queueNotice_keeps _ _).trans <| raiseDuplicate_keeps _ h serial other

theorem claimHeard_keeps (s : State) (serial : Serial) (other : Nat) : KeepsCounts s (s.claimHeard serial other) := by
  unfold State.claimHeard
  split
  · exact KeepsCounts.refl s
  next h _ =>
    split
    case h_1 => exact KeepsCounts.ite (KeepsCounts.refl s) (dropClaim_keeps s serial h)
    case h_9 => exact release_keeps s h _ _
    case h_10 => exact KeepsCounts.refl s
    case h_11 => exact KeepsCounts.refl s
    all_goals exact answerHeld_keeps s h serial other

theorem heldHeard_keeps (s : State) (serial : Serial) (holder : Nat) : KeepsCounts s (s.heldHeard serial holder) := by
  unfold State.heldHeard
  split
  · exact KeepsCounts.refl s
  next h _ =>
    split
    case h_1 => exact dropClaim_keeps s serial h
    case h_2 => exact freeEntry_keeps s h
    case h_10 => exact KeepsCounts.refl s
    case h_11 => exact KeepsCounts.refl s
    all_goals exact raiseDuplicate_keeps s h serial holder

theorem freePlaceOf_keeps (s : State) (h : Nat) : KeepsCounts s (s.freePlaceOf h) :=
  sameCounts_keeps rfl (List.length_map _) rfl rfl rfl rfl fun _ => rfl

theorem toConfirming_counted {e : Entry} (he : e.Counted) (serial : Serial) (h : Nat) :
    (e.toConfirming serial h).Counted := by
  have hzero := rangeAttempts_counted he 0 (Nat.zero_le _)
  refine post_counted ?_ _
  exact hzero

theorem claimHeldOut_keeps (s : State) (h : Nat) (serial : Serial) : KeepsCounts s (s.claimHeldOut h serial) :=
  KeepsCounts.ite ((freePlaceOf_keeps s h).trans (freeEntry_keeps _ h))
    ((freePlaceOf_keeps s h).trans (setEntry_keeps _ h _ fun hc => toConfirming_counted hc serial h))

/-! ### The start of a cycle (R1, R10, R33, R35, R39) -/

theorem tick_keeps (s : State) : KeepsCounts s s.tick := by
  refine (mapRoster_keeps s (fun _ e => e.tick) fun _ _ hc => hc).trans ?_
  exact sameCounts_keeps rfl (List.length_map _) rfl rfl rfl rfl fun _ => rfl

theorem reachMap_keeps (s : State) : KeepsCounts s s.reachMap := by
  have hreached (r : Option CycleNo) : KeepsCounts s { s with cb := { s.cb with reached := r } } :=
    ⟨Nat.le_refl _, fun h => h⟩
  unfold State.reachMap
  dsimp only
  refine KeepsCounts.ite ?_ (hreached none)
  split
  · refine KeepsCounts.ite (KeepsCounts.trans ?_ (queueNotice_keeps _ _)) (hreached _)
    exact ⟨Nat.le_refl _, fun h => h⟩
  · exact hreached _
  · exact hreached _

theorem ringPush_length (ring : List MapRecord) (m : MapRecord) : (ringPush ring m).length ≤ 4 := by
  rw [ringPush, List.length_drop, List.length_append, List.length_singleton]
  omega

/-- The map built enters a ring of four, and the entries pass through the build (R10). -/
theorem buildMap_keeps (s : State) (n : CycleNo) : KeepsCounts s (s.buildMap n) := by
  refine ⟨Nat.le_refl _, fun hi => ?_⟩
  obtain ⟨-, hcap, hhist, hvoid, hres, hev, hent⟩ := hi
  refine ⟨ringPush_length _ _, hcap, hhist, hvoid, hres, hev, fun h => ?_⟩
  rw [buildMap_entry, advanceRecontacts_entry]
  exact afterBuild_counted (advanceRecontact_counted (hent h)) _ _ _

theorem messageFailed_keeps (s : State) (h : Nat) (kind : MsgKind) : KeepsCounts s (s.messageFailed h kind) := by
  have hempty : KeepsCounts s (s.setEntry h { s.entry h with mailbox := none }) := setEntry_keeps s h _ fun hc => hc
  unfold State.messageFailed
  dsimp only
  split
  · exact KeepsCounts.ite (hempty.trans (setPhase_keeps _ h _)) hempty
  · exact KeepsCounts.ite (hempty.trans (freeEntry_keeps _ h)) hempty
  · split
    · rw [setEntry_setEntry]
      refine (setEntry_keeps s h _ ?_).trans (queueNotice_keeps _ _)
      exact fun hc => hc
    · exact hempty
  · exact hempty

end Sys2Proof.Machine
end

section
/-! PROOFS. The counts through the stray history, the hunt, the handover and start-up. -/

namespace Sys2Proof.Machine

/-! ### The hunt (R105 to R119) -/

/-- The Hunt Unit's own fields hold none of the counts. -/
theorem huntFields_keeps (s : State) (hu : Hunt) : KeepsCounts s { s with hu := hu } := ⟨Nat.le_refl _, fun h => h⟩

theorem openHunt_keeps (s : State) : KeepsCounts s s.openHunt := by
  refine KeepsCounts.ite (KeepsCounts.trans ?_ (queueNotice_keeps _ _)) (KeepsCounts.refl s)
  exact ⟨Nat.le_refl _, fun h => h⟩

theorem suspect_keeps (s : State) : KeepsCounts s s.suspect := by
  refine KeepsCounts.ite ?_ (openHunt_keeps s)
  exact ⟨Nat.le_refl _, fun h => h⟩

theorem takeDeferred_keeps (s : State) : KeepsCounts s s.takeDeferred := by
  have hclear : KeepsCounts s { s with hu := { s.hu with deferred := false } } := ⟨Nat.le_refl _, fun h => h⟩
  exact KeepsCounts.ite (KeepsCounts.ite (hclear.trans (openHunt_keeps _)) hclear) (KeepsCounts.refl s)

theorem yieldOpening_keeps (s : State) : KeepsCounts s s.yieldOpening := by
  refine KeepsCounts.ite (KeepsCounts.trans ?_ (withdraw_keeps _ _)) (KeepsCounts.refl s)
  exact ⟨Nat.le_refl _, fun h => h⟩

theorem setFlag_keeps (s : State) (id : HuntId) : KeepsCounts s (s.setFlag id) := ⟨Nat.le_refl _, fun h => h⟩

theorem join_keeps (s : State) (id : HuntId) (role : Role) : KeepsCounts s (s.join id role) := by
  refine KeepsCounts.trans ?_ ((endStray_keeps _).trans (queueNotice_keeps _ _))
  exact ⟨Nat.le_refl _, fun h => h⟩

theorem ownOpen_keeps (s : State) (id : HuntId) : KeepsCounts s (s.ownOpen id) := by
  have hflag : KeepsCounts s { s.setFlag id with hu := { (s.setFlag id).hu with opening := false } } :=
    ⟨Nat.le_refl _, fun h => h⟩
  refine KeepsCounts.ite (KeepsCounts.ite (hflag.trans (join_keeps _ _ _)) ?_) hflag
  refine hflag.trans (KeepsCounts.trans ?_ (endStray_keeps _))
  exact ⟨Nat.le_refl _, fun h => h⟩

theorem otherOpen_keeps (s : State) (id : HuntId) : KeepsCounts s (s.otherOpen id) :=
  let h := (setFlag_keeps s id).trans (yieldOpening_keeps _)
  KeepsCounts.ite (h.trans (join_keeps _ _ _)) h

theorem setOwner_keeps (s : State) (o : OwnerPart) : KeepsCounts s (s.setOwner o) := ⟨Nat.le_refl _, fun h => h⟩

theorem joinHeard_keeps (s : State) (id : HuntId) (channel count : Nat) :
    KeepsCounts s (s.joinHeard id channel count) := by
  unfold State.joinHeard
  split
  · exact KeepsCounts.ite (setOwner_keeps s _) (KeepsCounts.refl s)
  · exact KeepsCounts.refl s
  · exact KeepsCounts.refl s

theorem queueStep_keeps (s : State) (id : HuntId) (o : OwnerPart) (sel : Selector) :
    KeepsCounts s (s.queueStep id o sel) := (setOwner_keeps s _).trans (queueNotice_keeps _ _)

theorem queueClose_keeps (s : State) (id : HuntId) (o : OwnerPart) (outcome : HuntOutcome) :
    KeepsCounts s (s.queueClose id o outcome) := (setOwner_keeps s _).trans (queueNotice_keeps _ _)

theorem joinsOver_keeps (s : State) (id : HuntId) (o : OwnerPart) : KeepsCounts s (s.joinsOver id o) :=
  KeepsCounts.ite (setOwner_keeps s _) (KeepsCounts.ite (queueClose_keeps s id _ _) (queueStep_keeps s id _ _))

theorem setHunt_keeps (s : State) (hs : List Nat) : KeepsCounts s (s.setHunt hs) :=
  mapRoster_keeps s _ fun _ _ hc => hc

theorem applyStep_keeps (s : State) (k : Nat) (sel : Selector) : KeepsCounts s (s.applyStep k sel) := by
  refine (setHunt_keeps s (s.darkened sel)).trans ((withdraw_keeps _ isReady).trans ?_)
  exact huntFields_keeps _ _

theorem ownStep_keeps (s : State) (src : Source) : KeepsCounts s (s.ownStep src) := by
  unfold State.ownStep
  split
  · exact setOwner_keeps s _
  all_goals exact KeepsCounts.refl s

theorem stepHeard_keeps (s : State) (src : Source) (k : Nat) (sel : Selector) :
    KeepsCounts s (s.stepHeard src k sel) := by
  have hguard : KeepsCounts s (if s.hu.role = .participant ∧ s.draining = true then s
      else { s with hu := { s.hu with guardTimer := some Config.guardCycles } }) :=
    KeepsCounts.ite (KeepsCounts.refl s) ⟨Nat.le_refl _, fun h => h⟩
  have hown := hguard.trans (ownStep_keeps _ src)
  exact KeepsCounts.ite (hown.trans (applyStep_keeps _ k sel)) hown

theorem readyHeard_keeps (s : State) (id : HuntId) (channel step : Nat) (named : Option HomeRef) :
    KeepsCounts s (s.readyHeard id channel step named) := by
  unfold State.readyHeard
  split
  · exact KeepsCounts.ite (setOwner_keeps s _) (KeepsCounts.refl s)
  · exact KeepsCounts.refl s
  · exact KeepsCounts.refl s

theorem actOn_keeps (s : State) (id : HuntId) (o : OwnerPart) (d : Decision) : KeepsCounts s (s.actOn id o d) := by
  unfold State.actOn
  split
  · exact queueStep_keeps s id o _
  · exact queueStep_keeps s id _ _
  · exact queueClose_keeps s id o _

theorem measure_keeps (s : State) (o : OwnerPart) (light : Bool) : KeepsCounts s (s.measure o light) := by
  have howner := setOwner_keeps s (o.tallied light)
  refine KeepsCounts.ite (KeepsCounts.ite howner (KeepsCounts.ite howner ?_)) (KeepsCounts.refl s)
  split
  · exact howner
  · exact actOn_keeps s _ _ _

/-! ### The stray history (R97 to R99) -/

theorem handOn_keeps (s : State) : KeepsCounts s s.handOn := KeepsCounts.ite (suspect_keeps s) (KeepsCounts.refl s)

theorem enterOutcome_length (history : List Bool) (light : Bool) : (enterOutcome history light).length ≤ 8 := by
  rw [enterOutcome, List.length_drop, List.length_append, List.length_singleton]
  omega

theorem strayEntry_keeps (s : State) (light : Bool) : KeepsCounts s (s.strayEntry light) := by
  have hentered : KeepsCounts s { s with lw := { s.lw with history := enterOutcome s.lw.history light } } := by
    refine ⟨Nat.le_refl _, fun hi => ?_⟩
    obtain ⟨hring, hcap, -, hvoid, hres, hev, hent⟩ := hi
    exact ⟨hring, hcap, enterOutcome_length _ _, hvoid, hres, hev, hent⟩
  unfold State.strayEntry
  dsimp only
  refine KeepsCounts.ite (hentered.trans (KeepsCounts.trans ?_ (handOn_keeps _)))
    (KeepsCounts.ite (hentered.trans (endStray_keeps _)) hentered)
  refine KeepsCounts.ite ?_ (KeepsCounts.trans ?_ (raiseAlarm_keeps _ _ _))
  · exact ⟨Nat.le_refl _, fun h => h⟩
  · exact ⟨Nat.le_refl _, fun h => h⟩

theorem quietTaken_keeps (s : State) (light : Bool) : KeepsCounts s (s.quietTaken light) := by
  unfold State.quietTaken
  split
  · exact strayEntry_keeps s light
  · exact measure_keeps s _ light
  · exact KeepsCounts.refl s

/-! ### The close of a hunt (R106, R119, R120) -/

theorem leaveHunt_keeps (s : State) : KeepsCounts s s.leaveHunt :=
  (clearHunt_keeps s).trans <| (withdraw_keeps _ fun n => n.producer = .hunt).trans (huntFields_keeps _ _)

theorem endHunt_keeps (s : State) (outcome : HuntOutcome) : KeepsCounts s (s.endHunt outcome) := by
  unfold State.endHunt
  split
  · exact KeepsCounts.refl s
  · exact leaveHunt_keeps s
  · exact (leaveHunt_keeps s).trans <| (raiseAlarm_keeps _ _ _).trans <| emptyHistory_keeps _

theorem clearFlag_keeps (s : State) : KeepsCounts s s.clearFlag := ⟨Nat.le_refl _, fun h => h⟩

theorem foundHere_keeps (s : State) (id : HuntId) (r : HomeRef) : KeepsCounts s (s.foundHere id r) := by
  refine KeepsCounts.trans (KeepsCounts.ite (setEntry_keeps s r.handle _ ?_) (KeepsCounts.refl s)) (raiseAlarm_keeps _ _ _)
  exact fun hc => hc

theorem takeFound_keeps (s : State) (id : HuntId) (outcome : HuntOutcome) : KeepsCounts s (s.takeFound id outcome) := by
  unfold State.takeFound
  split
  · exact KeepsCounts.ite (foundHere_keeps s id _) (KeepsCounts.refl s)
  all_goals exact KeepsCounts.refl s

theorem closeHeard_keeps (s : State) (id : HuntId) (outcome : HuntOutcome) :
    KeepsCounts s (s.closeHeard id outcome) := by
  unfold State.closeHeard
  split
  · exact takeFound_keeps s id outcome
  · refine KeepsCounts.ite ?_ (KeepsCounts.refl s)
    exact (clearFlag_keeps s).trans <| (endHunt_keeps _ outcome).trans <| (takeFound_keeps _ id outcome).trans <|
      takeDeferred_keeps _

/-! ### The handover (R126 to R137) -/

theorem movedOut_keeps (s : State) (e : Entry) (serial : Serial) (o : MoveOutcome) :
    KeepsCounts s (s.movedOut e serial o) := pushEvent_keeps s _

theorem considerOffer_keeps (s : State) (serial : Serial) (source : Nat) (p : Profile) (eqDelay : Nat) :
    KeepsCounts s (s.considerOffer serial source p eqDelay) := by
  refine KeepsCounts.ite (queueNotice_keeps s _) ?_
  split
  · exact queueNotice_keeps s _
  · refine KeepsCounts.ite ((takeEntry_keeps s _ _ ?_).trans (queueNotice_keeps _ _)) (queueNotice_keeps s _)
    exact free_counted

theorem offerHeard_keeps (s : State) (serial : Serial) (source target : Nat) (p : Profile) (eqDelay : Nat) :
    KeepsCounts s (s.offerHeard serial source target p eqDelay) := by
  have hself := KeepsCounts.refl s
  unfold State.offerHeard
  split
  · exact hself
  · exact hself
  · exact KeepsCounts.ite (queueNotice_keeps s _) hself
  · exact KeepsCounts.ite (queueNotice_keeps s _) hself
  · exact KeepsCounts.ite (considerOffer_keeps s serial source p eqDelay) hself

theorem toTuning_counted {e : Entry} (he : e.Counted) (channel newHandle : Nat) :
    (e.toTuning channel newHandle).Counted := by
  refine post_counted ?_ _
  exact he

theorem acceptHeard_keeps (s : State) (serial : Serial) (channel newHandle : Nat) :
    KeepsCounts s (s.acceptHeard serial channel newHandle) := by
  unfold State.acceptHeard
  split
  · exact KeepsCounts.refl s
  · exact KeepsCounts.ite (setEntry_keeps s _ _ fun hc => toTuning_counted hc _ _) (KeepsCounts.refl s)

theorem refuseHeard_keeps (s : State) (serial : Serial) (channel : Nat) (reason : RefuseReason) :
    KeepsCounts s (s.refuseHeard serial channel reason) := by
  unfold State.refuseHeard
  split
  · exact KeepsCounts.refl s
  · exact KeepsCounts.ite ((returnActive_keeps s _).trans (movedOut_keeps _ _ _ _)) (KeepsCounts.refl s)

theorem accountHeard_keeps (s : State) (serial : Serial) (source : Nat) (a : Account) :
    KeepsCounts s (s.accountHeard serial source a) := by
  unfold State.accountHeard
  split
  · exact KeepsCounts.refl s
  · refine KeepsCounts.ite ?_ (KeepsCounts.refl s)
    refine (setAcct_keeps s _ _).trans <| (setEntry_keeps _ _ _ ?_).trans <| tryTaking_keeps _ _
    exact fun hc => hc

theorem takenCarried_keeps (s : State) (serial : Serial) : KeepsCounts s (s.takenCarried serial) := by
  unfold State.takenCarried
  split
  · exact KeepsCounts.refl s
  next h _ =>
    refine KeepsCounts.ite ?_ (KeepsCounts.refl s)
    exact (setEntry_keeps s h _ toActive_counted).trans <| (setAcct_keeps _ h _).trans <| (startCredit_keeps _ h).trans <|
      (pushEvent_keeps _ _).trans <| drainClose_keeps _ h

theorem takenHeard_keeps (s : State) (serial : Serial) (channel : Nat) : KeepsCounts s (s.takenHeard serial channel) := by
  unfold State.takenHeard
  split
  · exact KeepsCounts.refl s
  next h _ =>
    refine KeepsCounts.ite ?_ (KeepsCounts.refl s)
    exact (enterClosing_keeps s h _ _).trans <| (withdraw_keeps _ _).trans <| movedOut_keeps _ _ _ _

theorem reclaimCarried_keeps (s : State) (serial : Serial) : KeepsCounts s (s.reclaimCarried serial) := by
  unfold State.reclaimCarried
  split
  · exact KeepsCounts.refl s
  next h _ =>
    dsimp only
    split
    · exact (returnActive_keeps s h).trans (movedOut_keeps _ _ _ _)
    · exact (enterLost_keeps s h).trans <| (startCredit_keeps _ h).trans <| (movedOut_keeps _ _ _ _).trans <|
        drainClose_keeps _ h
    · exact KeepsCounts.refl s

theorem reclaimHeard_keeps (s : State) (serial : Serial) (source : Nat) :
    KeepsCounts s (s.reclaimHeard serial source) := by
  unfold State.reclaimHeard
  split
  · exact KeepsCounts.refl s
  · exact KeepsCounts.ite ((freeEntry_keeps s _).trans (withdraw_keeps _ _)) (KeepsCounts.refl s)

theorem queueReclaim_keeps (s : State) (h : Nat) (serial : Serial) (cause : ReclaimCause) :
    KeepsCounts s (s.queueReclaim h serial cause) := by
  refine (setEntry_keeps s h _ ?_).trans (queueNotice_keeps _ _)
  exact fun hc => hc

theorem handoverExpired_keeps (s : State) (h : Nat) (serial : Serial) : KeepsCounts s (s.handoverExpired h serial) := by
  unfold State.handoverExpired
  dsimp only
  split
  case h_1 => exact (returnActive_keeps s h).trans <| (withdraw_keeps _ _).trans <| movedOut_keeps _ _ _ _
  case h_2 =>
    refine (setEntry_keeps s h _ ?_).trans (queueReclaim_keeps _ h serial .timeout)
    exact fun hc => hc
  case h_3 => exact (withdraw_keeps s _).trans (queueReclaim_keeps _ h serial .timeout)
  all_goals exact KeepsCounts.refl s

/-! ### Start-up, draining and the repeat timers (R182, R188 to R193) -/

theorem enterFault_keeps (s : State) (reason : FaultReason) (usable : Option Nat) (clash : Option (Nat × Station)) :
    KeepsCounts s (s.enterFault reason usable clash) := by
  refine KeepsCounts.trans ?_ (pushEvent_keeps _ _)
  exact ⟨Nat.le_refl _, fun h => h⟩

theorem takeImage_keeps (s : State) (img : Image) : KeepsCounts s (s.takeImage img) := ⟨Nat.le_refl _, fun h => h⟩

theorem loaded_keeps (s : State) (ws : List ImageWord) : KeepsCounts s (s.loaded ws) := by
  unfold State.loaded
  refine KeepsCounts.ite ?_ (enterFault_keeps s _ _ _)
  split
  · exact enterFault_keeps s _ _ _
  · exact takeImage_keeps s _

theorem answerPresent_keeps (s : State) : KeepsCounts s s.answerPresent :=
  KeepsCounts.ite (KeepsCounts.refl s) (queueNotice_keeps s _)

theorem presentHeard_keeps (s : State) (station : Station) (incumbent : Bool) :
    KeepsCounts s (s.presentHeard station incumbent) := by
  have hself := KeepsCounts.refl s
  have hclash : KeepsCounts s (s.clash station) := enterFault_keeps s _ _ _
  unfold State.presentHeard
  split
  · exact hself
  · exact hself
  · exact KeepsCounts.ite (hclash.trans (withdraw_keeps _ _)) (KeepsCounts.ite hclash (answerPresent_keeps s))
  · exact KeepsCounts.ite hself (answerPresent_keeps s)
  · exact KeepsCounts.ite hself (answerPresent_keeps s)

theorem presentCarried_keeps (s : State) (incumbent : Bool) : KeepsCounts s (s.presentCarried incumbent) := by
  refine KeepsCounts.ite ?_ (KeepsCounts.refl s)
  exact ⟨Nat.le_refl _, fun h => h⟩

theorem drainEntry_keeps (s : State) (h : Nat) : KeepsCounts s (s.drainEntry h) := by
  have hclosed := enterClosing_keeps s h .restart true
  have hfreed := (freeEntry_keeps s h).trans (withdraw_keeps _ (isTargetNoticeOf ((s.entry h).serial.getD 0)))
  unfold State.drainEntry
  dsimp only
  split
  case h_1 => exact hclosed
  case h_2 => exact hclosed
  case h_3 => exact KeepsCounts.ite (hclosed.trans (withdraw_keeps _ _)) (hclosed.trans (queueNotice_keeps _ _))
  case h_4 => exact KeepsCounts.ite hclosed (hclosed.trans (queueNotice_keeps _ _))
  case h_5 => exact hfreed
  case h_6 => exact KeepsCounts.ite (withdraw_keeps s _) hfreed
  all_goals exact KeepsCounts.refl s

theorem enterDraining_keeps (s : State) : KeepsCounts s s.enterDraining := by
  refine KeepsCounts.trans ?_ (KeepsCounts.foldl State.drainEntry drainEntry_keeps _ handles)
  exact ⟨Nat.le_refl _, fun h => h⟩

theorem restarted_keeps (s : State) (straps : Station) : KeepsCounts s (s.restarted straps) := by
  unfold State.restarted
  split
  · exact powerOn_keeps s straps
  · exact powerOn_keeps s straps
  · exact enterDraining_keeps s
  · exact KeepsCounts.refl s
  · exact KeepsCounts.refl s

theorem repeated_keeps (s : State) (r : RepeatTimer) : KeepsCounts s (s.repeated r) :=
  KeepsCounts.ite ((placeReport_reportsOnly s _ _ true).keeps.trans (startRepeat_reportsOnly _ _ _).keeps)
    (endCondition_keeps s _)

end Sys2Proof.Machine
end

section
/-! PROOFS. The counts through every command, and obligation O4. -/

namespace Sys2Proof.Machine

/-! ### The answers to requests (R180) -/

/-- The state an answer leaves keeps the counts. -/
def AnswerKeeps (s : State) (a : Answer) : Prop := KeepsCounts s a.1

theorem AnswerKeeps.ite {s : State} {a b : Answer} {c : Prop} [Decidable c] (ha : AnswerKeeps s a) (hb : AnswerKeeps s b) :
    AnswerKeeps s (if c then a else b) := by
  split
  · exact ha
  · exact hb

theorem refusedWith_keeps (s : State) (code : ResultCode) : AnswerKeeps s (s.refusedWith code) := KeepsCounts.refl s

theorem done_keeps {s t : State} (h : KeepsCounts s t) : AnswerKeeps s t.done := h

theorem onHome_keeps (s : State) (serial : Serial) (act : Nat → Answer) (hact : ∀ h, AnswerKeeps s (act h)) :
    AnswerKeeps s (s.onHome serial act) := by
  unfold State.onHome
  split
  · exact refusedWith_keeps s _
  · exact hact _

theorem setProfileAt_keeps (s : State) (p : Profile) (h : Nat) : AnswerKeeps s (s.setProfileAt p h) := by
  refine .ite (.ite (refusedWith_keeps s _) (.ite ?_ (refusedWith_keeps s _))) (refusedWith_keeps s _)
  refine KeepsCounts.trans (setEntry_keeps s h { s.entry h with profile := some (clampProfile p) } ?_) ?_
  · exact fun hc => hc
  · exact ⟨Nat.le_refl _, fun h => h⟩

theorem setAccountAt_keeps (s : State) (a : AccountArgs) (h : Nat) : AnswerKeeps s (s.setAccountAt a h) := by
  refine .ite ?_ (refusedWith_keeps s _)
  split
  · exact refusedWith_keeps s _
  · exact done_keeps (changeAcct_keeps s h _)
  · exact done_keeps (KeepsCounts.refl s)

theorem refillAt_keeps (s : State) (amount h : Nat) : AnswerKeeps s (s.refillAt amount h) := by
  refine .ite ?_ (refusedWith_keeps s _)
  split
  · exact changeAcct_keeps s h _
  · exact done_keeps (KeepsCounts.refl s)

theorem startMove_keeps (s : State) (h : Nat) (serial : Serial) (target : Nat) :
    KeepsCounts s (s.startMove h serial target) := by
  refine (setEntry_keeps s h _ ?_).trans (queueNotice_keeps _ _)
  exact fun hc => hc

theorem moveAt_keeps (s : State) (serial : Serial) (target h : Nat) : AnswerKeeps s (s.moveAt serial target h) :=
  .ite (refusedWith_keeps s _) <| .ite (refusedWith_keeps s _) <| .ite (refusedWith_keeps s _) <|
    .ite (refusedWith_keeps s _) (done_keeps (startMove_keeps s h serial target))

theorem holdAt_keeps (s : State) (code : Nat) (set : Bool) (h : Nat) : AnswerKeeps s (s.holdAt code set h) := by
  refine done_keeps (setEntry_keeps s h _ ?_)
  exact fun hc => hc

theorem holdRequest_keeps (s : State) (serial : Serial) (code : Nat) (flag : Byte) :
    AnswerKeeps s (s.holdRequest serial code flag) :=
  .ite (onHome_keeps s serial _ fun h => holdAt_keeps s code _ h) <|
    .ite (refusedWith_keeps s _) (onHome_keeps s serial _ fun _ => refusedWith_keeps s _)

/-- The Usage Meter's own fields hold none of the counts. -/
theorem meterFields_keeps (s : State) (um : UsageMeter) : KeepsCounts s { s with um := um } := ⟨Nat.le_refl _, fun h => h⟩

theorem setBand_keeps (s : State) (b : Nat) (x : Band) : KeepsCounts s (s.setBand b x) := ⟨Nat.le_refl _, fun h => h⟩

theorem closePeriods_keeps (s : State) (p : Nat) : KeepsCounts s (s.closePeriods p) := by
  have hclose (t : State) (h : Nat) : KeepsCounts t (t.closeAccount p h) := by
    unfold State.closeAccount
    split
    · exact KeepsCounts.refl t
    · exact KeepsCounts.ite (changeAcct_keeps t h _) (KeepsCounts.refl t)
  exact (KeepsCounts.foldl (State.closeAccount p) hclose s handles).trans (meterFields_keeps _ _)

theorem discovery_keeps (s : State) (f : Config.FlagReading) : AnswerKeeps s (s.discovery f) := by
  have henable (b : Bool) : KeepsCounts s { s with ee := { s.ee with discoveryEnable := b } } :=
    ⟨Nat.le_refl _, fun h => h⟩
  unfold State.discovery
  split
  · exact .ite (refusedWith_keeps s _) (done_keeps (henable true))
  · exact done_keeps (henable false)
  · exact refusedWith_keeps s _

/-! ### One command -/

/-- Where the command has a next state, the counts are in their ranges there. -/
def CountsStep (s : State) (o : Host.Outcome State Fault Refusal) : Prop := ∀ t, o = .next t → CountsInv s → CountsInv t

theorem KeepsCounts.next {s t : State} (h : KeepsCounts s t) : CountsStep s (.next t) := by
  intro u hu
  cases hu
  exact h.counts

theorem KeepsCounts.settled {s t : State} (h : KeepsCounts s t) : CountsStep s (.next t.settle) :=
  (h.trans (settle_keeps t)).next

theorem countsStep_stays (s : State) : CountsStep s (.next s) := (KeepsCounts.refl s).next

theorem CountsStep.ite {s : State} {a b : Host.Outcome State Fault Refusal} {c : Prop} [Decidable c]
    (ha : CountsStep s a) (hb : CountsStep s b) : CountsStep s (if c then a else b) := by
  split
  · exact ha
  · exact hb

/-- A command whose effect is settled, or which changes nothing. -/
theorem KeepsCounts.settledIf {s t : State} {c : Prop} [Decidable c] (h : KeepsCounts s t) :
    CountsStep s (.next (if c then t.settle else s)) :=
  (KeepsCounts.ite (h.trans (settle_keeps t)) (KeepsCounts.refl s)).next

theorem hearNotice_counts (src : Source) (n : Notice) (act : State → State) (s : State)
    (hact : ∀ t, KeepsCounts t (act t)) : CountsStep s (hearNotice src n act s) := by
  refine .ite (countsStep_stays s) ?_
  split
  · exact .ite ((noticeCarried_keeps s).trans (hact _)).settled (countsStep_stays s)
  · exact ((lineHeard_keeps s).trans (hact _)).settled

theorem voidRequest_keeps (s : State) : KeepsCounts s s.voidRequest := ⟨Nat.le_refl _, fun h => h⟩

theorem answer_keeps {α : Type} (s : State) (kind : RequestKind) (args : Option α) (act : α → State → Answer)
    (hact : ∀ a t, AnswerKeeps t (act a t)) : AnswerKeeps s (s.answer kind args act) := by
  refine .ite (refusedWith_keeps s _) ?_
  split
  · exact refusedWith_keeps s _
  · exact hact _ s

/-- One result joins those of a state that has room for it (R179). -/
theorem queueResult_counts (s : State) (kind : RequestKind) (hd : RequestHeader) (a : Answer) (ha : AnswerKeeps s a)
    (hroom : s.rq.results.length < 4) (hi : CountsInv s) : CountsInv (queueResult kind hd a) := by
  obtain ⟨hring, hcap, hhist, hvoid, -, hev, hent⟩ := ha.counts hi
  refine ⟨hring, hcap, hhist, hvoid, ?_, hev, hent⟩
  have hlen := ha.results
  unfold queueResult
  dsimp only
  rw [List.length_append, List.length_singleton]
  omega

theorem request_counts {α : Type} (kind : RequestKind) (hd : RequestHeader) (args : Option α)
    (act : α → State → Answer) (s : State) (hact : ∀ a t, AnswerKeeps t (act a t)) :
    CountsStep s (request kind hd args act s) := by
  unfold request
  refine .ite (countsStep_stays s) (.ite ?_ (lineHeard_keeps s).next)
  by_cases hroom : s.cannotAnswer = true
  · rw [if_pos hroom]
    exact (voidRequest_keeps s).next
  rw [if_neg hroom]
  refine .ite (lineHeard_keeps s).next ?_
  rw [State.cannotAnswer, Bool.or_eq_true, not_or, decide_eq_true_eq, decide_eq_true_eq, Nat.not_le] at hroom
  intro t ht hi
  cases ht
  have hheard := (lineHeard_keeps s).counts hi
  exact (settle_keeps _).counts (queueResult_counts s.lineHeard kind hd _ (answer_keeps _ kind args act hact) hroom.2 hheard)

theorem broadcast_counts {α : Type} (hd : RequestHeader) (args : Option α) (act : α → State → State) (s : State)
    (hact : ∀ a t, KeepsCounts t (act a t)) : CountsStep s (broadcast hd args act s) := by
  have hheard := (lineHeard_keeps s).next
  refine .ite (countsStep_stays s) (.ite (.ite (voidRequest_keeps s).next (.ite hheard (.ite hheard ?_))) hheard)
  split
  · exact hheard
  · exact ((lineHeard_keeps s).trans (hact _ _)).settled

/-! ### The commands of the part's own blocks -/

theorem execResetAsserted_counts (s : State) : CountsStep s (execResetAsserted s) :=
  KeepsCounts.next ⟨Nat.le_refl _, fun h => h⟩

theorem execImageLoadComplete_counts (ws : List ImageWord) (s : State) : CountsStep s (execImageLoadComplete ws s) :=
  .ite (countsStep_stays s) (.ite (loaded_keeps s ws).settled (countsStep_stays s))

theorem execNoImage_counts (s : State) : CountsStep s (execNoImage s) :=
  .ite (countsStep_stays s) (.ite (enterFault_keeps s _ _ _).settled (countsStep_stays s))

theorem execCycleStart_counts (s : State) : CountsStep s (execCycleStart s) := by
  have hbegun : KeepsCounts s s.tick.reachMap.emptyDownstream :=
    (tick_keeps s).trans <| (reachMap_keeps _).trans ⟨Nat.le_refl _, fun h => h⟩
  exact .ite (countsStep_stays s) (KeepsCounts.ite (hbegun.trans (buildMap_keeps _ _)) hbegun).settled

theorem execMessageFailure_counts (h : Nat) (s : State) : CountsStep s (execMessageFailure h s) := by
  refine .ite (countsStep_stays s) ?_
  split
  · exact countsStep_stays s
  · exact (messageFailed_keeps s h _).settledIf

theorem execReleaseDropped_counts (h : Nat) (s : State) : CountsStep s (execReleaseDropped h s) := by
  refine .ite (countsStep_stays s) ?_
  split
  · exact countsStep_stays s
  · refine (setEntry_keeps s h _ ?_).settledIf
    exact fun hc => hc

theorem execDataRangeObservation_counts (r : WindowRef) (o : BurstObs) (s : State) :
    CountsStep s (execDataRangeObservation r o s) := by
  refine .ite (countsStep_stays s) (.ite ?_ (countsStep_stays s))
  split
  · exact countsStep_stays s
  · refine .ite (KeepsCounts.settled ((clearOutstanding_keeps s r).trans (KeepsCounts.trans ?_ (observeBurst_keeps _ _ _ _))))
      (countsStep_stays s)
    exact ⟨Nat.le_refl _, fun h => h⟩

theorem execDiscoverObservation_counts (r : WindowRef) (o : DiscoverObs) (s : State) :
    CountsStep s (execDiscoverObservation r o s) := by
  refine .ite (countsStep_stays s) (.ite ?_ (countsStep_stays s))
  split
  · exact countsStep_stays s
  · exact ((clearOutstanding_keeps s r).trans (discovered_keeps _ o)).settledIf

theorem execQuietObservation_counts (r : WindowRef) (light : Bool) (s : State) :
    CountsStep s (execQuietObservation r light s) := by
  refine .ite (countsStep_stays s) (.ite ?_ (countsStep_stays s))
  split
  · exact countsStep_stays s
  · exact ((clearOutstanding_keeps s r).trans (quietTaken_keeps _ light)).settled

theorem ports_keeps (s : State) (p : Ports) : KeepsCounts s { s with ports := p } := ⟨Nat.le_refl _, fun h => h⟩

theorem execDownstreamPacket_counts (h label bytes : Nat) (s : State) :
    CountsStep s (execDownstreamPacket h label bytes s) := by
  refine .ite (countsStep_stays s) ?_
  split
  · exact (ports_keeps s _).next
  · exact .ite ((changeAcct_keeps s h _).trans (ports_keeps _ _)).settled (ports_keeps s _).next

theorem execClaimHoldExpiry_counts (h : Nat) (s : State) : CountsStep s (execClaimHoldExpiry h s) := by
  refine .ite (countsStep_stays s) ?_
  split
  · exact .ite (claimHeldOut_keeps s h _).settled (countsStep_stays s)
  · exact countsStep_stays s
  · exact countsStep_stays s

theorem execLostTimerExpiry_counts (h : Nat) (s : State) : CountsStep s (execLostTimerExpiry h s) :=
  .ite (countsStep_stays s) (release_keeps s h _ _).settledIf

theorem execHandoverTimerExpiry_counts (h : Nat) (s : State) : CountsStep s (execHandoverTimerExpiry h s) := by
  refine .ite (countsStep_stays s) ?_
  split
  · exact countsStep_stays s
  · exact (handoverExpired_keeps s h _).settledIf

theorem execInboundTimerExpiry_counts (h : Nat) (s : State) : CountsStep s (execInboundTimerExpiry h s) := by
  refine .ite (countsStep_stays s) ?_
  split
  · exact countsStep_stays s
  · exact ((freeEntry_keeps s h).trans (withdraw_keeps _ _)).settledIf

theorem execGuardExpiry_counts (s : State) : CountsStep s (execGuardExpiry s) :=
  .ite (countsStep_stays s) ((clearFlag_keeps s).trans <| (endHunt_keeps _ _).trans <| takeDeferred_keeps _).settledIf

theorem execJoinTimerExpiry_counts (s : State) : CountsStep s (execJoinTimerExpiry s) := by
  refine .ite (countsStep_stays s) ?_
  split
  · exact (joinsOver_keeps s _ _).settledIf
  all_goals exact countsStep_stays s

theorem execReadyTimerExpiry_counts (s : State) : CountsStep s (execReadyTimerExpiry s) := by
  refine .ite (countsStep_stays s) ?_
  split
  · exact (KeepsCounts.ite (setOwner_keeps s _) (queueClose_keeps s _ _ _)).settledIf
  all_goals exact countsStep_stays s

theorem execListeningTimerExpiry_counts (s : State) : CountsStep s (execListeningTimerExpiry s) :=
  .ite (countsStep_stays s) (.ite (KeepsCounts.next ⟨Nat.le_refl _, fun h => h⟩) (countsStep_stays s))

theorem execRepeatTimerExpiry_counts (a : AlarmSource) (s : State) : CountsStep s (execRepeatTimerExpiry a s) := by
  refine .ite (countsStep_stays s) ?_
  split
  · exact countsStep_stays s
  · exact (repeated_keeps s _).settledIf

/-! ### The commands of the line -/

theorem execCarriedIgnoredFrame_counts (cls : BitVec 3) (sender : Station) (kind : BitVec 4) (s : State) :
    CountsStep s (execCarriedIgnoredFrame cls sender kind s) := .ite (countsStep_stays s) (lineHeard_keeps s).next

theorem execFrameCheckFailed_counts (f : RawFrame) (s : State) : CountsStep s (execFrameCheckFailed f s) :=
  .ite (countsStep_stays s) (.ite (countsStep_stays s) (ports_keeps s _).next)

theorem execLineIdleContend_counts (rival : Option (BitVec 11)) (s : State) :
    CountsStep s (execLineIdleContend rival s) := by
  refine .ite (countsStep_stays s) (.ite ?_ (countsStep_stays s))
  split
  · exact countsStep_stays s
  · exact .ite (KeepsCounts.next ⟨Nat.le_refl _, fun h => h⟩) (countsStep_stays s)

/-- The void count stops at 32 (R178). -/
theorem execOwnFrameVoided_counts (droveVoid : Bool) (s : State) : CountsStep s (execOwnFrameVoided droveVoid s) := by
  refine .ite (countsStep_stays s) ?_
  split
  · exact countsStep_stays s
  · have hvoided : KeepsCounts s { s with
        slp := { s.slp with transmitting := none, voidCount := satAdd Config.voidLimit s.slp.voidCount 1 }
        ports := { s.ports with voidDriven := droveVoid } } := by
      refine ⟨Nat.le_refl _, fun hi => ?_⟩
      obtain ⟨hring, hcap, hhist, -, hres, hev, hent⟩ := hi
      exact ⟨hring, hcap, hhist, Nat.min_le_left _ _, hres, hev, hent⟩
    exact ((KeepsCounts.ite (hvoided.trans (removeWithdrawn_keeps _)) hvoided).trans (detachIfDue_keeps _)).settled

theorem execDetachTimerExpiry_counts (s : State) : CountsStep s (execDetachTimerExpiry s) := by
  refine .ite (countsStep_stays s) (.ite (KeepsCounts.settled ⟨Nat.le_refl _, fun hi => ?_⟩) (countsStep_stays s))
  obtain ⟨hring, hcap, hhist, -, hres, hev, hent⟩ := hi
  exact ⟨hring, hcap, hhist, Nat.zero_le _, hres, hev, hent⟩

theorem execResultCarried_counts (straps : Station) (s : State) : CountsStep s (execResultCarried straps s) := by
  refine .ite (countsStep_stays s) ?_
  split
  next r rest _ hr =>
    have hlen : rest.length ≤ s.rq.results.length := by
      rw [hr, List.length_cons]
      exact Nat.le_succ _
    have hleft : KeepsCounts s { s with rq := { s.rq with results := rest } } := by
      refine ⟨hlen, fun hi => ?_⟩
      obtain ⟨hring, hcap, hhist, hvoid, hres, hev, hent⟩ := hi
      exact ⟨hring, hcap, hhist, hvoid, Nat.le_trans hlen hres, hev, hent⟩
    have hcarried := hleft.trans (ownCarried_keeps _)
    exact (KeepsCounts.ite (hcarried.trans (restarted_keeps _ straps)) hcarried).settled
  next => exact countsStep_stays s

theorem execReportCarried_counts (s : State) : CountsStep s (execReportCarried s) := by
  refine .ite (countsStep_stays s) ?_
  split
  · exact ((reportGone_keeps s _).trans (ownCarried_keeps _)).settled
  · exact countsStep_stays s

theorem execUsageFirstPartCarried_counts (s : State) : CountsStep s (execUsageFirstPartCarried s) := by
  refine .ite (countsStep_stays s) ?_
  split
  · split
    · refine KeepsCounts.settled (KeepsCounts.trans ?_ (ownCarried_keeps _))
      exact ⟨Nat.le_refl _, fun h => h⟩
    · exact countsStep_stays s
  · exact countsStep_stays s

theorem execUsageRecordCarried_counts (s : State) : CountsStep s (execUsageRecordCarried s) := by
  refine .ite (countsStep_stays s) ?_
  split
  · split
    · exact ((recordCarried_keeps s _).trans (ownCarried_keeps _)).settled
    · exact countsStep_stays s
  · exact countsStep_stays s

theorem execDrainComplete_counts (straps : Station) (s : State) : CountsStep s (execDrainComplete straps s) :=
  .ite (countsStep_stays s) (.ite (powerOn_keeps s straps).next (countsStep_stays s))

theorem execDrainTimerExpiry_counts (straps : Station) (s : State) : CountsStep s (execDrainTimerExpiry straps s) :=
  .ite (countsStep_stays s) (.ite (powerOn_keeps s straps).next (countsStep_stays s))

/-! ### The carried notices -/

theorem execClaim_counts (src : Source) (serial : Serial) (channel : Nat) (s : State) :
    CountsStep s (execClaim src serial channel s) := by
  refine hearNotice_counts src _ _ s fun t => ?_
  cases src with
  | own => exact claimCarried_keeps t serial
  | other x => exact claimHeard_keeps t serial channel

theorem execHeld_counts (src : Source) (serial : Serial) (channel : Nat) (s : State) :
    CountsStep s (execHeld src serial channel s) := by
  refine hearNotice_counts src _ _ s fun t => ?_
  cases src with
  | own => exact KeepsCounts.refl t
  | other x => exact heldHeard_keeps t serial channel

theorem execOffer_counts (src : Source) (serial : Serial) (source target assured peak weight eqDelay : Nat) (s : State) :
    CountsStep s (execOffer src serial source target assured peak weight eqDelay s) := by
  refine hearNotice_counts src _ _ s fun t => ?_
  cases src with
  | own => exact KeepsCounts.refl t
  | other x => exact offerHeard_keeps t serial source target _ eqDelay

theorem execAccept_counts (src : Source) (serial : Serial) (channel newHandle : Nat) (s : State) :
    CountsStep s (execAccept src serial channel newHandle s) := by
  refine hearNotice_counts src _ _ s fun t => ?_
  cases src with
  | own => exact KeepsCounts.refl t
  | other x => exact acceptHeard_keeps t serial channel newHandle

theorem execRefuse_counts (src : Source) (serial : Serial) (channel : Nat) (reason : RefuseReason) (s : State) :
    CountsStep s (execRefuse src serial channel reason s) := by
  refine hearNotice_counts src _ _ s fun t => ?_
  cases src with
  | own => exact KeepsCounts.refl t
  | other x => exact refuseHeard_keeps t serial channel reason

theorem execAccount_counts (src : Source) (serial : Serial) (source : Nat) (mode : Mode)
    (credit base lowWater residueUp residueDown period : Nat) (s : State) :
    CountsStep s (execAccount src serial source mode credit base lowWater residueUp residueDown period s) := by
  refine hearNotice_counts src _ _ s fun t => ?_
  cases src with
  | own => exact KeepsCounts.refl t
  | other x => exact accountHeard_keeps t serial source _

theorem execTaken_counts (src : Source) (serial : Serial) (channel : Nat) (s : State) :
    CountsStep s (execTaken src serial channel s) := by
  refine hearNotice_counts src _ _ s fun t => ?_
  cases src with
  | own => exact takenCarried_keeps t serial
  | other x => exact takenHeard_keeps t serial channel

theorem execReclaim_counts (src : Source) (serial : Serial) (source : Nat) (s : State) :
    CountsStep s (execReclaim src serial source s) := by
  refine hearNotice_counts src _ _ s fun t => ?_
  cases src with
  | own => exact reclaimCarried_keeps t serial
  | other x => exact reclaimHeard_keeps t serial source

theorem execHuntOpen_counts (src : Source) (id : HuntId) (s : State) : CountsStep s (execHuntOpen src id s) := by
  refine hearNotice_counts src _ _ s fun t => KeepsCounts.ite (KeepsCounts.refl t) ?_
  cases src with
  | own => exact ownOpen_keeps t id
  | other x => exact otherOpen_keeps t id

theorem execHuntJoin_counts (src : Source) (id : HuntId) (channel count : Nat) (s : State) :
    CountsStep s (execHuntJoin src id channel count s) :=
  hearNotice_counts src _ _ s fun t => joinHeard_keeps t id channel count

theorem execHuntStep_counts (src : Source) (id : HuntId) (step : Nat) (selector : Selector) (s : State) :
    CountsStep s (execHuntStep src id step selector s) := by
  refine hearNotice_counts src _ _ s fun t => ?_
  split
  · exact (setFlag_keeps t id).trans (yieldOpening_keeps _)
  · exact KeepsCounts.ite (stepHeard_keeps t src step selector) (KeepsCounts.refl t)

theorem execHuntReady_counts (src : Source) (id : HuntId) (channel step : Nat) (named : Option HomeRef) (s : State) :
    CountsStep s (execHuntReady src id channel step named s) :=
  hearNotice_counts src _ _ s fun t => readyHeard_keeps t id channel step named

theorem execHuntClose_counts (src : Source) (id : HuntId) (outcome : HuntOutcome) (s : State) :
    CountsStep s (execHuntClose src id outcome s) :=
  hearNotice_counts src _ _ s fun t => closeHeard_keeps t id outcome

theorem execPresent_counts (src : Source) (channel : Nat) (incumbent : Bool) (s : State) :
    CountsStep s (execPresent src channel incumbent s) := by
  refine hearNotice_counts src _ _ s fun t => ?_
  cases src with
  | own => exact presentCarried_keeps t incumbent
  | other x => exact KeepsCounts.ite (presentHeard_keeps t x incumbent) (KeepsCounts.refl t)

/-! ### The requests -/

theorem execSetProfile_counts (hd : RequestHeader) (d : List Byte) (s : State) :
    CountsStep s (execSetProfile hd d s) :=
  request_counts _ hd _ _ s fun a t => onHome_keeps t a.1 _ fun h => setProfileAt_keeps t a.2 h

theorem execSetAccount_counts (hd : RequestHeader) (d : List Byte) (s : State) :
    CountsStep s (execSetAccount hd d s) :=
  request_counts _ hd _ _ s fun a t => onHome_keeps t a.serial _ fun h => setAccountAt_keeps t a h

theorem execRefill_counts (hd : RequestHeader) (d : List Byte) (s : State) :
    CountsStep s (execRefill hd d s) :=
  request_counts _ hd _ _ s fun a t => onHome_keeps t a.1 _ fun h => refillAt_keeps t a.2 h

theorem execMove_counts (hd : RequestHeader) (d : List Byte) (s : State) :
    CountsStep s (execMove hd d s) :=
  request_counts _ hd _ _ s fun a t => .ite (refusedWith_keeps t _) <| .ite (refusedWith_keeps t _) <|
    onHome_keeps t a.1 _ fun h => moveAt_keeps t a.1 a.2 h

theorem execRemove_counts (hd : RequestHeader) (d : List Byte) (s : State) :
    CountsStep s (execRemove hd d s) :=
  request_counts _ hd _ _ s fun serial t => onHome_keeps t serial _ fun h =>
    .ite (done_keeps (release_keeps t h .removed true)) (refusedWith_keeps t _)

theorem execHold_counts (hd : RequestHeader) (d : List Byte) (s : State) :
    CountsStep s (execHold hd d s) :=
  request_counts _ hd _ _ s fun a t => holdRequest_keeps t a.1 a.2.1 a.2.2

theorem execClearHold_counts (hd : RequestHeader) (d : List Byte) (s : State) :
    CountsStep s (execClearHold hd d s) :=
  request_counts _ hd _ _ s fun a t => holdRequest_keeps t a.1 a.2.1 a.2.2

theorem execQueryHome_counts (hd : RequestHeader) (d : List Byte) (s : State) :
    CountsStep s (execQueryHome hd d s) :=
  request_counts _ hd _ _ s fun a t => .ite (onHome_keeps t a.1 _ fun _ => KeepsCounts.refl t) <|
    .ite (refusedWith_keeps t _) (onHome_keeps t a.1 _ fun _ => refusedWith_keeps t _)

theorem execListHomes_counts (hd : RequestHeader) (d : List Byte) (s : State) :
    CountsStep s (execListHomes hd d s) :=
  request_counts _ hd _ _ s fun _ t => .ite (refusedWith_keeps t _) (KeepsCounts.refl t)

theorem execSetTariff_counts (hd : RequestHeader) (d : List Byte) (guardPin : Bool) (s : State) :
    CountsStep s (execSetTariff hd d guardPin s) :=
  request_counts _ hd _ _ s fun _ t => .ite (refusedWith_keeps t _) <| .ite (refusedWith_keeps t _) <|
    .ite (refusedWith_keeps t _) (done_keeps (setBand_keeps t _ _))

theorem execFixTariff_counts (hd : RequestHeader) (d : List Byte) (guardPin : Bool) (s : State) :
    CountsStep s (execFixTariff hd d guardPin s) :=
  request_counts _ hd _ _ s fun _ t => .ite (refusedWith_keeps t _) <| .ite (refusedWith_keeps t _) <|
    done_keeps (setBand_keeps t _ _)

theorem execSetDiscovery_counts (hd : RequestHeader) (d : List Byte) (s : State) :
    CountsStep s (execSetDiscovery hd d s) :=
  request_counts _ hd _ _ s fun b t => discovery_keeps t (readFlag b)

theorem execStartHunt_counts (hd : RequestHeader) (d : List Byte) (s : State) :
    CountsStep s (execStartHunt hd d s) :=
  request_counts _ hd _ _ s fun _ t => .ite (refusedWith_keeps t _) <| .ite (refusedWith_keeps t _) <|
    .ite (done_keeps (KeepsCounts.refl t)) (done_keeps (openHunt_keeps t))

theorem execRestart_counts (hd : RequestHeader) (d : List Byte) (s : State) :
    CountsStep s (execRestart hd d s) :=
  request_counts _ hd _ _ s fun _ t => .ite (refusedWith_keeps t _) (done_keeps (KeepsCounts.refl t))

theorem execBand_counts (hd : RequestHeader) (d : List Byte) (s : State) : CountsStep s (execBand hd d s) :=
  broadcast_counts hd _ _ s fun _ t => KeepsCounts.ite (KeepsCounts.refl t) (meterFields_keeps t _)

theorem execClosePeriod_counts (hd : RequestHeader) (d : List Byte) (s : State) :
    CountsStep s (execClosePeriod hd d s) :=
  broadcast_counts hd _ _ s fun p t => KeepsCounts.ite (KeepsCounts.refl t) (closePeriods_keeps t p)

theorem execSetFreeLabels_counts (hd : RequestHeader) (d : List Byte) (s : State) :
    CountsStep s (execSetFreeLabels hd d s) :=
  broadcast_counts hd _ _ s fun _ t => meterFields_keeps t _

/-! ### Every command -/

theorem exec_counts (i : Instr) (s : State) : CountsStep s (exec i s) := by
  cases i with
  | powerOnReset straps => exact (powerOn_keeps s straps).next
  | resetAsserted => exact execResetAsserted_counts s
  | imageLoadComplete words => exact execImageLoadComplete_counts words s
  | noImage => exact execNoImage_counts s
  | cycleStart => exact execCycleStart_counts s
  | messageFailure handle => exact execMessageFailure_counts handle s
  | releaseDropped handle => exact execReleaseDropped_counts handle s
  | dataRangeObservation window obs => exact execDataRangeObservation_counts window obs s
  | discoverObservation window obs => exact execDiscoverObservation_counts window obs s
  | quietObservation window light => exact execQuietObservation_counts window light s
  | downstreamPacket handle label bytes => exact execDownstreamPacket_counts handle label bytes s
  | claim src serial channel => exact execClaim_counts src serial channel s
  | held src serial channel => exact execHeld_counts src serial channel s
  | offer src serial fromChannel toChannel assured peak weight eqDelay => exact execOffer_counts src serial fromChannel toChannel assured peak weight eqDelay s
  | accept src serial channel newHandle => exact execAccept_counts src serial channel newHandle s
  | refuse src serial channel reason => exact execRefuse_counts src serial channel reason s
  | account src serial fromChannel mode credit base lowWater residueUp residueDown period => exact execAccount_counts src serial fromChannel mode credit base lowWater residueUp residueDown period s
  | taken src serial channel => exact execTaken_counts src serial channel s
  | reclaim src serial fromChannel => exact execReclaim_counts src serial fromChannel s
  | huntOpen src id => exact execHuntOpen_counts src id s
  | huntJoin src id channel count => exact execHuntJoin_counts src id channel count s
  | huntStep src id step selector => exact execHuntStep_counts src id step selector s
  | huntReady src id channel step named => exact execHuntReady_counts src id channel step named s
  | huntClose src id outcome => exact execHuntClose_counts src id outcome s
  | present src channel incumbent => exact execPresent_counts src channel incumbent s
  | carriedIgnoredFrame cls sender kind => exact execCarriedIgnoredFrame_counts cls sender kind s
  | frameCheckFailed frame => exact execFrameCheckFailed_counts frame s
  | lineIdleContend rival => exact execLineIdleContend_counts rival s
  | ownFrameVoided droveVoid => exact execOwnFrameVoided_counts droveVoid s
  | detachTimerExpiry => exact execDetachTimerExpiry_counts s
  | resultCarried straps => exact execResultCarried_counts straps s
  | reportCarried => exact execReportCarried_counts s
  | usageFirstPartCarried => exact execUsageFirstPartCarried_counts s
  | usageRecordCarried => exact execUsageRecordCarried_counts s
  | drainComplete straps => exact execDrainComplete_counts straps s
  | drainTimerExpiry straps => exact execDrainTimerExpiry_counts straps s
  | claimHoldExpiry handle => exact execClaimHoldExpiry_counts handle s
  | lostTimerExpiry handle => exact execLostTimerExpiry_counts handle s
  | handoverTimerExpiry handle => exact execHandoverTimerExpiry_counts handle s
  | inboundTimerExpiry handle => exact execInboundTimerExpiry_counts handle s
  | guardExpiry => exact execGuardExpiry_counts s
  | joinTimerExpiry => exact execJoinTimerExpiry_counts s
  | readyTimerExpiry => exact execReadyTimerExpiry_counts s
  | listeningTimerExpiry => exact execListeningTimerExpiry_counts s
  | repeatTimerExpiry source => exact execRepeatTimerExpiry_counts source s
  | setProfile hd data => exact execSetProfile_counts hd data s
  | setAccount hd data => exact execSetAccount_counts hd data s
  | refill hd data => exact execRefill_counts hd data s
  | move hd data => exact execMove_counts hd data s
  | remove hd data => exact execRemove_counts hd data s
  | hold hd data => exact execHold_counts hd data s
  | clearHold hd data => exact execClearHold_counts hd data s
  | queryHome hd data => exact execQueryHome_counts hd data s
  | listHomes hd data => exact execListHomes_counts hd data s
  | setTariff hd data guardPin => exact execSetTariff_counts hd data guardPin s
  | fixTariff hd data guardPin => exact execFixTariff_counts hd data guardPin s
  | setDiscovery hd data => exact execSetDiscovery_counts hd data s
  | startHunt hd data => exact execStartHunt_counts hd data s
  | restart hd data => exact execRestart_counts hd data s
  | band hd data => exact execBand_counts hd data s
  | closePeriod hd data => exact execClosePeriod_counts hd data s
  | setFreeLabels hd data => exact execSetFreeLabels_counts hd data s

/-- Settles O4: every command keeps the counts, and taking it from the queue changes none. -/
theorem countsKept : Obligations.CountsKept := by
  unfold Obligations.CountsKept
  intro s t hi hstep
  unfold step at hstep
  split at hstep
  · cases hstep
    exact hi
  · exact exec_counts _ s.dequeue t hstep hi

end Sys2Proof.Machine
end

section
/-! PROOFS. The roster law and the agreement of an entry's parts, clause by clause, and the moves that keep both: a home's fields rewritten, a home freed, a home taken in, and every change that touches no home. -/

namespace Sys2Proof.Machine

/-! ### The roster law by name (R22 to R24, R45, R53, R104, R190) -/

/-- A claim of the capture list names this handle for this serial (R50). -/
def State.Claims (s : State) (h : Nat) (serial : Serial) : Prop :=
  ∃ k p, some k ∈ s.ee.captures ∧ k.claim = some p ∧ p.handle = h ∧ k.serial = serial

/-- A live position of the frozen list names this home (R104). -/
def State.Hunted (s : State) (r : HomeRef) : Prop := ∃ p ∈ s.hu.frozen, p.dead = false ∧ p.home = r

theorem claims_of_ee {s t : State} (he : t.ee = s.ee) : ∀ h serial, t.Claims h serial → s.Claims h serial := by
  unfold State.Claims
  rw [he]
  exact fun _ _ hc => hc

theorem hunted_of_frozen {s t : State} (hf : t.hu.frozen = s.hu.frozen) : ∀ r, t.Hunted r → s.Hunted r := by
  unfold State.Hunted
  rw [hf]
  exact fun _ hr => hr

theorem builds_of_startup {s t : State} (hi : t.il.startup = s.il.startup) : t.builds = s.builds := by
  unfold State.builds State.operating State.draining
  rw [hi]

theorem isHome_iff (s : State) (r : HomeRef) :
    s.isHome r = true ↔ (s.entry r.handle).state ≠ .free ∧ (s.entry r.handle).serial = some r.serial := by
  unfold State.isHome
  rw [Bool.and_eq_true, decide_eq_true_eq, decide_eq_true_eq]

/-- The clauses of `RosterInv`. -/
structure RosterLaw (s : State) : Prop where
  free : ∀ h, (s.entry h).state = .free → s.entry h = Entry.free ∧ s.acct h = none
  serial : ∀ h, (s.entry h).state ≠ .free → (s.entry h).serial.isSome = true
  unique : ∀ h k, (s.entry h).state ≠ .free → (s.entry k).state ≠ .free → (s.entry h).serial = (s.entry k).serial → h = k
  reach : s.img.rLow ≤ s.img.rHigh ∧ s.img.rHigh ≤ 160000
  delay : ∀ h e, (s.entry h).eqDelay = some e → 160000 - s.img.rHigh ≤ e ∧ e ≤ 160000 - s.img.rLow
  claim : ∀ h serial, s.Claims h serial → (s.entry h).state = .claiming ∧ (s.entry h).serial = some serial
  hunted : ∀ r, s.Hunted r → s.isHome r = true
  closed : s.builds = false → ∀ h, (s.entry h).state = .free

theorem rosterInv_iff (s : State) : RosterInv s ↔ RosterLaw s := by
  constructor
  · rintro ⟨hfree, hserial, hunique, ⟨hlo, hhi, hdelay⟩, hclaim, hhunted, hclosed⟩
    refine ⟨hfree, hserial, hunique, ⟨hlo, hhi⟩, hdelay, ?_, ?_, hclosed⟩
    · rintro _ _ ⟨k, p, hk, hp, rfl, rfl⟩
      exact hclaim _ hk k p rfl hp
    · rintro _ ⟨p, hp, hd, rfl⟩
      exact hhunted p hp hd
  · intro x
    refine ⟨x.free, x.serial, x.unique, ⟨x.reach.1, x.reach.2, x.delay⟩, ?_, ?_, x.closed⟩
    · rintro _ hc k p rfl hp
      exact x.claim _ _ ⟨k, p, hc, hp, rfl, rfl⟩
    · intro p hp hd
      exact x.hunted _ ⟨p, hp, hd, rfl⟩

theorem RosterLaw.live {s : State} (x : RosterLaw s) {h : Nat} (he : s.entry h ≠ Entry.free) : (s.entry h).state ≠ .free :=
  fun hf => he (x.free h hf).1

theorem RosterLaw.live_of_acct {s : State} (x : RosterLaw s) {h : Nat} (ha : s.acct h ≠ none) :
    (s.entry h).state ≠ .free := fun hf => ha (x.free h hf).2

theorem ne_free_of_state {e : Entry} (h : e.state ≠ .free) : e ≠ Entry.free := by
  rintro rfl
  exact h rfl

/-- A delay clamped to the reach lies in it (R24). -/
theorem clampDelay_inReach (img : Image) (d : Int) (h : img.rLow ≤ img.rHigh ∧ img.rHigh ≤ 160000) :
    160000 - img.rHigh ≤ clampDelay img d ∧ clampDelay img d ≤ 160000 - img.rLow := by
  unfold clampDelay clampInt Config.targetDelay
  omega

/-! ### The parts of an entry (R23, R27, R41, R87, R124) -/

/-- The parts of an entry agree with its state, and the re-range phase with both: the clauses of `PartsInv` at one handle. -/
def Entry.Agrees (e : Entry) (phase : Phase) : Prop :=
  e.handover.map Handover.direction = e.state.direction ∧
    (e.lostTimer.isSome = true ↔ e.state = .lost) ∧
    (e.holds.drift = true → e.state = .active ∨ e.state = .closing) ∧
    (phase ≠ .off ↔ e.holds.drift = true ∧ e.state = .active)

theorem partsInv_iff (s : State) : PartsInv s ↔ ∀ h, (s.entry h).Agrees (s.drift h).phase := Iff.rfl

theorem free_agrees : Entry.free.Agrees .off := by simp [Entry.Agrees, Entry.free, HomeState.direction, Holds.clear]

/-! ### How an entry may change -/

/-- The entry keeps its state, its home and its parts; its delay is clamped to the reach where it is stored anew. -/
structure Entry.Touched (img : Image) (e e' : Entry) : Prop where
  state : e'.state = e.state
  serial : e'.serial = e.serial
  direction : e'.handover.map Handover.direction = e.handover.map Handover.direction
  lostTimer : e'.lostTimer.isSome = e.lostTimer.isSome
  drift : e'.holds.drift = e.holds.drift
  delay : e'.eqDelay = e.eqDelay ∨ ∃ d : Int, e'.eqDelay = some (clampDelay img d)

theorem Entry.Touched.refl (img : Image) (e : Entry) : e.Touched img e := ⟨rfl, rfl, rfl, rfl, rfl, .inl rfl⟩

theorem Entry.Touched.trans {img : Image} {e f g : Entry} (a : e.Touched img f) (b : f.Touched img g) : e.Touched img g := by
  refine ⟨b.state.trans a.state, b.serial.trans a.serial, b.direction.trans a.direction, b.lostTimer.trans a.lostTimer,
    b.drift.trans a.drift, ?_⟩
  rcases b.delay with hb | hb
  · rw [hb]; exact a.delay
  · exact .inr hb

theorem Entry.Touched.agrees {img : Image} {e f : Entry} (a : e.Touched img f) {phase : Phase} (h : e.Agrees phase) :
    f.Agrees phase := by
  unfold Entry.Agrees at h ⊢
  rw [a.state, a.direction, a.lostTimer, a.drift]
  exact h

/-- The entry holds the same home in another state: it is not freed, a claim stays a claim and a closing entry closing. -/
structure Entry.Turns (img : Image) (e e' : Entry) : Prop where
  held : e.state ≠ .free → e'.state ≠ .free
  serial : e'.serial = e.serial
  delay : e'.eqDelay = e.eqDelay ∨ ∃ d : Int, e'.eqDelay = some (clampDelay img d)
  claiming : e.state = .claiming → e'.state = .claiming
  closing : e.state = .closing → e'.state = .closing

theorem Entry.Touched.turns {img : Image} {e f : Entry} (a : e.Touched img f) : e.Turns img f :=
  ⟨fun h => by rwa [a.state], a.serial, a.delay, a.state.trans, a.state.trans⟩

theorem Entry.Turns.touched {img : Image} {e f g : Entry} (a : e.Turns img f) (b : f.Touched img g) : e.Turns img g := by
  refine ⟨fun h => by rw [b.state]; exact a.held h, b.serial.trans a.serial, ?_, fun h => b.state.trans (a.claiming h),
    fun h => b.state.trans (a.closing h)⟩
  rcases b.delay with hb | hb
  · rw [hb]; exact a.delay
  · exact .inr hb

/-- An entry that is neither CLAIMING nor CLOSING turns into any other state that holds its home. -/
theorem Entry.Turns.of_state {img : Image} {e e' : Entry} (hc : e.state ≠ .claiming) (hk : e.state ≠ .closing)
    (hh : e'.state ≠ .free) (hs : e'.serial = e.serial)
    (hd : e'.eqDelay = e.eqDelay ∨ ∃ d : Int, e'.eqDelay = some (clampDelay img d)) : e.Turns img e' :=
  ⟨fun _ => hh, hs, hd, fun h => absurd h hc, fun h => absurd h hk⟩

/-! ### What a step keeps of the homes -/

/-- From s to t the roster law and the agreement of the parts are kept, and where P holds every CLOSING entry stays CLOSING (R44, R45). -/
structure Sound (P : Prop) (s t : State) : Prop where
  roster : RosterLaw s → RosterLaw t
  parts : PartsInv s → PartsInv t
  closing : P → RosterLaw s → ∀ h, (s.entry h).state = .closing → (t.entry h).state = .closing

section Sound
variable {P : Prop} {s t u : State}

theorem Sound.refl (s : State) : Sound P s s := ⟨fun h => h, fun h => h, fun _ _ _ h => h⟩

theorem Sound.trans (a : Sound P s t) (b : Sound P t u) : Sound P s u :=
  ⟨fun h => b.roster (a.roster h), fun h => b.parts (a.parts h),
    fun hp h k hk => b.closing hp (a.roster h) k (a.closing hp h k hk)⟩

theorem Sound.ite {c : Prop} [Decidable c] (a : c → Sound P s t) (b : ¬c → Sound P s u) : Sound P s (if c then t else u) := by
  split
  next h => exact a h
  next h => exact b h

theorem isHome_of_touched (h : ∀ k, ∃ img, (s.entry k).Touched img (t.entry k)) (r : HomeRef) : t.isHome r = s.isHome r := by
  obtain ⟨img, hr⟩ := h r.handle
  unfold State.isHome
  rw [hr.state, hr.serial]

theorem img_of_image (h : t.il.image = s.il.image) : t.img = s.img := by
  unfold State.img
  rw [h]

/-- No home changes: the entries are touched at most and the FREE ones stay cleared, no account is opened, no claim and no hunt position is added, the image stands, and maps are not stopped. -/
structure SameHomes (s t : State) : Prop where
  entry : ∀ h, (s.entry h).Touched s.img (t.entry h)
  freed : RosterLaw s → ∀ h, (s.entry h).state = .free → t.entry h = Entry.free
  accounts : ∀ h, s.acct h = none → t.acct h = none
  phase : ∀ h, (t.drift h).phase = (s.drift h).phase
  claims : ∀ h serial, t.Claims h serial → s.Claims h serial
  hunted : ∀ r, t.Hunted r → s.Hunted r
  image : t.il.image = s.il.image
  builds : t.builds = false → s.builds = false

theorem SameHomes.roster (x : SameHomes s t) (hr : RosterLaw s) : RosterLaw t := by
  have hstate (h : Nat) := (x.entry h).state
  have hserial (h : Nat) := (x.entry h).serial
  constructor
  · intro h hf
    rw [hstate] at hf
    exact ⟨x.freed hr h hf, x.accounts h (hr.free h hf).2⟩
  · intro h hf
    rw [hstate] at hf
    rw [hserial]
    exact hr.serial h hf
  · intro h k
    rw [hstate, hstate, hserial, hserial]
    exact hr.unique h k
  · rw [img_of_image x.image]
    exact hr.reach
  · intro h e hd
    rw [img_of_image x.image]
    rcases (x.entry h).delay with hs | ⟨y, hy⟩
    · exact hr.delay h e (hs ▸ hd)
    · rw [hy, Option.some.injEq] at hd
      subst hd
      exact clampDelay_inReach _ y hr.reach
  · intro h serial hc
    rw [hstate, hserial]
    exact hr.claim h serial (x.claims h serial hc)
  · intro r hh
    rw [isHome_of_touched fun k => ⟨_, x.entry k⟩]
    exact hr.hunted r (x.hunted r hh)
  · intro hb h
    rw [hstate]
    exact hr.closed (x.builds hb) h

theorem SameHomes.sound (x : SameHomes s t) : Sound P s t := by
  refine ⟨x.roster, fun hp h => ?_, fun _ _ h hk => (x.entry h).state.trans hk⟩
  rw [x.phase h]
  exact (x.entry h).agrees (hp h)

/-- No entry, account, phase, image or start-up state is written, and no claim or hunt position is added. -/
theorem sameHomes_of_roster (hr : t.roster = s.roster) (hu : ∀ h, s.acct h = none → t.acct h = none)
    (hd : t.lw.drift = s.lw.drift) (hc : ∀ h serial, t.Claims h serial → s.Claims h serial)
    (hh : ∀ r, t.Hunted r → s.Hunted r) (hi : t.il.image = s.il.image) (hs : t.il.startup = s.il.startup) :
    SameHomes s t where
  entry h := by rw [entry_of_roster s t hr]; exact .refl _ _
  freed x h hf := by rw [entry_of_roster s t hr]; exact (x.free h hf).1
  accounts := hu
  phase h := by unfold State.drift; rw [hd]
  claims := hc
  hunted := hh
  image := hi
  builds := (builds_of_startup hs).symm.trans

/-- Nothing the two laws read is written. -/
theorem sameHomes_of_fields (hr : t.roster = s.roster) (hu : t.um = s.um) (hd : t.lw.drift = s.lw.drift) (he : t.ee = s.ee)
    (hf : t.hu.frozen = s.hu.frozen) (hi : t.il = s.il) : SameHomes s t :=
  sameHomes_of_roster hr (fun k => (acct_of_um s t hu k).trans) hd (claims_of_ee he)
    (hunted_of_frozen hf) (congrArg ImageLoader.image hi) (congrArg ImageLoader.startup hi)

theorem ReportsOnly.sound (x : ReportsOnly s t) : Sound P s t := by
  obtain ⟨_, _, _, rfl⟩ := x
  refine SameHomes.sound ?_
  exact sameHomes_of_fields rfl rfl rfl rfl rfl rfl

theorem Offered.sound (o : Offered s t) : Sound P s t :=
  (sameHomes_of_fields o.roster o.um (by rw [o.lw]) o.ee (by rw [o.hu]) o.il).sound

end Sound

/-! ### A home's entry is rewritten -/

section Writes
variable {P : Prop}

/-- One entry is written: the home stays, and a claim on it stands only where it is CLAIMING still. -/
theorem RosterLaw.setEntry {s : State} (x : RosterLaw s) (h : Nat) (e : Entry) (live : s.entry h ≠ Entry.free)
    (held : (s.entry h).state ≠ .free → e.state ≠ .free) (serial : e.serial = (s.entry h).serial)
    (delay : e.eqDelay = (s.entry h).eqDelay ∨ ∃ d : Int, e.eqDelay = some (clampDelay s.img d))
    (claims : ∀ sr, s.Claims h sr → e.state = .claiming) : RosterLaw (s.setEntry h e) := by
  have hlive := x.live live
  have hrange := handle_of_state s h hlive
  have hentry (k : Nat) : (s.setEntry h e).entry k = if k = h then e else s.entry k := by
    rw [entry_setEntry]
    simp [hrange]
  have hfree (k : Nat) : ((s.setEntry h e).entry k).state = .free ↔ (s.entry k).state = .free := by
    rw [hentry]
    split
    next hk => subst hk; exact ⟨fun y => absurd y (held hlive), fun y => absurd y hlive⟩
    next => rfl
  have hserial (k : Nat) : ((s.setEntry h e).entry k).serial = (s.entry k).serial := by
    rw [hentry]
    split
    next hk => rw [serial, hk]
    next => rfl
  constructor
  · intro k hk
    rw [hfree] at hk
    have hne : k ≠ h := fun y => hlive (y ▸ hk)
    rw [hentry, if_neg hne]
    exact x.free k hk
  · intro k hk
    rw [Ne, hfree] at hk
    rw [hserial]
    exact x.serial k hk
  · intro k l hk hl
    rw [Ne, hfree] at hk hl
    rw [hserial, hserial]
    exact x.unique k l hk hl
  · exact x.reach
  · intro k d hd
    rw [hentry] at hd
    split at hd
    · rcases delay with hsame | ⟨y, hclamp⟩
      · exact x.delay h d (hsame ▸ hd)
      · rw [hclamp, Option.some.injEq] at hd
        subst hd
        exact clampDelay_inReach _ y x.reach
    · exact x.delay k d hd
  · intro k sr hc
    obtain ⟨hstate, hsr⟩ := x.claim k sr hc
    rw [hserial, hsr, hentry]
    split
    next hk => exact ⟨claims sr (hk ▸ hc), rfl⟩
    next => exact ⟨hstate, rfl⟩
  · intro r hr
    have hhome := (isHome_iff s r).1 (x.hunted r hr)
    rw [isHome_iff, Ne, hfree, hserial]
    exact hhome
  · intro hb k
    rw [hfree]
    exact x.closed hb k

theorem closing_setEntry {s : State} {h : Nat} {e : Entry} (hc : (s.entry h).state = .closing → e.state = .closing) (k : Nat)
    (hk : (s.entry k).state = .closing) : ((s.setEntry h e).entry k).state = .closing := by
  rw [entry_setEntry]
  split
  next hh => exact hc (hh.1 ▸ hk)
  next => exact hk

/-- Every home but one keeps its entry and its phase, and the parts of that one agree still. -/
theorem PartsInv.at {s t : State} (x : PartsInv s) (h : Nat)
    (others : ∀ k, k ≠ h → t.entry k = s.entry k ∧ (t.drift k).phase = (s.drift k).phase)
    (here : (s.entry h).Agrees (s.drift h).phase → (t.entry h).Agrees (t.drift h).phase) : PartsInv t := by
  intro k
  by_cases hk : k = h
  · subst hk
    exact here (x k)
  · obtain ⟨he, hp⟩ := others k hk
    have hx := x k
    rw [← he, ← hp] at hx
    exact hx

/-- An entry written and its re-range phase set. -/
theorem setHome_parts {s : State} (x : PartsInv s) (h : Nat) (e : Entry) (p : Phase)
    (ha : (s.entry h).Agrees (s.drift h).phase → e.Agrees p) : PartsInv ((s.setEntry h e).setPhase h p) := by
  refine x.at h (fun k hk => ⟨entry_setEntry_other s h k e hk, ?_⟩) fun hx => ?_
  · exact congrArg Drift.phase (drift_setDrift_other _ h k _ hk)
  · by_cases hh : 1 ≤ h ∧ h ≤ 64
    · have he : ((s.setEntry h e).setPhase h p).entry h = e := entry_setEntry_self s h e hh
      have hd : (((s.setEntry h e).setPhase h p).drift h).phase = p := congrArg Drift.phase (drift_setDrift_self _ h _ hh)
      rw [he, hd]
      exact ha hx
    · rw [entry_outside _ h hh, drift_outside _ h hh]
      exact free_agrees

theorem setEntry_parts {s : State} (x : PartsInv s) (h : Nat) (e : Entry)
    (ha : (s.entry h).Agrees (s.drift h).phase → e.Agrees (s.drift h).phase) : PartsInv (s.setEntry h e) := by
  refine x.at h (fun k hk => ⟨entry_setEntry_other s h k e hk, rfl⟩) fun hx => ?_
  by_cases hh : 1 ≤ h ∧ h ≤ 64
  · rw [entry_setEntry_self s h e hh]
    exact ha hx
  · rw [entry_outside _ h hh, drift_outside _ h hh]
    exact free_agrees

/-- The roster law where the drift data alone are written. -/
theorem RosterLaw.setDrift {s : State} (x : RosterLaw s) (h : Nat) (d : Drift) : RosterLaw (s.setDrift h d) :=
  ⟨x.free, x.serial, x.unique, x.reach, x.delay, x.claim, x.hunted, x.closed⟩

theorem RosterLaw.turn {s : State} (x : RosterLaw s) (h : Nat) (e : Entry) (live : s.entry h ≠ Entry.free)
    (ht : (s.entry h).Turns s.img e) : RosterLaw (s.setEntry h e) :=
  x.setEntry h e live ht.held ht.serial ht.delay fun sr hc => ht.claiming (x.claim h sr hc).1

/-- A home's entry turns, and its parts agree with its phase. -/
theorem setEntry_sound (s : State) (h : Nat) (e : Entry) (live : s.entry h ≠ Entry.free) (ht : (s.entry h).Turns s.img e)
    (ha : (s.entry h).Agrees (s.drift h).phase → e.Agrees (s.drift h).phase) : Sound P s (s.setEntry h e) :=
  ⟨fun x => x.turn h e live ht, fun x => setEntry_parts x h e ha, fun _ _ => closing_setEntry ht.closing⟩

/-- A home's entry is touched. -/
theorem touch_sound (s : State) (h : Nat) (e : Entry) (live : s.entry h ≠ Entry.free) (ht : (s.entry h).Touched s.img e) :
    Sound P s (s.setEntry h e) := setEntry_sound s h e live ht.turns ht.agrees

/-- A home's entry turns, and its parts agree with the phase set with it. -/
theorem setHome_sound (s : State) (h : Nat) (e : Entry) (p : Phase) (live : s.entry h ≠ Entry.free)
    (ht : (s.entry h).Turns s.img e) (ha : (s.entry h).Agrees (s.drift h).phase → e.Agrees p) :
    Sound P s ((s.setEntry h e).setPhase h p) :=
  ⟨fun x => (x.turn h e live ht).setDrift h _, fun x => setHome_parts x h e p ha, fun _ _ => closing_setEntry ht.closing⟩

/-- Drift data are written, the phase as it was. -/
theorem setDrift_sound (s : State) (h : Nat) (d : Drift) (hp : d.phase = (s.drift h).phase) : Sound P s (s.setDrift h d) := by
  refine SameHomes.sound ⟨fun _ => .refl _ _, fun x k hk => (x.free k hk).1, fun _ ha => ha, fun k => ?_,
    fun _ _ hc => hc, fun _ hh => hh, rfl, fun hb => hb⟩
  rw [drift_setDrift]
  split
  next hk => rw [hp, hk.1]
  next => rfl

/-- The account of a home that is not FREE is written. -/
theorem setAcct_sound (s : State) (h : Nat) (a : Option Account)
    (ha : RosterLaw s → (s.entry h).state ≠ .free) : Sound P s (s.setAcct h a) := by
  refine ⟨fun x => ⟨fun k hk => ⟨(x.free k hk).1, ?_⟩, x.serial, x.unique, x.reach, x.delay, x.claim, x.hunted, x.closed⟩,
    fun x => x, fun _ _ _ hk => hk⟩
  have hne : k ≠ h := fun y => ha x (y ▸ hk)
  rw [acct_setAcct, if_neg fun y => hne y.1]
  exact (x.free k hk).2

theorem changeAcct_sound (s : State) (h : Nat) (a : Account) (ha : RosterLaw s → (s.entry h).state ≠ .free) :
    Sound P s (s.changeAcct h a) := (setAcct_sound s h _ ha).trans (changeAcct_reportsOnly s h a).sound

/-- Every entry of the roster is touched, and a FREE one stays as it is. -/
theorem sameHomes_of_map {s t : State} (f : Nat → Entry → Entry) (hr : t.roster = tableMap f s.roster)
    (ht : ∀ h (e : Entry), e.Touched s.img (f h e))
    (hfree : RosterLaw s → ∀ h, (s.entry h).state = .free → f h Entry.free = Entry.free) (hu : t.um = s.um)
    (hd : t.lw.drift = s.lw.drift) (hc : ∀ h serial, t.Claims h serial → s.Claims h serial)
    (hf : t.hu.frozen = s.hu.frozen) (hi : t.il.image = s.il.image) (hs : t.il.startup = s.il.startup) :
    SameHomes s t := by
  have hentry (k : Nat) : t.entry k = if 1 ≤ k ∧ k ≤ 64 then f k (s.entry k) else Entry.free := by
    unfold State.entry
    rw [hr, tableGet_tableMap]
  refine ⟨fun k => ?_, fun x k hk => ?_, fun k => (acct_of_um s t hu k).trans, fun k => ?_, hc,
    hunted_of_frozen hf, hi, (builds_of_startup hs).symm.trans⟩
  · rw [hentry]
    split
    next => exact ht k _
    next hk => rw [entry_outside s k hk]; exact .refl _ _
  · rw [hentry, (x.free k hk).1, hfree x k hk, ite_self]
  · unfold State.drift
    rw [hd]

end Writes

end Sys2Proof.Machine
end

section
/-! PROOFS. What the shared operations keep of the homes: notices, events and alarms touch none; a home freed, taken in, lost, closed or returned keeps the roster law and its parts. -/

namespace Sys2Proof.Machine

section Shared
variable {P : Prop}

/-! ### Writes that touch no home -/

theorem queueNotice_homes (s : State) (n : Notice) : Sound P s (s.queueNotice n) :=
  (sameHomes_of_fields (by simp) (by simp) (by simp) (by simp) (by simp) (by simp)).sound

theorem withdraw_homes (s : State) (test : Notice → Bool) : Sound P s (s.withdraw test) :=
  (sameHomes_of_fields (by simp) (by simp) (by simp) (by simp) (by simp) (by simp)).sound

theorem pushEvent_homes (s : State) (e : Event) : Sound P s (s.pushEvent e) :=
  (sameHomes_of_fields (by simp) (by simp) (by simp) (by simp) (by simp) (by simp)).sound

theorem settle_homes (s : State) : Sound P s s.settle := (settle_offered s).sound

theorem endCondition_homes (s : State) (a : AlarmSource) : Sound P s (s.endCondition a) := (endCondition_reportsOnly s a).sound

theorem endConditions_homes (s : State) (h : Nat) : Sound P s (s.endConditions h) := (endConditions_reportsOnly s h).sound

theorem raiseAlarm_homes (s : State) (a : AlarmSource) (c : AlarmContent) : Sound P s (s.raiseAlarm a c) :=
  (raiseAlarm_reportsOnly s a c).sound

theorem startCredit_homes (s : State) (h : Nat) : Sound P s (s.startCredit h) := (startCredit_reportsOnly s h).sound

theorem unbook_homes (s : State) (h : Nat) : Sound P s (s.unbook h) :=
  (sameHomes_of_fields (by simp) (by simp) (by simp) (by simp) (by simp) (by simp)).sound

/-- Only an account that stands already is written. -/
theorem setAcct_homes (s : State) (h : Nat) (a : Option Account) (ha : s.acct h = none → a = none) :
    Sound P s (s.setAcct h a) := by
  refine (sameHomes_of_roster (by simp) (fun k hk => ?_) (by simp) (claims_of_ee (by simp))
    (hunted_of_frozen (by simp)) (by simp) (by simp)).sound
  rw [acct_setAcct]
  split
  next hh => exact ha (hh.1 ▸ hk)
  next => exact hk

/-! ### A home is freed (R45) -/

theorem freeEntry_hunted (s : State) (h : Nat) (r : HomeRef) (hr : (s.freeEntry h).Hunted r) :
    s.Hunted r ∧ r.handle ≠ h := by
  obtain ⟨p, hp, hd, rfl⟩ := hr
  have hf : (s.freeEntry h).hu.frozen = s.hu.frozen.map fun p => if p.home.handle = h then { p with dead := true } else p := rfl
  rw [hf, List.mem_map] at hp
  obtain ⟨q, hq, rfl⟩ := hp
  by_cases hh : q.home.handle = h
  · rw [if_pos hh] at hd
    cases hd
  · rw [if_neg hh] at hd ⊢
    exact ⟨⟨q, hq, hd, rfl⟩, hh⟩

/-- Freeing an entry that no claim names keeps the roster law. -/
theorem RosterLaw.freeEntry {s : State} (x : RosterLaw s) (h : Nat) (hc : ∀ sr, ¬s.Claims h sr) :
    RosterLaw (s.freeEntry h) := by
  have hother (k : Nat) (hk : ((s.freeEntry h).entry k).state ≠ .free) :
      k ≠ h ∧ (s.freeEntry h).entry k = s.entry k := by
    have hne : k ≠ h := by
      rintro rfl
      exact hk (by rw [freeEntry_entry, if_pos rfl]; rfl)
    exact ⟨hne, by rw [freeEntry_entry, if_neg hne]⟩
  constructor
  · intro k hk
    rw [freeEntry_entry] at hk ⊢
    rw [freeEntry_acct]
    by_cases hh : k = h
    · rw [if_pos hh, if_pos hh]
      exact ⟨rfl, rfl⟩
    · rw [if_neg hh] at hk ⊢
      rw [if_neg hh]
      exact x.free k hk
  · intro k hk
    obtain ⟨-, he⟩ := hother k hk
    rw [he] at hk ⊢
    exact x.serial k hk
  · intro k l hk hl hs
    obtain ⟨-, he⟩ := hother k hk
    obtain ⟨-, he'⟩ := hother l hl
    rw [he] at hk hs
    rw [he'] at hl hs
    exact x.unique k l hk hl hs
  · exact x.reach
  · intro k d hd
    by_cases hh : k = h
    · rw [freeEntry_entry, if_pos hh] at hd
      cases hd
    · rw [freeEntry_entry, if_neg hh] at hd
      exact x.delay k d hd
  · intro k sr hk
    have hne : k ≠ h := by
      rintro rfl
      exact hc sr hk
    rw [freeEntry_entry, if_neg hne]
    exact x.claim k sr hk
  · intro r hr
    obtain ⟨hhunted, hne⟩ := freeEntry_hunted s h r hr
    have hhome := (isHome_iff s r).1 (x.hunted r hhunted)
    rw [isHome_iff, freeEntry_entry, if_neg hne]
    exact hhome
  · intro hb k
    rw [freeEntry_entry]
    split
    · rfl
    · exact x.closed hb k

theorem freeEntry_parts {s : State} (x : PartsInv s) (h : Nat) : PartsInv (s.freeEntry h) := by
  refine x.at h (fun k hk => ?_) fun _ => ?_
  · rw [freeEntry_entry, freeEntry_drift, if_neg hk, if_neg hk]
    exact ⟨rfl, rfl⟩
  · rw [freeEntry_entry, freeEntry_drift, if_pos rfl, if_pos rfl]
    exact free_agrees

theorem freeEntry_closing (s : State) (h : Nat) (hs : (s.entry h).state ≠ .closing) (k : Nat)
    (hk : (s.entry k).state = .closing) : ((s.freeEntry h).entry k).state = .closing := by
  have hne : k ≠ h := by
    rintro rfl
    exact hs hk
  rw [freeEntry_entry, if_neg hne]
  exact hk

/-- An entry that is no claim's is freed; a CLOSING one only where nothing is said of those. -/
theorem freeEntry_sound (s : State) (h : Nat) (hc : (s.entry h).state ≠ .claiming) (hp : P → (s.entry h).state ≠ .closing) :
    Sound P s (s.freeEntry h) :=
  ⟨fun x => x.freeEntry h fun sr hk => hc (x.claim h sr hk).1, fun x => freeEntry_parts x h,
    fun p _ => freeEntry_closing s h (hp p)⟩

theorem freePlaceOf_claims (s : State) (h k : Nat) (sr : Serial) (hc : (s.freePlaceOf h).Claims k sr) :
    s.Claims k sr ∧ k ≠ h := by
  obtain ⟨c, p, hm, hp, rfl, rfl⟩ := hc
  have hf : (s.freePlaceOf h).ee.captures = s.ee.captures.map fun c =>
      if (c.any fun k => k.claim.any fun p => p.handle = h) then none else c := rfl
  rw [hf, List.mem_map] at hm
  obtain ⟨o, ho, hoc⟩ := hm
  split at hoc
  · cases hoc
  next hany =>
    subst hoc
    refine ⟨⟨c, p, ho, hp, rfl, rfl⟩, fun hh => hany ?_⟩
    simp [hp, hh]

theorem freePlaceOf_homes (s : State) (h : Nat) : Sound P s (s.freePlaceOf h) := by
  refine SameHomes.sound (sameHomes_of_roster rfl (fun _ ha => ha) rfl (fun k sr hc => ?_) (fun _ hh => hh) rfl rfl)
  exact (freePlaceOf_claims s h k sr hc).1

/-- Dropping a claim: its place is freed, then its entry, then its CLAIM is withdrawn (R56). -/
theorem dropClaim_eq (s : State) (serial : Serial) (h : Nat) :
    s.dropClaim serial h = ((s.freePlaceOf h).freeEntry h).withdraw (isClaimOf serial) := by
  refine congrArg (fun places => State.withdraw { s.freeEntry h with ee := { s.ee with captures := places } }
    (isClaimOf serial)) (List.map_congr_left fun c _ => ?_)
  cases c <;> rfl

theorem dropClaim_entry (s : State) (serial : Serial) (h k : Nat) :
    (s.dropClaim serial h).entry k = if k = h then Entry.free else s.entry k := by
  rw [dropClaim_eq]
  exact freeEntry_entry (s.freePlaceOf h) h k

/-- A claim is dropped, whatever its entry has become; a CLOSING one only where nothing is said of those. -/
theorem dropClaim_homes (s : State) (serial : Serial) (h : Nat) (hp : P → (s.entry h).state ≠ .closing) :
    Sound P s (s.dropClaim serial h) := by
  rw [dropClaim_eq]
  refine (freePlaceOf_homes s h).trans (Sound.trans ?_ (withdraw_homes _ _))
  exact ⟨fun x => x.freeEntry h fun sr hk => (freePlaceOf_claims s h h sr hk).2 rfl, fun x => freeEntry_parts x h,
    fun p _ => freeEntry_closing _ h (hp p)⟩

/-! ### A home is taken in (R22, R53, R128) -/

theorem find_none (s : State) (serial : Serial) (hf : s.find serial = none) (h : Nat) (hl : (s.entry h).state ≠ .free) :
    (s.entry h).serial ≠ some serial := by
  intro hs
  have hmem : h ∈ handles := (mem_handles h).2 (handle_of_state s h hl)
  have hnone := List.find?_eq_none.1 hf h hmem
  exact hnone (decide_eq_true ⟨hl, hs⟩)

theorem freeHandle_free (s : State) (h : Nat) (hf : s.freeHandle = some h) : (s.entry h).state = .free := by
  unfold State.freeHandle at hf
  simpa using List.find?_some hf

/-- The entry a new home starts with: its serial, a delay in the reach, and parts that agree. -/
structure Entry.Starts (img : Image) (serial : Serial) (e : Entry) : Prop where
  held : e.state ≠ .free
  serial : e.serial = some serial
  delay : ∃ d : Int, e.eqDelay = some (clampDelay img d)
  agrees : e.Agrees .off

theorem takeEntry_entry (s : State) (h k : Nat) (e : Entry) (hh : 1 ≤ h ∧ h ≤ 64) :
    (s.takeEntry h e).entry k = if k = h then e else s.entry k := by
  have he : (s.takeEntry h e).entry k = (s.setEntry h e).entry k := rfl
  rw [he, entry_setEntry]
  simp [hh]

theorem RosterLaw.takeEntry {s : State} (x : RosterLaw s) (h : Nat) (e : Entry) (serial : Serial)
    (hfind : s.find serial = none) (hfree : s.freeHandle = some h) (he : e.Starts s.img serial) (hb : s.builds = true) :
    RosterLaw (s.takeEntry h e) := by
  have hempty := freeHandle_free s h hfree
  have hentry (k : Nat) := takeEntry_entry s h k e (freeHandle_range s h hfree)
  have hother (k : Nat) (hk : (s.entry k).state ≠ .free) : k ≠ h := fun hh => hk (hh ▸ hempty)
  constructor
  · intro k hk
    rw [hentry] at hk ⊢
    by_cases hh : k = h
    · rw [if_pos hh] at hk
      exact absurd hk he.held
    · rw [if_neg hh] at hk ⊢
      exact x.free k hk
  · intro k hk
    rw [hentry] at hk ⊢
    by_cases hh : k = h
    · rw [if_pos hh, he.serial]
      rfl
    · rw [if_neg hh] at hk ⊢
      exact x.serial k hk
  · have hnew (k : Nat) (hh : k ≠ h) (hk : (s.entry k).state ≠ .free) : (s.entry k).serial ≠ e.serial := by
      rw [he.serial]
      exact find_none s serial hfind k hk
    intro k l hk hl hs
    rw [hentry] at hk hl
    rw [hentry, hentry] at hs
    by_cases hkh : k = h <;> by_cases hlh : l = h
    · rw [hkh, hlh]
    · rw [if_pos hkh, if_neg hlh] at hs
      rw [if_neg hlh] at hl
      exact absurd hs.symm (hnew l hlh hl)
    · rw [if_neg hkh, if_pos hlh] at hs
      rw [if_neg hkh] at hk
      exact absurd hs (hnew k hkh hk)
    · rw [if_neg hkh, if_neg hlh] at hs
      rw [if_neg hkh] at hk
      rw [if_neg hlh] at hl
      exact x.unique k l hk hl hs
  · exact x.reach
  · intro k d hd
    rw [hentry] at hd
    split at hd
    · obtain ⟨y, hy⟩ := he.delay
      rw [hy, Option.some.injEq] at hd
      subst hd
      exact clampDelay_inReach _ y x.reach
    · exact x.delay k d hd
  · intro k sr hc
    have hclaim := x.claim k sr hc
    rw [hentry, if_neg (hother k (by rw [hclaim.1]; decide))]
    exact hclaim
  · intro r hr
    have hhome := (isHome_iff s r).1 (x.hunted r hr)
    rw [isHome_iff, hentry, if_neg (hother r.handle hhome.1)]
    exact hhome
  · intro hno
    have hno' : s.builds = false := hno
    rw [hb] at hno'
    cases hno'

/-- The phase of a FREE entry is OFF. -/
theorem PartsInv.phase_of_free {s : State} (x : PartsInv s) {h : Nat} (hf : (s.entry h).state = .free) :
    (s.drift h).phase = .off := by
  obtain ⟨-, -, -, hphase⟩ := x h
  by_contra hne
  have hact := (hphase.1 hne).2
  rw [hf] at hact
  cases hact

/-- A FREE entry takes a home whose serial is nowhere on the roster (R22, R53, R128). -/
theorem takeEntry_homes (s : State) (h : Nat) (e : Entry) (serial : Serial) (hfind : s.find serial = none)
    (hfree : s.freeHandle = some h) (he : e.Starts s.img serial) (hb : s.builds = true) : Sound P s (s.takeEntry h e) := by
  have hempty := freeHandle_free s h hfree
  have hentry (k : Nat) := takeEntry_entry s h k e (freeHandle_range s h hfree)
  refine ⟨fun x => x.takeEntry h e serial hfind hfree he hb, fun x => x.at h (fun k hk => ?_) fun _ => ?_,
    fun _ _ k hk => ?_⟩
  · rw [hentry, if_neg hk]
    exact ⟨rfl, rfl⟩
  · rw [hentry, if_pos rfl]
    have hphase : ((s.takeEntry h e).drift h).phase = .off := x.phase_of_free hempty
    rw [hphase]
    exact he.agrees
  · have hne : k ≠ h := by
      rintro rfl
      rw [hempty] at hk
      cases hk
    rw [hentry, if_neg hne]
    exact hk

/-- A place of the capture list is replaced; a claim put there names the CLAIMING entry of its serial (R50). -/
theorem setPlace_homes (s : State) (i : Nat) (c : Option Capture)
    (hc : ∀ k p, c = some k → k.claim = some p →
      (s.entry p.handle).state = .claiming ∧ (s.entry p.handle).serial = some k.serial) : Sound P s (s.setPlace i c) := by
  refine ⟨fun x => ⟨x.free, x.serial, x.unique, x.reach, x.delay, ?_, x.hunted, x.closed⟩, fun x => x, fun _ _ _ hk => hk⟩
  rintro _ _ ⟨k, p, hk, hp, rfl, rfl⟩
  rcases List.mem_or_eq_of_mem_set hk with hold | hnew
  · exact x.claim _ _ ⟨k, p, hold, hp, rfl, rfl⟩
  · exact hc k p hnew.symm hp

/-! ### A home turns from one state into another (R26, R38, R43, R93, R95) -/

/-- The states of a home that is served, HANDED or LOST: it is not FREE, and neither a claim nor closing. -/
theorem ne_of_accountRuns {st : HomeState} (h : st.accountRuns = true) : st ≠ .free ∧ st ≠ .claiming ∧ st ≠ .closing := by
  cases st <;> simp_all [HomeState.accountRuns]

theorem toLost_turns (img : Image) (e : Entry) (time : Nat) (h : e.state.accountRuns = true) :
    e.Turns img (e.toLost time) := by
  obtain ⟨-, hc, hk⟩ := ne_of_accountRuns h
  refine .of_state hc hk ?_ rfl (.inl rfl)
  exact fun hh => by cases hh

theorem toLost_agrees (e : Entry) (time : Nat) : (e.toLost time).Agrees .off := by
  simp [Entry.Agrees, Entry.toLost, HomeState.direction]

theorem toClosing_turns (img : Image) (e : Entry) (release : Bool) (h : e.state.accountRuns = true) :
    e.Turns img (e.toClosing release) := by
  obtain ⟨-, hc, hk⟩ := ne_of_accountRuns h
  refine .of_state hc hk (by rw [toClosing_state]; decide) ?_ (.inl ?_)
  all_goals
    unfold Entry.toClosing
    dsimp only
    split
    · obtain ⟨m, b, hp⟩ := post_else { e with state := .closing, lostTimer := none, handover := none } .release
      rw [hp]
    · rfl

theorem toClosing_agrees (e : Entry) (release : Bool) : (e.toClosing release).Agrees .off := by
  unfold Entry.toClosing
  dsimp only
  split
  · obtain ⟨m, b, hp⟩ := post_else { e with state := .closing, lostTimer := none, handover := none } .release
    rw [hp]
    simp [Entry.Agrees, HomeState.direction]
  · simp [Entry.Agrees, HomeState.direction]

/-- Entering ACTIVE keeps the parts in agreement, from every state but ACTIVE and CLOSING. -/
theorem toActive_agrees {e : Entry} {phase : Phase} (ha : e.state ≠ .active) (hk : e.state ≠ .closing)
    (h : e.Agrees phase) : e.toActive.Agrees phase := by
  obtain ⟨-, -, hdrift, hphase⟩ := h
  have hno : e.holds.drift = false := by
    by_contra hne
    rcases hdrift (Bool.eq_true_of_not_eq_false hne) with hh | hh
    · exact ha hh
    · exact hk hh
  have hoff : phase = .off := by
    by_contra hne
    exact ha (hphase.1 hne).2
  have hkept : e.toActive.holds.drift = false := by
    unfold Entry.toActive
    dsimp only
    split
    · rfl
    · exact hno
  refine ⟨rfl, by simp [Entry.toActive], fun hh => ?_, by simp [hkept, hoff]⟩
  rw [hkept] at hh
  cases hh

theorem toActive_turns (img : Image) (e : Entry) (hc : e.state ≠ .claiming) (hk : e.state ≠ .closing) :
    e.Turns img e.toActive := by
  refine .of_state hc hk ?_ rfl (.inl rfl)
  exact fun hh => by cases hh

theorem enterLost_homes (s : State) (h : Nat) (hs : (s.entry h).state.accountRuns = true) : Sound P s (s.enterLost h) :=
  (setHome_sound s h _ .off (ne_free_of_state (ne_of_accountRuns hs).1) (toLost_turns _ _ _ hs)
    fun _ => toLost_agrees _ _).trans ((endCondition_homes _ _).trans (raiseAlarm_homes _ _ _))

theorem enterClosing_homes (s : State) (h : Nat) (kind : RecordKind) (release : Bool)
    (hs : (s.entry h).state.accountRuns = true) : Sound P s (s.enterClosing h kind release) := by
  have hacct : Sound P (s.unbook h) ((s.unbook h).setAcct h
      ((s.acct h).map fun a => a.finish kind (s.bandAt s.um.band) s.um.period)) := by
    refine setAcct_homes _ h _ fun ha => ?_
    have hnone : s.acct h = none := ha
    rw [hnone]
    rfl
  have hhome := hacct.trans (setHome_sound _ h _ .off (ne_free_of_state (ne_of_accountRuns hs).1)
    (toClosing_turns _ (s.entry h) release hs) fun _ => toClosing_agrees _ _)
  exact (unbook_homes s h).trans (hhome.trans (endConditions_homes _ h))

theorem release_homes (s : State) (h : Nat) (reason : ReleaseReason) (release : Bool)
    (hs : (s.entry h).state.accountRuns = true) : Sound P s (s.release h reason release) :=
  (enterClosing_homes s h _ release hs).trans (pushEvent_homes _ _)

theorem drainClose_homes (s : State) (h : Nat) : Sound P s (s.drainClose h) := by
  refine .ite (fun hc => enterClosing_homes s h .restart true ?_) fun _ => .refl s
  rcases hc.2 with hs | hs <;> rw [hs] <;> rfl

theorem loseHome_homes (s : State) (h : Nat) (hs : (s.entry h).state.accountRuns = true) : Sound P s (s.loseHome h) :=
  (enterLost_homes s h hs).trans (drainClose_homes _ h)

/-- The DRIFT hold is set on an ACTIVE entry, and the re-range seeks (R93). -/
theorem setDriftHold_homes (s : State) (h : Nat) (hs : (s.entry h).state = .active) : Sound P s (s.setDriftHold h) := by
  refine (setHome_sound s h _ .seeking (ne_free_of_state (by rw [hs]; decide)) ?_ fun ha => ?_).trans (raiseAlarm_homes _ _ _)
  · exact ⟨fun hh => hh, rfl, .inl rfl, fun hh => hh, fun hh => hh⟩
  · obtain ⟨hdir, hlost, -, -⟩ := ha
    exact ⟨hdir, hlost, fun _ => .inl hs, by simp [hs]⟩

/-- The DRIFT hold is cleared, and the re-range is over (R95). -/
theorem clearDriftHold_homes (s : State) (h : Nat) (hs : (s.entry h).state ≠ .free) : Sound P s (s.clearDriftHold h) := by
  refine (setHome_sound s h _ .off (ne_free_of_state hs) ?_ fun ha => ?_).trans (endCondition_homes _ _)
  · exact ⟨fun hh => hh, rfl, .inl rfl, fun hh => hh, fun hh => hh⟩
  · obtain ⟨hdir, hlost, -, -⟩ := ha
    exact ⟨hdir, hlost, fun hh => (nomatch hh), by simp⟩

theorem choices_homes (s : State) (n : Nat) : Sound P s { s with choices := n } := by
  refine SameHomes.sound ?_
  exact sameHomes_of_fields rfl rfl rfl rfl rfl rfl

/-- An entry other than ACTIVE, a claim or closing enters ACTIVE (R26). -/
theorem toActive_homes (s : State) (h : Nat) (hf : (s.entry h).state ≠ .free) (ha : (s.entry h).state ≠ .active)
    (hc : (s.entry h).state ≠ .claiming) (hk : (s.entry h).state ≠ .closing) :
    Sound P s (s.setEntry h (s.entry h).toActive) :=
  setEntry_sound s h _ (ne_free_of_state hf) (toActive_turns _ _ hc hk) (toActive_agrees ha hk)

/-- A LEAVING or TUNING entry returns from its move (R26, R37, R93). -/
theorem returnActive_homes (s : State) (h : Nat) (hs : (s.entry h).state = .leaving ∨ (s.entry h).state = .tuning) :
    Sound P s (s.returnActive h) := by
  have hne : (s.entry h).state ≠ .free ∧ (s.entry h).state ≠ .active ∧ (s.entry h).state ≠ .claiming ∧
      (s.entry h).state ≠ .closing := by
    rcases hs with hs | hs <;> rw [hs] <;> decide
  obtain ⟨hf, ha, hc, hk⟩ := hne
  have hact := toActive_homes (P := P) s h hf ha hc hk
  have hstate : ((s.setEntry h (s.entry h).toActive).entry h).state = .active := by
    rw [entry_setEntry_self _ _ _ (handle_of_state s h hf)]
    rfl
  have hdrift := hact.trans (setDriftHold_homes _ h hstate)
  have hdrifting : (((s.setEntry h (s.entry h).toActive).setDriftHold h).entry h).state.accountRuns = true := by
    rw [setDriftHold_entry _ _ (handle_of_state s h hf)]
    dsimp only
    rw [hstate]
    rfl
  have hlost := hact.trans (loseHome_homes _ h (by rw [hstate]; rfl))
  unfold State.returnActive
  dsimp only
  split_ifs
  · exact hact.trans (drainClose_homes _ h)
  · exact hdrift.trans (drainClose_homes _ h)
  · exact hlost
  · exact hlost.trans (choices_homes _ _)
  · exact (hdrift.trans (loseHome_homes _ h hdrifting)).trans (choices_homes _ _)

/-! ### The reset (R187) -/

theorem powerOn_entry (s : State) (straps : Station) (h : Nat) : (s.powerOn straps).entry h = Entry.free := by
  have he : (s.powerOn straps).entry h = tableGet (Vector.replicate 64 Entry.free) Entry.free h := rfl
  rw [he]
  unfold tableGet
  split
  · rfl
  · rw [Vector.getElem?_replicate]
    split <;> rfl

theorem powerOn_acct (s : State) (straps : Station) (h : Nat) : (s.powerOn straps).acct h = none := by
  have he : (s.powerOn straps).acct h = tableGet (Vector.replicate 64 none) none h := rfl
  rw [he]
  unfold tableGet
  split
  · rfl
  · rw [Vector.getElem?_replicate]
    split <;> rfl

theorem powerOn_drift (s : State) (straps : Station) (h : Nat) : (s.powerOn straps).drift h = Drift.clear := by
  have he : (s.powerOn straps).drift h = tableGet (Vector.replicate 64 Drift.clear) Drift.clear h := rfl
  rw [he]
  unfold tableGet
  split
  · rfl
  · rw [Vector.getElem?_replicate]
    split <;> rfl

/-- After a reset the roster is all FREE, and nothing claims or hunts a home (R46, R66, R123). -/
theorem powerOn_roster (s : State) (straps : Station) : RosterLaw (s.powerOn straps) := by
  have hfree (h : Nat) : ((s.powerOn straps).entry h).state = .free := by rw [powerOn_entry]; rfl
  refine ⟨fun h _ => ⟨powerOn_entry s straps h, powerOn_acct s straps h⟩, fun h hh => absurd (hfree h) hh,
    fun h _ hh => absurd (hfree h) hh, ⟨Nat.le_refl _, Nat.zero_le _⟩, fun h e he => ?_, ?_, ?_, fun _ => hfree⟩
  · rw [powerOn_entry] at he
    cases he
  · rintro _ _ ⟨k, p, hk, -, -, -⟩
    have hno : some k ∈ [none, none, none, none] := hk
    simp at hno
  · rintro _ ⟨p, hp, -, -⟩
    have hno : p ∈ ([] : List Position) := hp
    cases hno

theorem powerOn_parts (s : State) (straps : Station) : PartsInv (s.powerOn straps) := by
  rw [partsInv_iff]
  intro h
  rw [powerOn_entry, powerOn_drift]
  exact free_agrees

theorem powerOn_homes (s : State) (straps : Station) (hp : ¬P) : Sound P s (s.powerOn straps) :=
  ⟨fun _ => powerOn_roster s straps, fun _ => powerOn_parts s straps, fun p => absurd p hp⟩

end Shared

end Sys2Proof.Machine
end

section
/-! PROOFS. The homes through the line and the upstream path: what a carriage, an observation and the packets behind it keep of the roster law and the parts of the entries. -/

namespace Sys2Proof.Machine

section Upstream
variable {P : Prop}

/-! ### How the entry of a home is touched -/

theorem post_touched (img : Image) (e : Entry) (k : MsgKind) : e.Touched img (e.post k) := by
  obtain ⟨m, b, hp⟩ := post_else e k
  rw [hp]
  exact ⟨rfl, rfl, rfl, rfl, rfl, .inl rfl⟩

theorem storeDelay_touched (img : Image) (e : Entry) (d : Int) : e.Touched img (e.storeDelay img d) :=
  ⟨rfl, rfl, rfl, rfl, rfl, .inr ⟨d, rfl⟩⟩

theorem heard_touched (img : Image) (e : Entry) (q : Nat) : e.Touched img (e.heard q) := ⟨rfl, rfl, rfl, rfl, rfl, .inl rfl⟩

theorem takeAck_touched (img : Image) (e : Entry) (k : Option MsgKind) : e.Touched img (e.takeAck img k) := by
  unfold Entry.takeAck
  split
  · exact .refl _ _
  · exact ⟨rfl, rfl, rfl, rfl, rfl, .inr ⟨_, rfl⟩⟩
  · exact ⟨rfl, rfl, rfl, rfl, rfl, .inl rfl⟩
  · exact ⟨rfl, rfl, rfl, rfl, rfl, .inl rfl⟩
  · exact .refl _ _

theorem misplaced_touched (img : Image) (e : Entry) (m : Nat) : e.Touched img { e with misplaced := m } :=
  ⟨rfl, rfl, rfl, rfl, rfl, .inl rfl⟩

theorem correct_touched (img : Image) (e : Entry) (d : Int) : e.Touched img (e.correct img d) := by
  unfold Entry.correct
  dsimp only
  split
  · exact .refl _ _
  · exact post_touched _ _ _

/-! ### Parts that lie still -/

/-- Outside ACTIVE, LOST and CLOSING no lost timer runs, DRIFT is clear and no re-range runs (R27, R41, R87). -/
theorem Entry.Agrees.still {e : Entry} {phase : Phase} (h : e.Agrees phase) (ha : e.state ≠ .active) (hl : e.state ≠ .lost)
    (hk : e.state ≠ .closing) : e.lostTimer.isSome = false ∧ e.holds.drift = false ∧ phase = .off := by
  obtain ⟨-, hlost, hdrift, hphase⟩ := h
  refine ⟨?_, ?_, ?_⟩
  · by_contra hne
    exact hl (hlost.1 (Bool.eq_true_of_not_eq_false hne))
  · by_contra hne
    rcases hdrift (Bool.eq_true_of_not_eq_false hne) with hh | hh
    · exact ha hh
    · exact hk hh
  · by_contra hne
    exact ha (hphase.1 hne).2

/-- Parts that lie still agree with every state but LOST that has the context's direction. -/
theorem agrees_of_still {e : Entry} (hd : e.handover.map Handover.direction = e.state.direction)
    (ht : e.lostTimer.isSome = false) (hn : e.holds.drift = false) (hl : e.state ≠ .lost) : e.Agrees .off :=
  ⟨hd, by simp [ht, hl], fun hh => (by rw [hn] at hh; cases hh), by simp [hn]⟩

/-- A home turns between two states whose parts lie still. -/
theorem Entry.Agrees.turn {e e' : Entry} {phase : Phase} (h : e.Agrees phase) (ha : e.state ≠ .active)
    (hl : e.state ≠ .lost) (hk : e.state ≠ .closing) (hd : e'.handover.map Handover.direction = e'.state.direction)
    (ht : e'.lostTimer = e.lostTimer) (hn : e'.holds.drift = e.holds.drift) (hl' : e'.state ≠ .lost) : e'.Agrees phase := by
  obtain ⟨hstill, hclear, rfl⟩ := h.still ha hl hk
  exact agrees_of_still hd (by rw [ht]; exact hstill) (hn.trans hclear) hl'

theorem state_ne_free {s : State} {h : Nat} {st : HomeState} (hs : (s.entry h).state = st) (hne : st ≠ .free) :
    (s.entry h).state ≠ .free := by
  rw [hs]
  exact hne

/-! ### The line (R174, R178, R183, R169) -/

theorem lineHeard_homes (s : State) : Sound P s s.lineHeard :=
  (sameHomes_of_fields (by simp) (by simp) (by simp) (by simp) (by simp) (by simp)).sound

theorem ownCarried_homes (s : State) : Sound P s s.ownCarried :=
  (sameHomes_of_fields (by simp) (by simp) (by simp) (by simp) (by simp) (by simp)).sound

/-- The port's own fields hold no home. -/
theorem port_homes (s : State) (p : LinePort) : Sound P s { s with slp := p } := by
  refine SameHomes.sound ?_
  exact sameHomes_of_fields rfl rfl rfl rfl rfl rfl

/-- The ports to the optics and the traffic switch hold no home. -/
theorem ports_homes (s : State) (p : Ports) : Sound P s { s with ports := p } := by
  refine SameHomes.sound ?_
  exact sameHomes_of_fields rfl rfl rfl rfl rfl rfl

/-- The Request Handler's own fields hold no home. -/
theorem requests_homes (s : State) (q : RequestHandler) : Sound P s { s with rq := q } := by
  refine SameHomes.sound ?_
  exact sameHomes_of_fields rfl rfl rfl rfl rfl rfl

theorem noticeCarried_homes (s : State) : Sound P s s.noticeCarried := (port_homes s _).trans (ownCarried_homes _)

theorem dropClaims_entry (cs : List (Option Capture)) (s : State) (k : Nat)
    (hk : ∀ c p, some c ∈ cs → c.claim = some p → p.handle ≠ k) :
    (cs.foldl (fun t c =>
      match c with
      | none => t
      | some k =>
        match k.claim with
        | none => t
        | some p => if p.carried then t else t.dropClaim k.serial p.handle) s).entry k = s.entry k := by
  induction cs generalizing s with
  | nil => rfl
  | cons c cs ih =>
    rw [List.foldl_cons, ih _ fun c p hc => hk c p (List.mem_cons_of_mem _ hc)]
    split
    · rfl
    next c =>
      split
      · rfl
      next p hp =>
        split
        · rfl
        · rw [dropClaim_entry, if_neg fun hh => hk c p List.mem_cons_self hp hh.symm]

/-- The claims whose CLAIM is not carried are dropped: each names a CLAIMING entry, so no CLOSING one is freed (R59). -/
theorem dropUncarried_homes (s : State) : Sound P s s.dropUncarried := by
  have hlaws : Sound False s s.dropUncarried := by
    unfold State.dropUncarried
    generalize s.ee.captures = cs
    induction cs generalizing s with
    | nil => exact .refl s
    | cons c cs ih =>
      rw [List.foldl_cons]
      refine Sound.trans ?_ (ih _)
      split
      · exact .refl s
      · split
        · exact .refl s
        · exact .ite (fun _ => .refl s) fun _ => dropClaim_homes s _ _ False.elim
  refine ⟨hlaws.roster, hlaws.parts, fun _ x k hk => ?_⟩
  have hsame : s.dropUncarried.entry k = s.entry k := by
    refine dropClaims_entry s.ee.captures s k fun c p hc hp hh => ?_
    have hclaim := (x.claim k c.serial ⟨c, p, hc, hp, hh, rfl⟩).1
    rw [hk] at hclaim
    cases hclaim
  rw [hsame]
  exact hk

theorem detachIfDue_homes (s : State) : Sound P s s.detachIfDue :=
  .ite (fun _ => .refl s) fun _ => (port_homes s _).trans (dropUncarried_homes _)

theorem removeWithdrawn_homes (s : State) : Sound P s s.removeWithdrawn := by
  have hslot := port_homes (P := P) s { s.slp with noticeSlot := none }
  unfold State.removeWithdrawn
  split
  · exact .refl s
  · split
    · dsimp only
      split
      · split
        · exact hslot
        next h _ =>
          refine .ite (fun hc => hslot.trans (freeEntry_sound _ h ?_ fun _ => ?_)) fun _ => hslot
          · exact fun hh => absurd (hc.2.symm.trans hh) (by decide)
          · exact fun hh => absurd (hc.2.symm.trans hh) (by decide)
      · exact hslot
    · exact .refl s

theorem reportGone_homes (s : State) (f : ReportFrame) : Sound P s (s.reportGone f) := by
  have hslot := port_homes (P := P) s { s.slp with reportSlot := none }
  unfold State.reportGone
  dsimp only
  split
  · exact hslot
  · exact hslot.trans (requests_homes _ _)
  · exact hslot.trans (requests_homes _ _)

/-- A record carried frees no entry but a CLOSING one (R44, R169). -/
theorem recordCarried_homes (s : State) (f : UsageFrame) (hp : ¬P) : Sound P s (s.recordCarried f) := by
  have hslot := port_homes (P := P) s { s.slp with usageSlot := none }
  unfold State.recordCarried
  dsimp only
  split
  · exact hslot
  next a ha =>
    split
    · exact hslot
    next sn _ =>
      have hacct := hslot.trans (setAcct_homes _ f.handle (some { a with snapshot := sn.afterCarriage f.content })
        fun hno => absurd (ha.symm.trans hno) (by simp))
      refine .ite (fun hc => hacct.trans (freeEntry_sound _ _ ?_ fun p => absurd p hp)) fun _ => hacct
      exact fun hh => absurd (hc.2.2.symm.trans hh) (by decide)

/-! ### The stages of a clean burst (R17, R32, R60, R91, R94, R132) -/

theorem clearOutstanding_homes (s : State) (r : WindowRef) : Sound P s (s.clearOutstanding r) :=
  (sameHomes_of_fields (by simp) (by simp) (by simp) (by simp) (by simp) (by simp)).sound

theorem openAccount_homes (s : State) (h : Nat) (hs : (s.entry h).state ≠ .free) : Sound P s (s.openAccount h) :=
  (setAcct_sound s h _ fun _ => hs).trans (startCredit_homes _ h)

theorem confirmed_homes (s : State) (h : Nat) (d : Int) (hs : (s.entry h).state = .confirming) :
    Sound P s (s.confirmed h d) := by
  have hlive := state_ne_free hs (by decide)
  have htouch (e : Entry) : e.Touched s.img
      (if (e.storeDelay s.img (((s.entry h).eqDelay.getD 0 : Nat) - d)).eqDelay = (s.entry h).eqDelay then
        e.storeDelay s.img (((s.entry h).eqDelay.getD 0 : Nat) - d)
      else (e.storeDelay s.img (((s.entry h).eqDelay.getD 0 : Nat) - d)).post
        (.adjust ((e.storeDelay s.img (((s.entry h).eqDelay.getD 0 : Nat) - d)).eqDelay.getD 0))) := by
    split
    · exact storeDelay_touched _ _ _
    · exact (storeDelay_touched _ _ _).trans (post_touched _ _ _)
  have hact := htouch (s.entry h).toActive
  have hturn := toActive_turns s.img (s.entry h) (by rw [hs]; decide) (by rw [hs]; decide)
  refine (setEntry_sound s h _ (ne_free_of_state hlive) (hturn.touched hact) fun ha => hact.agrees
    (toActive_agrees (by rw [hs]; decide) (by rw [hs]; decide) ha)).trans
    ((openAccount_homes _ h ?_).trans ((pushEvent_homes _ _).trans (drainClose_homes _ h)))
  rw [entry_setEntry_self _ _ _ (handle_of_state s h hlive), hact.state]
  exact fun hh => nomatch hh

theorem confirmAttempt_homes (s : State) (h : Nat) (hs : (s.entry h).state = .confirming) :
    Sound P s (s.confirmAttempt h) := by
  have hlive := ne_free_of_state (state_ne_free hs (by decide))
  refine .ite (fun _ => touch_sound s h _ hlive ⟨rfl, rfl, rfl, rfl, rfl, .inl rfl⟩) fun _ =>
    freeEntry_sound s h (by rw [hs]; decide) fun _ => by rw [hs]; decide

theorem confirmBurst_homes (s : State) (h : Nat) (d : Int) (hs : (s.entry h).state = .confirming) :
    Sound P s (s.confirmBurst h d) :=
  .ite (fun _ => confirmed_homes s h d hs) fun _ => confirmAttempt_homes s h hs

theorem tryTaking_homes (s : State) (h : Nat) (hs : (s.entry h).state = .arriving) : Sound P s (s.tryTaking h) := by
  have hlive := state_ne_free hs (by decide)
  unfold State.tryTaking
  dsimp only
  split
  next c serial hc _ =>
    refine .ite (fun _ => (setEntry_sound s h _ (ne_free_of_state hlive) ?_ fun ha => ?_).trans (queueNotice_homes _ _))
      fun _ => .refl s
    · exact .of_state (by rw [hs]; decide) (by rw [hs]; decide) (fun hh => nomatch hh) rfl (.inl rfl)
    · refine ha.turn (by rw [hs]; decide) (by rw [hs]; decide) (by rw [hs]; decide) ?_ rfl rfl fun hh => nomatch hh
      have hdir := ha.1
      rw [hc, hs] at hdir
      exact hdir
  · exact .refl s
  · exact .refl s

theorem arrivalBurst_homes (s : State) (h : Nat) (d : Int) (hs : (s.entry h).state = .arriving) :
    Sound P s (s.arrivalBurst h d) := by
  have hlive := state_ne_free hs (by decide)
  have htouch : (s.entry h).Touched s.img
      (if ((s.entry h).storeDelay s.img (((s.entry h).eqDelay.getD 0 : Nat) - d)).eqDelay = (s.entry h).eqDelay then
        (s.entry h).storeDelay s.img (((s.entry h).eqDelay.getD 0 : Nat) - d)
      else ((s.entry h).storeDelay s.img (((s.entry h).eqDelay.getD 0 : Nat) - d)).post
        (.adjust (clampDelay s.img (((s.entry h).eqDelay.getD 0 : Nat) - d)))) := by
    split
    · exact storeDelay_touched _ _ _
    · exact (storeDelay_touched _ _ _).trans (post_touched _ _ _)
  have hburst (e : Entry) : e.Touched s.img { e with handover := e.handover.map fun c => { c with burstInHand := true } } := by
    refine ⟨rfl, rfl, ?_, rfl, rfl, .inl rfl⟩
    cases e.handover <;> rfl
  have hall := htouch.trans (hburst _)
  refine .ite (fun _ => .refl s) fun _ => .ite
    (fun _ => (touch_sound s h _ (ne_free_of_state hlive) hall).trans (tryTaking_homes _ h ?_))
    fun _ => touch_sound s h _ (ne_free_of_state hlive) (post_touched _ _ _)
  rw [entry_setEntry_self _ _ _ (handle_of_state s h hlive), hall.state, hs]

theorem recontacted_homes (s : State) (h : Nat) (hs : (s.entry h).state = .lost) : Sound P s (s.recontacted h) :=
  (toActive_homes s h (by rw [hs]; decide) (by rw [hs]; decide) (by rw [hs]; decide) (by rw [hs]; decide)).trans
    ((endCondition_homes _ _).trans (drainClose_homes _ h))

theorem rangeBurst_homes (s : State) (h : Nat) (d : Int) : Sound P s (s.rangeBurst h d) := by
  unfold State.rangeBurst
  split
  next hs => exact confirmBurst_homes s h d hs
  next hs => exact arrivalBurst_homes s h d hs
  next hs => exact recontacted_homes s h hs
  all_goals exact .refl s

theorem countUpPacket_homes (s : State) (h : Nat) (p : UpPacket) : Sound P s (s.countUpPacket h p) := by
  unfold State.countUpPacket
  split
  · exact .refl s
  next a ha => exact changeAcct_sound s h _ fun x => x.live_of_acct (by rw [ha]; exact fun hh => nomatch hh)

theorem foldl_homes {α : Type} (f : State → α → State) (hf : ∀ s a, Sound P s (f s a)) (s : State) (xs : List α) :
    Sound P s (xs.foldl f s) := by
  induction xs generalizing s with
  | nil => exact .refl s
  | cons x xs ih => exact (hf s x).trans (ih (f s x))

theorem takePackets_homes (s : State) (h : Nat) (ps : List UpPacket) : Sound P s (s.takePackets h ps) :=
  .ite (fun _ => (foldl_homes _ (fun t p => countUpPacket_homes t h p) s _).trans (ports_homes _ _)) fun _ => .refl s

theorem handOver_homes (s : State) (h : Nat) (hs : (s.entry h).state = .tuning) : Sound P s (s.handOver h) := by
  have hturn : Sound P s ((s.setEntry h { s.entry h with state := .handed }).endCredit h) := by
    refine (setEntry_sound s h _ (ne_free_of_state (state_ne_free hs (by decide))) ?_ fun ha => ?_).trans
      (endCredit_reportsOnly _ h).sound
    · exact .of_state (by rw [hs]; decide) (by rw [hs]; decide) (fun hh => nomatch hh) rfl (.inl rfl)
    · refine ha.turn (by rw [hs]; decide) (by rw [hs]; decide) (by rw [hs]; decide) ?_ rfl rfl fun hh => nomatch hh
      have hdir := ha.1
      rw [hs] at hdir
      exact hdir
  unfold State.handOver
  dsimp only
  split
  · exact hturn.trans (queueNotice_homes _ _)
  · exact hturn
  · exact hturn

/-! ### The timing judgement (R90 to R95) -/

theorem judgeOffset_homes (s : State) (h : Nat) (d : Int) (hs : (s.entry h).state ≠ .free) :
    Sound P s (s.judgeOffset h d) := by
  have hlive := ne_free_of_state hs
  refine .ite (fun _ => touch_sound s h _ hlive (misplaced_touched _ _ _)) fun _ => .ite
    (fun _ => touch_sound s h _ hlive ((misplaced_touched _ _ _).trans (correct_touched _ _ _))) fun _ => ?_
  have hset := touch_sound (P := P) s h _ hlive (misplaced_touched _ _ (min 3 ((s.entry h).misplaced + 1)))
  have hentry := entry_setEntry_self s h { s.entry h with misplaced := min 3 ((s.entry h).misplaced + 1) }
    (handle_of_state s h hs)
  have htrip := Sound.ite (c := (s.entry h).misplaced = 2) (fun _ => hset.trans (setDrift_sound _ h
    { (s.setEntry h { s.entry h with misplaced := min 3 ((s.entry h).misplaced + 1) }).drift h with
      tripOffset := some d } rfl)) fun _ => hset
  refine .ite (fun hc => htrip.trans (setDriftHold_homes _ h ?_)) fun _ => htrip
  split
  · rw [setDrift_entry, hentry]
    exact hc.2
  · rw [hentry]
    exact hc.2

theorem measureDrift_homes (s : State) (h : Nat) (d : Int) (hs : (s.entry h).state ≠ .free)
    (hp : (s.drift h).phase = .seeking) : Sound P s (s.measureDrift h d) := by
  have htouch := (misplaced_touched s.img (s.entry h) 0).trans
    (post_touched _ _ (.adjust (clampDelay s.img (((s.entry h).eqDelay.getD 0 : Nat) - d))))
  refine setHome_sound s h _ .settling (ne_free_of_state hs) htouch.turns fun ha => ?_
  rw [hp] at ha
  obtain ⟨hdir, hlost, hdrift, hphase⟩ := htouch.agrees ha
  exact ⟨hdir, hlost, hdrift, by rw [← hphase]; decide⟩

theorem judge_homes (s : State) (h : Nat) (before : HomeState) (kind : WindowKind) (acked : Option MsgKind) (d : Int) :
    Sound P s (s.judge h before kind acked d) := by
  unfold State.judge
  dsimp only
  split
  next hs =>
    have hlive := state_ne_free hs (by decide)
    refine .ite (fun _ => touch_sound s h _ (ne_free_of_state hlive) (misplaced_touched _ _ _)) fun _ => ?_
    split
    · exact judgeOffset_homes s h d hlive
    next hp => exact .ite (fun _ => measureDrift_homes s h d hlive hp) fun _ => .refl s
    · refine .ite (fun _ => (clearDriftHold_homes s h hlive).trans (judgeOffset_homes _ h d ?_)) fun _ => .refl s
      rw [clearDriftHold_entry s h (handle_of_state s h hlive)]
      exact hlive
  next hs => exact judgeOffset_homes s h d (state_ne_free hs (by decide))
  next hs => exact judgeOffset_homes s h d (state_ne_free hs (by decide))
  all_goals exact .refl s

/-! ### The whole path (R17) -/

theorem cleanBurst_homes (s : State) (h : Nat) (map : CycleNo) (kind : WindowKind) (d : Int) (ack : Bool) (report : Nat)
    (ps : List UpPacket) (hs : (s.entry h).state ≠ .free) : Sound P s (s.cleanBurst h map kind d ack report ps) := by
  have hheard : Sound P s ((s.noteOffset h d).setEntry h
      (((s.entry h).heard report).takeAck s.img ((s.entry h).acknowledges map ack))) :=
    (setDrift_sound s h { s.drift h with lastOffset := some d } rfl).trans
      (touch_sound _ h _ (ne_free_of_state hs) ((heard_touched _ _ _).trans (takeAck_touched _ _ _)))
  have hburst := Sound.ite (c := kind = .range) (fun _ => hheard.trans (rangeBurst_homes _ h d))
    fun _ => hheard.trans (takePackets_homes _ h ps)
  unfold State.cleanBurst
  dsimp only
  split
  · exact (Sound.ite (fun hc => hburst.trans (handOver_homes _ h hc)) fun _ => hburst).trans (judge_homes _ _ _ _ _ _)
  all_goals exact hburst.trans (judge_homes _ _ _ _ _ _)

theorem rangeMissed_homes (s : State) (h : Nat) : Sound P s (s.rangeMissed h) := by
  refine .ite (fun hs => confirmAttempt_homes s h hs) fun _ => .ite (fun hc => ?_) fun _ => .refl s
  have hlive := state_ne_free hc.1 (by decide)
  have hset := touch_sound (P := P) s h { s.entry h with
    rangeAttempts := min Config.rerangeAttempts ((s.entry h).rangeAttempts + 1) } (ne_free_of_state hlive)
    ⟨rfl, rfl, rfl, rfl, rfl, .inl rfl⟩
  refine .ite (fun _ => hset) fun _ => hset.trans (loseHome_homes _ h ?_)
  rw [entry_setEntry_self _ _ _ (handle_of_state s h hlive)]
  dsimp only
  rw [hc.1]
  rfl

theorem dataMissed_homes (s : State) (h : Nat) : Sound P s (s.dataMissed h) := by
  refine .ite (fun hc => ?_) fun _ => .refl s
  have hlive := served_ne_free hc
  have hset := touch_sound (P := P) s h { s.entry h with missed := min Config.missedLimit ((s.entry h).missed + 1) }
    (ne_free_of_state hlive) ⟨rfl, rfl, rfl, rfl, rfl, .inl rfl⟩
  refine .ite (fun hl => hset.trans (loseHome_homes _ h ?_)) fun _ => hset
  rw [entry_setEntry_self _ _ _ (handle_of_state s h hlive)]
  dsimp only
  rw [hl.1]
  rfl

theorem observeBurst_homes (s : State) (r : WindowRef) (w : Window) (o : BurstObs) : Sound P s (s.observeBurst r w o) := by
  have hmissed := Sound.ite (c := r.kind = .range) (fun _ => rangeMissed_homes (P := P) s r.handle)
    fun _ => dataMissed_homes s r.handle
  refine .ite (fun _ => .refl s) fun hstale => ?_
  split
  · refine cleanBurst_homes s _ _ _ _ _ _ _ fun hf => hstale ?_
    exact (stale_iff s r.handle w).2 (.inl hf)
  · exact hmissed
  · exact hmissed

end Upstream

end Sys2Proof.Machine
end

section
/-! PROOFS. The homes through enrolment, the start of a cycle, the ends of messages, the stray history and the hunt. -/

namespace Sys2Proof.Machine

section Engines
variable {P : Prop}

/-! ### Enrolment (R51 to R58) -/

theorem clearPlace_homes (s : State) (i : Nat) : Sound P s (s.setPlace i none) :=
  setPlace_homes s i none fun _ _ hc => by cases hc

theorem claimEntry_starts (img : Image) (serial : Serial) (round : Int) : (claimEntry img serial round).Starts img serial := by
  refine ⟨fun hh => (nomatch hh), rfl, ⟨_, rfl⟩, ?_⟩
  simp [Entry.Agrees, claimEntry, Entry.storeDelay, Entry.free, Holds.clear, HomeState.direction]

/-- A claim starts at a FREE entry, for a serial that is nowhere on the roster (R53). -/
theorem startClaim_homes (s : State) (i : Nat) (r : Reply) (hb : s.builds = true) : Sound P s (s.startClaim i r) := by
  refine .ite (fun _ => clearPlace_homes s i) fun hfind => ?_
  split
  · exact (clearPlace_homes s i).trans (pushEvent_homes _ _)
  next h hfree =>
    refine .ite (fun _ => ?_) fun _ => (clearPlace_homes s i).trans (pushEvent_homes _ _)
    have hnone : s.find r.serial = none := by simpa using hfind
    refine (takeEntry_homes s h _ r.serial hnone hfree (claimEntry_starts _ _ _) hb).trans
      ((setPlace_homes _ i _ ?_).trans (queueNotice_homes _ _))
    intro k p hk hp
    cases hk
    cases hp
    dsimp only
    rw [takeEntry_entry _ _ _ _ (freeHandle_range s h hfree), if_pos rfl]
    exact ⟨rfl, rfl⟩

theorem judgeCapture_homes (s : State) (p : Nat × Reply) (hb : s.builds = true) : Sound P s (s.judgeCapture p) :=
  .ite (fun _ => (clearPlace_homes s p.1).trans (pushEvent_homes _ _)) fun _ => startClaim_homes s p.1 p.2 hb

theorem judgeCapture_il (s : State) (p : Nat × Reply) : (s.judgeCapture p).il = s.il := by
  unfold State.judgeCapture State.startClaim
  dsimp only
  split
  · simp
  · split
    · simp
    · split
      · simp
      · split <;> simp

theorem judgeCaptures_homes (ps : List (Nat × Reply)) (s : State) (hb : s.builds = true) :
    Sound P s (ps.foldl State.judgeCapture s) := by
  induction ps generalizing s with
  | nil => exact .refl s
  | cons p ps ih =>
    refine (judgeCapture_homes s p hb).trans (ih _ ?_)
    rw [builds_of_startup (congrArg ImageLoader.startup (judgeCapture_il s p))]
    exact hb

theorem placeReplies_homes (ps : List (Nat × Reply)) (s : State) :
    Sound P s (ps.foldl (fun t p => t.setPlace p.1 (some (captureOf p.2))) s) ∧
      (ps.foldl (fun t p => t.setPlace p.1 (some (captureOf p.2))) s).il = s.il := by
  induction ps generalizing s with
  | nil => exact ⟨.refl s, rfl⟩
  | cons p ps ih =>
    obtain ⟨hsound, hil⟩ := ih (s.setPlace p.1 (some (captureOf p.2)))
    refine ⟨(setPlace_homes s p.1 _ fun k q hk hq => ?_).trans hsound, hil.trans rfl⟩
    cases hk
    cases hq

theorem discovered_homes (s : State) (o : DiscoverObs) : Sound P s (s.discovered o) := by
  unfold State.discovered
  split
  · refine .ite (fun hc => ?_) fun _ => .refl s
    have hb : s.builds = true := by
      unfold State.captures at hc
      simp only [Bool.and_eq_true] at hc
      unfold State.builds
      rw [hc.1.2, Bool.true_or]
    obtain ⟨hsound, hil⟩ := placeReplies_homes (P := P) ((freePlaces s.ee.captures).zip ‹List Reply›) s
    refine hsound.trans (judgeCaptures_homes _ _ ?_)
    rw [builds_of_startup (congrArg ImageLoader.startup hil)]
    exact hb
  · exact .refl s
  · exact .refl s

/-- The mark of a carried CLAIM leaves the claim's handle and serial (R54). -/
theorem claimCarried_homes (s : State) (serial : Serial) : Sound P s (s.claimCarried serial) := by
  refine SameHomes.sound (sameHomes_of_roster rfl (fun _ ha => ha) rfl (fun h sr hc => ?_) (fun _ hh => hh) rfl rfl)
  obtain ⟨k, p, hk, hp, rfl, rfl⟩ := hc
  obtain ⟨o, ho, hko⟩ := List.mem_map.1 hk
  obtain ⟨k₀, rfl, hkk⟩ := Option.map_eq_some_iff.1 hko
  cases hclaim : k₀.claim with
  | none =>
    rw [hclaim] at hkk
    dsimp only at hkk
    subst hkk
    rw [hclaim] at hp
    cases hp
  | some p₀ =>
    rw [hclaim] at hkk
    dsimp only at hkk
    split at hkk
    · subst hkk
      dsimp only at hp ⊢
      cases hp
      exact ⟨k₀, p₀, ho, hclaim, rfl, rfl⟩
    · subst hkk
      exact ⟨k₀, p, ho, hp, rfl, rfl⟩

theorem raiseDuplicate_homes (s : State) (h : Nat) (serial : Serial) (other : Nat) :
    Sound P s (s.raiseDuplicate h serial other) := raiseAlarm_homes s _ _

theorem answerHeld_homes (s : State) (h : Nat) (serial : Serial) (other : Nat) (hs : (s.entry h).state ≠ .free) :
    Sound P s (s.answerHeld h serial other) := by
  have htouch := touch_sound (P := P) s h { s.entry h with duplicates := satAdd 255 (s.entry h).duplicates 1 }
    (ne_free_of_state hs) ⟨rfl, rfl, rfl, rfl, rfl, .inl rfl⟩
  exact .ite (fun _ => .refl s) fun _ => htouch.trans ((queueNotice_homes _ _).trans (raiseDuplicate_homes _ h serial other))

theorem claimHeard_homes (s : State) (serial : Serial) (other : Nat) : Sound P s (s.claimHeard serial other) := by
  unfold State.claimHeard
  split
  · exact .refl s
  next h hf =>
    have hanswer := answerHeld_homes (P := P) s h serial other (find_sound s serial h hf).1
    split
    case h_1 hs => exact .ite (fun _ => .refl s) fun _ => dropClaim_homes s serial h fun _ => by rw [hs]; decide
    case h_9 hs => exact release_homes s h _ _ (by rw [hs]; rfl)
    case h_10 => exact .refl s
    case h_11 => exact .refl s
    all_goals exact hanswer

theorem heldHeard_homes (s : State) (serial : Serial) (holder : Nat) : Sound P s (s.heldHeard serial holder) := by
  unfold State.heldHeard
  split
  · exact .refl s
  next h _ =>
    split
    case h_1 hs => exact dropClaim_homes s serial h fun _ => by rw [hs]; decide
    case h_2 hs => exact freeEntry_sound s h (by rw [hs]; decide) fun _ => by rw [hs]; decide
    case h_10 => exact .refl s
    case h_11 => exact .refl s
    all_goals exact raiseDuplicate_homes s h serial holder

/-- The claim hold is over: the claim's place is free, so its entry may confirm or be freed (R58, R64). -/
theorem claimHeldOut_homes (s : State) (h : Nat) (serial : Serial) (hs : (s.entry h).state = .claiming) :
    Sound P s (s.claimHeldOut h serial) := by
  have hplace := freePlaceOf_homes (P := P) s h
  have hnone (sr : Serial) : ¬(s.freePlaceOf h).Claims h sr := fun hc => (freePlaceOf_claims s h h sr hc).2 rfl
  have hopen : (s.entry h).state ≠ .closing := by rw [hs]; decide
  have hentry : (s.freePlaceOf h).entry h = s.entry h := rfl
  refine .ite (fun _ => hplace.trans ?_) fun _ => hplace.trans ?_
  · exact ⟨fun x => x.freeEntry h hnone, fun x => freeEntry_parts x h, fun _ _ => freeEntry_closing _ h hopen⟩
  · have hto : Entry.Touched s.img { s.entry h with state := .confirming, rangeAttempts := 0 }
        ((s.entry h).toConfirming serial h) := post_touched _ _ _
    refine ⟨fun x => ?_, fun x => setEntry_parts x h _ fun ha => ?_, fun _ _ => closing_setEntry fun hk => absurd hk hopen⟩
    · exact x.setEntry h _ (ne_free_of_state (state_ne_free hs (by decide))) (fun _ => by rw [hto.state]; exact fun hh => nomatch hh)
        hto.serial
        hto.delay fun sr hc => absurd hc (hnone sr)
    · rw [hentry] at ha
      refine hto.agrees (ha.turn (by rw [hs]; decide) (by rw [hs]; decide) (by rw [hs]; decide) ?_ rfl rfl fun hh => nomatch hh)
      have hdir := ha.1
      rw [hs] at hdir
      exact hdir

/-- Every entry of the roster is touched, and a FREE one stays as it is. -/
theorem mapRoster_homes (s : State) (f : Nat → Entry → Entry) (ht : ∀ h (e : Entry), e.Touched s.img (f h e))
    (hfree : RosterLaw s → ∀ h, (s.entry h).state = .free → f h Entry.free = Entry.free) :
    Sound P s { s with roster := tableMap f s.roster } := by
  refine SameHomes.sound (sameHomes_of_map f ?_ ht hfree rfl rfl (claims_of_ee rfl) rfl rfl rfl)
  dsimp only

/-! ### The start of a cycle (R1, R10, R33, R35, R39) -/

theorem tick_touched (img : Image) (e : Entry) : e.Touched img e.tick := by
  refine ⟨rfl, rfl, ?_, ?_, rfl, .inl rfl⟩
  · unfold Entry.tick
    cases e.handover <;> rfl
  · unfold Entry.tick tickTimer
    cases e.lostTimer <;> rfl

theorem tick_homes (s : State) : Sound P s s.tick := by
  refine SameHomes.sound (sameHomes_of_map (fun _ e => e.tick) rfl (fun _ e => tick_touched _ e) (fun _ _ _ => rfl) rfl rfl
    (fun h sr hc => ?_) rfl rfl rfl)
  obtain ⟨k, p, hk, hp, rfl, rfl⟩ := hc
  obtain ⟨o, ho, hko⟩ := List.mem_map.1 hk
  obtain ⟨k₀, rfl, rfl⟩ := Option.map_eq_some_iff.1 hko
  obtain ⟨p₀, hp₀, rfl⟩ := Option.map_eq_some_iff.1 hp
  exact ⟨k₀, p₀, ho, hp₀, rfl, rfl⟩

theorem cycle_homes (s : State) (cb : CycleBuilder) : Sound P s { s with cb := cb } := by
  refine SameHomes.sound ?_
  exact sameHomes_of_fields rfl rfl rfl rfl rfl rfl

/-- The Hunt Unit's own fields but the frozen list hold no home. -/
theorem huntFields_homes (s : State) (hu : Hunt) (hf : hu.frozen = s.hu.frozen) : Sound P s { s with hu := hu } := by
  refine SameHomes.sound ?_
  exact sameHomes_of_fields rfl rfl rfl rfl hf rfl

theorem reachMap_homes (s : State) : Sound P s s.reachMap := by
  unfold State.reachMap
  dsimp only
  refine .ite (fun _ => ?_) fun _ => cycle_homes s _
  split
  · have hreached := cycle_homes (P := P) s { s.cb with reached := some (s.cb.cycle - 2) }
    refine .ite (fun _ => hreached.trans (Sound.trans ?_ (queueNotice_homes _ _))) fun _ => hreached
    exact huntFields_homes _ { s.hu with awaiting := none } rfl
  · exact cycle_homes s _
  · exact cycle_homes s _

theorem advanceRecontact_touched (img : Image) (e : Entry) : e.Touched img e.advanceRecontact := by
  unfold Entry.advanceRecontact
  split
  · exact ⟨rfl, rfl, rfl, rfl, rfl, .inl rfl⟩
  · exact .refl _ _

theorem afterBuild_touched (img : Image) (e : Entry) (n : CycleNo) (granted served : Bool) :
    e.Touched img (e.afterBuild n granted served) := by
  unfold Entry.afterBuild
  split
  · exact .refl _ _
  · exact ⟨rfl, rfl, rfl, rfl, rfl, .inl rfl⟩

theorem advanceRecontacts_homes (s : State) : Sound P s s.advanceRecontacts :=
  mapRoster_homes s (fun _ e => e.advanceRecontact) (fun _ e => advanceRecontact_touched _ e) fun _ _ _ => rfl

theorem buildMap_homes (s : State) (n : CycleNo) : Sound P s (s.buildMap n) := by
  have hmap := (advanceRecontacts_homes (P := P) s).trans (mapRoster_homes _ (fun h e => e.afterBuild n
    ((s.advanceRecontacts.mapFor n).windows.any fun w => w.handle = h) (s.advanceRecontacts.rangeServed.contains h))
    (fun _ e => afterBuild_touched _ e _ _ _) fun _ _ _ => rfl)
  unfold State.buildMap
  dsimp only
  refine hmap.trans (SameHomes.sound ?_)
  exact sameHomes_of_fields rfl rfl rfl rfl rfl rfl

/-! ### The ends of messages (R33) -/

theorem messageFailed_homes (s : State) (h : Nat) (kind : MsgKind) (hlive : s.entry h ≠ Entry.free) :
    Sound P s (s.messageFailed h kind) := by
  have htouch : (s.entry h).Touched s.img { s.entry h with mailbox := none } := ⟨rfl, rfl, rfl, rfl, rfl, .inl rfl⟩
  have hempty := touch_sound (P := P) s h _ hlive htouch
  unfold State.messageFailed
  dsimp only
  split
  · refine .ite (fun hp => setHome_sound s h _ .seeking hlive htouch.turns fun ha => ?_) fun _ => hempty
    rw [hp] at ha
    obtain ⟨hdir, hlost, hdrift, hphase⟩ := htouch.agrees ha
    exact ⟨hdir, hlost, hdrift, by rw [← hphase]; decide⟩
  · refine .ite (fun hs => hempty.trans (freeEntry_sound _ h ?_ fun _ => ?_)) fun _ => hempty
    all_goals
      rw [entry_setEntry_self _ _ _ (handle_of_state s h (state_ne_free hs (by decide)))]
      dsimp only
      rw [hs]
      decide
  · split
    next c serial _ hc _ =>
      rw [setEntry_setEntry]
      refine (touch_sound s h { s.entry h with
        mailbox := none, handover := some { c with timer := none, reclaim := some .tuneFailed } } hlive
        ⟨rfl, rfl, ?_, rfl, rfl, .inl rfl⟩).trans (queueNotice_homes _ _)
      rw [hc]
      rfl
    · exact hempty
  · exact hempty

/-! ### The hunt (R105 to R120) -/

theorem openHunt_homes (s : State) : Sound P s s.openHunt := by
  refine .ite (fun _ => Sound.trans ?_ (queueNotice_homes _ _)) fun _ => .refl s
  exact huntFields_homes s _ rfl

theorem suspect_homes (s : State) : Sound P s s.suspect :=
  .ite (fun _ => huntFields_homes s _ rfl) fun _ => openHunt_homes s

theorem takeDeferred_homes (s : State) : Sound P s s.takeDeferred := by
  have hclear := huntFields_homes (P := P) s { s.hu with deferred := false } rfl
  exact .ite (fun _ => .ite (fun _ => hclear.trans (openHunt_homes _)) fun _ => hclear) fun _ => .refl s

theorem yieldOpening_homes (s : State) : Sound P s s.yieldOpening :=
  .ite (fun _ => (huntFields_homes s { s.hu with opening := false, deferred := true } rfl).trans (withdraw_homes _ _))
    fun _ => .refl s

theorem setFlag_homes (s : State) (id : HuntId) : Sound P s (s.setFlag id) := huntFields_homes s _ rfl

theorem clearFlag_homes (s : State) : Sound P s s.clearFlag := huntFields_homes s _ rfl

theorem setOwner_homes (s : State) (o : OwnerPart) : Sound P s (s.setOwner o) := huntFields_homes s _ rfl

theorem endStray_homes (s : State) : Sound P s s.endStray :=
  SameHomes.sound (sameHomes_of_fields (by simp) (by simp) rfl (by simp) (by simp) (by simp))

theorem emptyHistory_homes (s : State) : Sound P s s.emptyHistory :=
  SameHomes.sound (sameHomes_of_fields (by simp) (by simp) rfl (by simp) (by simp) (by simp))

/-- The candidates as they are frozen hold their homes (R104, R111). -/
theorem candidates_home {s : State} (x : RosterLaw s) (p : Position) (hp : p ∈ s.candidates) : s.isHome p.home = true := by
  obtain ⟨h, hh, rfl⟩ := List.mem_map.1 hp
  have hfrozen := (List.mem_filter.1 hh).2
  have hlive : (s.entry h).state ≠ .free := by
    intro hf
    rw [hf] at hfrozen
    cases hfrozen
  obtain ⟨serial, hserial⟩ := Option.isSome_iff_exists.1 (x.serial h hlive)
  rw [isHome_iff]
  exact ⟨hlive, by rw [hserial]; rfl⟩

theorem freeze_homes (s : State) (hu : Hunt) (hf : hu.frozen = s.candidates) : Sound P s { s with hu := hu } := by
  refine ⟨fun x => ⟨x.free, x.serial, x.unique, x.reach, x.delay, x.claim, ?_, x.closed⟩, fun x => x, fun _ _ _ hk => hk⟩
  rintro _ ⟨p, hp, -, rfl⟩
  exact candidates_home x p (hf ▸ hp)

theorem join_homes (s : State) (id : HuntId) (role : Role) : Sound P s (s.join id role) := by
  refine Sound.trans ?_ ((endStray_homes _).trans (queueNotice_homes _ _))
  exact freeze_homes s _ rfl

theorem ownOpen_homes (s : State) (id : HuntId) : Sound P s (s.ownOpen id) := by
  have hflag : Sound P s { s.setFlag id with hu := { (s.setFlag id).hu with opening := false } } :=
    (setFlag_homes s id).trans (huntFields_homes _ _ rfl)
  refine .ite (fun _ => .ite (fun _ => hflag.trans (join_homes _ _ _)) fun _ => ?_) fun _ => hflag
  refine hflag.trans (Sound.trans ?_ (endStray_homes _))
  exact huntFields_homes _ _ rfl

theorem otherOpen_homes (s : State) (id : HuntId) : Sound P s (s.otherOpen id) :=
  let h := (setFlag_homes s id).trans (yieldOpening_homes _)
  .ite (fun _ => h.trans (join_homes _ _ _)) fun _ => h

theorem joinHeard_homes (s : State) (id : HuntId) (channel count : Nat) : Sound P s (s.joinHeard id channel count) := by
  unfold State.joinHeard
  split
  · exact .ite (fun _ => setOwner_homes s _) fun _ => .refl s
  · exact .refl s
  · exact .refl s

theorem queueStep_homes (s : State) (id : HuntId) (o : OwnerPart) (sel : Selector) : Sound P s (s.queueStep id o sel) :=
  (setOwner_homes s _).trans (queueNotice_homes _ _)

theorem queueClose_homes (s : State) (id : HuntId) (o : OwnerPart) (outcome : HuntOutcome) :
    Sound P s (s.queueClose id o outcome) := (setOwner_homes s _).trans (queueNotice_homes _ _)

theorem joinsOver_homes (s : State) (id : HuntId) (o : OwnerPart) : Sound P s (s.joinsOver id o) :=
  .ite (fun _ => setOwner_homes s _) fun _ => .ite (fun _ => queueClose_homes s id _ _) fun _ => queueStep_homes s id _ _

/-- HUNT is set on homes alone. -/
theorem setHunt_homes (s : State) (hs : List Nat) (hl : RosterLaw s → ∀ h ∈ hs, (s.entry h).state ≠ .free) :
    Sound P s (s.setHunt hs) := by
  refine mapRoster_homes s (fun h e => { e with holds := { e.holds with hunt := hs.contains h } })
    (fun _ _ => ⟨rfl, rfl, rfl, rfl, rfl, .inl rfl⟩) fun x h hf => ?_
  have hno : hs.contains h = false := by
    by_contra hc
    exact hl x h (by simpa using hc) hf
  rw [hno]
  rfl

theorem mem_partOf {α : Type} (xs : List α) (level index : Nat) (x : α) (h : x ∈ partOf xs level index) : x ∈ xs :=
  List.mem_of_mem_drop (List.mem_of_mem_take h)

/-- A step darkens live positions, which hold their homes (R114). -/
theorem darkened_live {s : State} (x : RosterLaw s) (sel : Selector) (h : Nat) (hh : h ∈ s.darkened sel) :
    (s.entry h).state ≠ .free := by
  unfold State.darkened at hh
  split at hh
  · cases hh
  · split at hh
    · obtain ⟨p, hp, rfl⟩ := List.mem_map.1 hh
      obtain ⟨hpart, hdead⟩ := List.mem_filter.1 hp
      exact ((isHome_iff s p.home).1 (x.hunted _ ⟨p, mem_partOf _ _ _ p hpart, by simpa using hdead, rfl⟩)).1
    · cases hh

theorem applyStep_homes (s : State) (k : Nat) (sel : Selector) : Sound P s (s.applyStep k sel) := by
  refine (setHunt_homes s (s.darkened sel) fun x h hh => darkened_live x sel h hh).trans
    ((withdraw_homes _ isReady).trans ?_)
  exact huntFields_homes _ _ rfl

theorem ownStep_homes (s : State) (src : Source) : Sound P s (s.ownStep src) := by
  unfold State.ownStep
  split
  · exact setOwner_homes s _
  all_goals exact .refl s

theorem stepHeard_homes (s : State) (src : Source) (k : Nat) (sel : Selector) : Sound P s (s.stepHeard src k sel) := by
  have hguard : Sound P s (if s.hu.role = .participant ∧ s.draining = true then s
      else { s with hu := { s.hu with guardTimer := some Config.guardCycles } }) :=
    .ite (fun _ => .refl s) fun _ => huntFields_homes s _ rfl
  have hown := hguard.trans (ownStep_homes _ src)
  exact .ite (fun _ => hown.trans (applyStep_homes _ k sel)) fun _ => hown

theorem readyHeard_homes (s : State) (id : HuntId) (channel step : Nat) (named : Option HomeRef) :
    Sound P s (s.readyHeard id channel step named) := by
  unfold State.readyHeard
  split
  · exact .ite (fun _ => setOwner_homes s _) fun _ => .refl s
  · exact .refl s
  · exact .refl s

theorem actOn_homes (s : State) (id : HuntId) (o : OwnerPart) (d : Decision) : Sound P s (s.actOn id o d) := by
  unfold State.actOn
  split
  · exact queueStep_homes s id o _
  · exact queueStep_homes s id _ _
  · exact queueClose_homes s id o _

theorem measure_homes (s : State) (o : OwnerPart) (light : Bool) : Sound P s (s.measure o light) := by
  have howner := setOwner_homes (P := P) s (o.tallied light)
  refine .ite (fun _ => .ite (fun _ => howner) fun _ => .ite (fun _ => howner) fun _ => ?_) fun _ => .refl s
  split
  · exact howner
  · exact actOn_homes s _ _ _

/-! ### The stray history (R97 to R99) -/

/-- The Light Watch's history and condition hold no home. -/
theorem light_homes (s : State) (lw : LightWatch) (hd : lw.drift = s.lw.drift) : Sound P s { s with lw := lw } := by
  refine SameHomes.sound ?_
  exact sameHomes_of_fields rfl rfl hd rfl rfl rfl

theorem handOn_homes (s : State) : Sound P s s.handOn := .ite (fun _ => suspect_homes s) fun _ => .refl s

theorem strayEntry_homes (s : State) (light : Bool) : Sound P s (s.strayEntry light) := by
  have hentered := light_homes (P := P) s { s.lw with history := enterOutcome s.lw.history light } rfl
  have hcond := hentered.trans (light_homes _ { s.lw with history := enterOutcome s.lw.history light, condition := true } rfl)
  refine .ite (fun _ => (Sound.ite (fun _ => hcond) fun _ => hcond.trans (raiseAlarm_homes _ _ _)).trans (handOn_homes _))
    fun _ => .ite (fun _ => hentered.trans (endStray_homes _)) fun _ => hentered

theorem quietTaken_homes (s : State) (light : Bool) : Sound P s (s.quietTaken light) := by
  unfold State.quietTaken
  split
  · exact strayEntry_homes s light
  · exact measure_homes s _ light
  · exact .refl s

/-! ### Closing (R106, R119, R120) -/

theorem clearHunt_homes (s : State) : Sound P s s.clearHunt :=
  mapRoster_homes s (fun _ e => { e with holds := { e.holds with hunt := false } })
    (fun _ _ => ⟨rfl, rfl, rfl, rfl, rfl, .inl rfl⟩) fun _ _ _ => rfl

/-- The frozen list is emptied: no position is left to hold a home. -/
theorem emptyList_homes (s : State) (hu : Hunt) (hf : hu.frozen = []) : Sound P s { s with hu := hu } := by
  refine SameHomes.sound (sameHomes_of_roster rfl (fun k => (acct_of_um s _ rfl k).trans) rfl
    (claims_of_ee rfl) (fun r hr => ?_) rfl rfl)
  obtain ⟨p, hp, -, -⟩ := hr
  have hno : p ∈ ([] : List Position) := hf ▸ hp
  cases hno

theorem leaveHunt_homes (s : State) : Sound P s s.leaveHunt :=
  (clearHunt_homes s).trans ((withdraw_homes _ _).trans (emptyList_homes _ _ rfl))

theorem endHunt_homes (s : State) (outcome : HuntOutcome) : Sound P s (s.endHunt outcome) := by
  unfold State.endHunt
  split
  · exact .refl s
  · exact leaveHunt_homes s
  · exact (leaveHunt_homes s).trans ((raiseAlarm_homes _ _ _).trans (emptyHistory_homes _))

/-- ROGUE is set where the home named is still there (R120). -/
theorem foundHere_homes (s : State) (id : HuntId) (r : HomeRef) : Sound P s (s.foundHere id r) := by
  have hrogue (hh : s.isHome r = true) := touch_sound (P := P) s r.handle { s.entry r.handle with
    holds := { (s.entry r.handle).holds with rogue := true } } (ne_free_of_state ((isHome_iff s r).1 hh).1)
    ⟨rfl, rfl, rfl, rfl, rfl, .inl rfl⟩
  exact (Sound.ite hrogue fun _ => .refl s).trans (raiseAlarm_homes _ _ _)

theorem takeFound_homes (s : State) (id : HuntId) (outcome : HuntOutcome) : Sound P s (s.takeFound id outcome) := by
  unfold State.takeFound
  split
  · exact .ite (fun _ => foundHere_homes s id _) fun _ => .refl s
  all_goals exact .refl s

theorem closeHeard_homes (s : State) (id : HuntId) (outcome : HuntOutcome) : Sound P s (s.closeHeard id outcome) := by
  unfold State.closeHeard
  split
  · exact takeFound_homes s id outcome
  · exact .ite (fun _ => (clearFlag_homes s).trans ((endHunt_homes _ _).trans
      ((takeFound_homes _ _ _).trans (takeDeferred_homes _)))) fun _ => .refl s

end Engines

end Sys2Proof.Machine
end

section
/-! PROOFS. The homes through handover, start-up and draining, and the requests on a home. -/

namespace Sys2Proof.Machine

section Engines
variable {P : Prop}

/-! ### Handover (R126 to R137) -/

theorem movedOut_homes (s : State) (e : Entry) (serial : Serial) (o : MoveOutcome) : Sound P s (s.movedOut e serial o) :=
  pushEvent_homes s _

/-- Where a context's fields change, its direction stays. -/
theorem map_direction (o : Option Handover) (f : Handover → Handover) (hf : ∀ c, (f c).direction = c.direction) :
    (o.map f).map Handover.direction = o.map Handover.direction := by
  cases o with
  | none => rfl
  | some c => exact congrArg some (hf c)

theorem arrivingEntry_starts (img : Image) (serial : Serial) (source : Nat) (p : Profile) (eqDelay h : Nat) :
    (arrivingEntry img serial source p eqDelay h).Starts img serial := by
  refine ⟨fun hh => (nomatch hh), rfl, ⟨_, rfl⟩, ?_⟩
  simp [Entry.Agrees, arrivingEntry, Entry.storeDelay, Entry.free, Holds.clear, HomeState.direction, Handover.into]

theorem considerOffer_homes (s : State) (serial : Serial) (source : Nat) (p : Profile) (eqDelay : Nat)
    (hb : s.builds = true) : Sound P s (s.considerOffer serial source p eqDelay) := by
  refine .ite (fun _ => queueNotice_homes s _) fun hfind => ?_
  have hnone : s.find serial = none := by simpa using hfind
  split
  · exact queueNotice_homes s _
  next h hfree =>
    exact .ite (fun _ => (takeEntry_homes s h _ serial hnone hfree (arrivingEntry_starts _ _ _ _ _ _) hb).trans
      (queueNotice_homes _ _)) fun _ => queueNotice_homes s _

theorem offerHeard_homes (s : State) (serial : Serial) (source target : Nat) (p : Profile) (eqDelay : Nat) :
    Sound P s (s.offerHeard serial source target p eqDelay) := by
  have hself := Sound.refl (P := P) s
  unfold State.offerHeard
  split
  case h_5 hrun =>
    refine .ite (fun _ => considerOffer_homes s serial source p eqDelay ?_) fun _ => hself
    unfold State.builds State.operating
    rw [hrun]
    rfl
  case h_1 => exact hself
  case h_2 => exact hself
  all_goals exact .ite (fun _ => queueNotice_homes s _) fun _ => hself

/-- The move is on: the LEAVING entry is TUNING (R127). -/
theorem toTuning_homes (s : State) (h : Nat) (channel newHandle : Nat) (hs : (s.entry h).state = .leaving) :
    Sound P s (s.setEntry h ((s.entry h).toTuning channel newHandle)) := by
  have hpost := post_touched s.img
    { s.entry h with state := .tuning, handover := (s.entry h).handover.map fun c => { c with newHandle := some newHandle } }
    (.tune channel newHandle)
  have hdir := map_direction (s.entry h).handover (fun c => { c with newHandle := some newHandle }) fun _ => rfl
  refine setEntry_sound s h _ (ne_free_of_state (state_ne_free hs (by decide))) ?_ fun ha => ?_
  · refine Entry.Turns.touched ?_ hpost
    exact .of_state (by rw [hs]; decide) (by rw [hs]; decide) (fun hh => nomatch hh) rfl (.inl rfl)
  · refine hpost.agrees (ha.turn (by rw [hs]; decide) (by rw [hs]; decide) (by rw [hs]; decide) ?_ rfl rfl
      fun hh => nomatch hh)
    refine hdir.trans (ha.1.trans ?_)
    rw [hs]
    rfl

theorem acceptHeard_homes (s : State) (serial : Serial) (channel newHandle : Nat) :
    Sound P s (s.acceptHeard serial channel newHandle) := by
  unfold State.acceptHeard
  split
  · exact .refl s
  next h _ => exact .ite (fun hc => toTuning_homes s h channel newHandle hc.1) fun _ => .refl s

theorem refuseHeard_homes (s : State) (serial : Serial) (channel : Nat) (reason : RefuseReason) :
    Sound P s (s.refuseHeard serial channel reason) := by
  unfold State.refuseHeard
  split
  · exact .refl s
  next h _ => exact .ite (fun hc => (returnActive_homes s h (.inl hc.1)).trans (movedOut_homes _ _ _ _)) fun _ => .refl s

/-- The context's fields but its direction are written. -/
theorem handover_touched (img : Image) (e : Entry) (f : Handover → Handover) (hf : ∀ c, (f c).direction = c.direction) :
    e.Touched img { e with handover := e.handover.map f } :=
  ⟨rfl, rfl, map_direction e.handover f hf, rfl, rfl, .inl rfl⟩

theorem accountHeard_homes (s : State) (serial : Serial) (source : Nat) (a : Account) :
    Sound P s (s.accountHeard serial source a) := by
  unfold State.accountHeard
  split
  · exact .refl s
  next h _ =>
    refine .ite (fun hc => ?_) fun _ => .refl s
    have hlive := state_ne_free hc.1 (by decide)
    have hentry : (s.setAcct h (some a)).entry h = s.entry h := rfl
    have htouch := touch_sound (P := P) (s.setAcct h (some a)) h
      { s.entry h with handover := (s.entry h).handover.map fun c => { c with accountInHand := true } }
      (by rw [hentry]; exact ne_free_of_state hlive) (handover_touched _ _ _ fun _ => rfl)
    refine (setAcct_sound s h _ fun _ => hlive).trans (htouch.trans (tryTaking_homes _ h ?_))
    rw [entry_setEntry_self _ _ _ (handle_of_state s h hlive)]
    exact hc.1

theorem takenCarried_homes (s : State) (serial : Serial) : Sound P s (s.takenCarried serial) := by
  unfold State.takenCarried
  split
  · exact .refl s
  next h _ =>
    refine .ite (fun hs => ?_) fun _ => .refl s
    have hact := toActive_homes (P := P) s h (by rw [hs]; decide) (by rw [hs]; decide) (by rw [hs]; decide)
      (by rw [hs]; decide)
    refine hact.trans ((setAcct_homes _ h _ fun hno => ?_).trans ((startCredit_homes _ h).trans ((pushEvent_homes _ _).trans
      (drainClose_homes _ h))))
    rw [show s.acct h = none from hno]
    rfl

theorem takenHeard_homes (s : State) (serial : Serial) (channel : Nat) : Sound P s (s.takenHeard serial channel) := by
  unfold State.takenHeard
  split
  · exact .refl s
  next h _ =>
    exact .ite (fun hc => (enterClosing_homes s h _ _ (by rw [hc.1]; rfl)).trans
      ((withdraw_homes _ _).trans (movedOut_homes _ _ _ _))) fun _ => .refl s

theorem reclaimCarried_homes (s : State) (serial : Serial) : Sound P s (s.reclaimCarried serial) := by
  unfold State.reclaimCarried
  split
  · exact .refl s
  next h _ =>
    dsimp only
    split
    case h_1 hs _ => exact (returnActive_homes s h (.inr hs)).trans (movedOut_homes _ _ _ _)
    case h_2 hs =>
      exact (enterLost_homes s h (by rw [hs]; rfl)).trans ((startCredit_homes _ h).trans ((movedOut_homes _ _ _ _).trans
        (drainClose_homes _ h)))
    case h_3 => exact .refl s

theorem reclaimHeard_homes (s : State) (serial : Serial) (source : Nat) : Sound P s (s.reclaimHeard serial source) := by
  unfold State.reclaimHeard
  split
  · exact .refl s
  next h _ =>
    refine .ite (fun hc => (freeEntry_sound s h ?_ fun _ => ?_).trans (withdraw_homes _ _)) fun _ => .refl s
    all_goals rcases hc.1 with hs | hs <;> rw [hs] <;> decide

theorem queueReclaim_homes (s : State) (h : Nat) (serial : Serial) (cause : ReclaimCause)
    (hlive : (s.entry h).state ≠ .free) : Sound P s (s.queueReclaim h serial cause) := by
  refine (touch_sound s h _ (ne_free_of_state hlive) (handover_touched _ _ _ fun _ => ?_)).trans (queueNotice_homes _ _)
  rfl

theorem handoverExpired_homes (s : State) (h : Nat) (serial : Serial) : Sound P s (s.handoverExpired h serial) := by
  unfold State.handoverExpired
  dsimp only
  split
  case h_1 hs => exact (returnActive_homes s h (.inl hs)).trans ((withdraw_homes _ _).trans (movedOut_homes _ _ _ _))
  case h_2 hs =>
    have hlive := state_ne_free hs (by decide)
    have hdrop := touch_sound (P := P) s h (s.entry h).dropTune (ne_free_of_state hlive) ⟨rfl, rfl, rfl, rfl, rfl, .inl rfl⟩
    refine hdrop.trans (queueReclaim_homes _ h serial .timeout ?_)
    rw [entry_setEntry_self _ _ _ (handle_of_state s h hlive)]
    exact hlive
  case h_3 hs => exact (withdraw_homes s _).trans (queueReclaim_homes _ h serial .timeout (state_ne_free hs (by decide)))
  all_goals exact .refl s

/-! ### Start-up (R188 to R191) -/

/-- The Image Loader's fields but the image hold no home; maps are not stopped. -/
theorem startup_homes (s : State) (il : ImageLoader) (hi : il.image = s.il.image)
    (hb : State.builds { s with il := il } = false → s.builds = false) : Sound P s { s with il := il } := by
  refine SameHomes.sound ⟨fun _ => .refl _ _, fun x h hf => (x.free h hf).1, fun _ ha => ha, fun _ => rfl,
    fun _ _ hc => hc, fun _ hr => hr, ?_, hb⟩
  exact hi

theorem enterFault_homes (s : State) (reason : FaultReason) (usable : Option Nat) (clash : Option (Nat × Station))
    (hb : s.builds = false) : Sound P s (s.enterFault reason usable clash) := by
  refine Sound.trans ?_ (pushEvent_homes _ _)
  exact startup_homes s _ rfl fun _ => hb

/-- A good image has a reach (R189). -/
theorem readImage_reach (ws : List ImageWord) (hgood : firstBadField ws = none) :
    (readImage ws).rLow ≤ (readImage ws).rHigh ∧ (readImage ws).rHigh ≤ 160000 := by
  unfold firstBadField at hgood
  rw [Option.map_eq_none_iff, List.find?_eq_none] at hgood
  have hmem : (ImageField.rHigh, decide (longAt ws 3 ≤ 160000) && decide (longAt ws 1 < longAt ws 3)) ∈ fieldChecks ws := by
    unfold fieldChecks
    exact List.mem_cons_of_mem _ (List.mem_cons_of_mem _ List.mem_cons_self)
  have hpass := hgood _ hmem
  simp only [Bool.not_eq_true', Bool.not_eq_false, Bool.and_eq_true, decide_eq_true_eq] at hpass
  exact ⟨Nat.le_of_lt hpass.2, hpass.1⟩

/-- A good image is taken while every entry is FREE (R188, R190). -/
theorem takeImage_homes (s : State) (img : Image) (hreach : img.rLow ≤ img.rHigh ∧ img.rHigh ≤ 160000)
    (hb : s.builds = false) : Sound P s (s.takeImage img) := by
  refine Sound.trans ?_ (queueNotice_homes _ _)
  refine ⟨fun x => ?_, fun x => x, fun _ _ _ hk => hk⟩
  refine ⟨x.free, x.serial, x.unique, hreach, fun h e hd => ?_, x.claim, x.hunted, fun _ => x.closed hb⟩
  have hd' : (s.entry h).eqDelay = some e := hd
  rw [(x.free h (x.closed hb h)).1] at hd'
  cases hd'

theorem loaded_homes (s : State) (ws : List ImageWord) (hb : s.builds = false) : Sound P s (s.loaded ws) := by
  unfold State.loaded
  refine .ite (fun _ => ?_) fun _ => enterFault_homes s _ _ _ hb
  split
  · exact enterFault_homes s _ _ _ hb
  next hgood => exact takeImage_homes s _ (readImage_reach ws hgood) hb

theorem answerPresent_homes (s : State) : Sound P s s.answerPresent := .ite (fun _ => .refl s) fun _ => queueNotice_homes s _

theorem presentHeard_homes (s : State) (station : Station) (incumbent : Bool) :
    Sound P s (s.presentHeard station incumbent) := by
  have hself := Sound.refl (P := P) s
  have hanswer := answerPresent_homes (P := P) s
  unfold State.presentHeard
  split
  case h_3 hlisten =>
    have hclash : Sound P s (s.clash station) := by
      refine enterFault_homes s _ _ _ ?_
      unfold State.builds State.operating State.draining
      rw [hlisten]
      rfl
    exact .ite (fun _ => hclash.trans (withdraw_homes _ _)) fun _ => .ite (fun _ => hclash) fun _ => hanswer
  case h_1 => exact hself
  case h_2 => exact hself
  all_goals exact .ite (fun _ => hself) fun _ => hanswer

theorem presentCarried_homes (s : State) (incumbent : Bool) : Sound P s (s.presentCarried incumbent) :=
  .ite (fun _ => startup_homes s _ rfl fun hb => hb) fun _ => .refl s

/-! ### Draining (R140, R192) -/

theorem drainEntry_homes (s : State) (h : Nat) : Sound P s (s.drainEntry h) := by
  have hclosed (hs : (s.entry h).state.accountRuns = true) := enterClosing_homes (P := P) s h .restart true hs
  have hfreed (hc : (s.entry h).state ≠ .claiming) (hk : (s.entry h).state ≠ .closing) :=
    (freeEntry_sound (P := P) s h hc fun _ => hk).trans
      (withdraw_homes _ (isTargetNoticeOf ((s.entry h).serial.getD 0)))
  unfold State.drainEntry
  dsimp only
  split
  case h_1 hs => exact hclosed (by rw [hs]; rfl)
  case h_2 hs => exact hclosed (by rw [hs]; rfl)
  case h_3 hs =>
    have hc := hclosed (by rw [hs]; rfl)
    exact .ite (fun _ => hc.trans (withdraw_homes _ _)) fun _ => hc.trans (queueNotice_homes _ _)
  case h_4 hs =>
    have hc := hclosed (by rw [hs]; rfl)
    exact .ite (fun _ => hc) fun _ => hc.trans (queueNotice_homes _ _)
  case h_5 hs => exact hfreed (by rw [hs]; decide) (by rw [hs]; decide)
  case h_6 hs => exact .ite (fun _ => withdraw_homes s _) fun _ => hfreed (by rw [hs]; decide) (by rw [hs]; decide)
  all_goals exact .refl s

theorem enterDraining_homes (s : State) : Sound P s s.enterDraining := by
  refine Sound.trans ?_ (foldl_homes State.drainEntry drainEntry_homes _ handles)
  refine startup_homes s _ rfl fun hb => ?_
  cases hb

theorem restarted_homes (s : State) (straps : Station) (hp : ¬P) : Sound P s (s.restarted straps) := by
  unfold State.restarted
  split
  · exact powerOn_homes s straps hp
  · exact powerOn_homes s straps hp
  · exact enterDraining_homes s
  · exact .refl s
  · exact .refl s

theorem repeated_homes (s : State) (r : RepeatTimer) : Sound P s (s.repeated r) :=
  .ite (fun _ => (placeReport_reportsOnly s _ _ true).sound.trans (startRepeat_reportsOnly _ _ _).sound)
    fun _ => endCondition_homes s _

/-! ### The answers to requests (R29, R42, R85, R126, R157, R158, R161) -/

/-- The state an answer leaves keeps the homes. -/
def AnswerSound (P : Prop) (s : State) (a : Answer) : Prop := Sound P s a.1

theorem AnswerSound.ite {s : State} {a b : Answer} {c : Prop} [Decidable c] (ha : c → AnswerSound P s a)
    (hb : ¬c → AnswerSound P s b) : AnswerSound P s (if c then a else b) := by
  split
  next h => exact ha h
  next h => exact hb h

theorem refusedWith_homes (s : State) (code : ResultCode) : AnswerSound P s (s.refusedWith code) := Sound.refl s

theorem done_homes {s t : State} (h : Sound P s t) : AnswerSound P s t.done := h

theorem onHome_homes (s : State) (serial : Serial) (act : Nat → Answer)
    (hact : ∀ h, (s.entry h).state ≠ .free → AnswerSound P s (act h)) : AnswerSound P s (s.onHome serial act) := by
  unfold State.onHome
  split
  · exact refusedWith_homes s _
  next h hf => exact hact h (find_sound s serial h hf).1

theorem settable_runs {st : HomeState} (h : st.settable = true) : st.accountRuns = true := by
  cases st <;> first | rfl | cases h

theorem setProfileAt_homes (s : State) (p : Profile) (h : Nat) (hl : (s.entry h).state ≠ .free) :
    AnswerSound P s (s.setProfileAt p h) := by
  have hset := touch_sound (P := P) s h { s.entry h with profile := some (clampProfile p) } (ne_free_of_state hl)
    ⟨rfl, rfl, rfl, rfl, rfl, .inl rfl⟩
  refine .ite (fun _ => .ite (fun _ => refusedWith_homes s _) fun _ => .ite (fun _ => ?_) fun _ => refusedWith_homes s _)
    fun _ => refusedWith_homes s _
  refine hset.trans (SameHomes.sound ?_)
  exact sameHomes_of_fields rfl rfl rfl rfl rfl rfl

theorem setAccountAt_homes (s : State) (a : AccountArgs) (h : Nat) (hl : (s.entry h).state ≠ .free) :
    AnswerSound P s (s.setAccountAt a h) := by
  refine .ite (fun _ => ?_) fun _ => refusedWith_homes s _
  split
  · exact refusedWith_homes s _
  · exact done_homes (changeAcct_sound s h _ fun _ => hl)
  · exact done_homes (.refl s)

theorem refillAt_homes (s : State) (amount h : Nat) (hl : (s.entry h).state ≠ .free) :
    AnswerSound P s (s.refillAt amount h) := by
  refine .ite (fun _ => ?_) fun _ => refusedWith_homes s _
  split
  · exact changeAcct_sound s h _ fun _ => hl
  · exact done_homes (.refl s)

/-- A move starts from an ACTIVE entry without a hold, whose parts lie still (R126). -/
theorem startMove_homes (s : State) (h : Nat) (serial : Serial) (target : Nat) (hs : (s.entry h).state = .active)
    (hh : (s.entry h).holds.any = false) : Sound P s (s.startMove h serial target) := by
  refine (setEntry_sound s h _ (ne_free_of_state (by rw [hs]; decide)) ?_ fun ha => ?_).trans (queueNotice_homes _ _)
  · exact .of_state (by rw [hs]; decide) (by rw [hs]; decide) (fun hh => nomatch hh) rfl (.inl rfl)
  · obtain ⟨-, hlost, -, hphase⟩ := ha
    have hdrift : (s.entry h).holds.drift = false := by
      unfold Holds.any at hh
      simp_all
    have hoff : (s.drift h).phase = .off := by
      by_contra hne
      exact absurd (hphase.1 hne).1 (by simp [hdrift])
    have hstill : (s.entry h).lostTimer.isSome = false := by
      by_contra hne
      exact absurd (hs.symm.trans (hlost.1 (Bool.eq_true_of_not_eq_false hne))) (by decide)
    rw [hoff]
    exact agrees_of_still rfl hstill hdrift fun hh => nomatch hh

theorem moveAt_homes (s : State) (serial : Serial) (target h : Nat) : AnswerSound P s (s.moveAt serial target h) := by
  have hno (code : ResultCode) := refusedWith_homes (P := P) s code
  refine .ite (fun _ => hno _) fun _ => .ite (fun _ => hno _) fun _ => .ite (fun _ => hno _) fun hc =>
    .ite (fun _ => hno _) fun _ => done_homes ?_
  rw [not_or, Decidable.not_not, Bool.not_eq_true] at hc
  exact startMove_homes s h serial target hc.1 hc.2

theorem holdAt_homes (s : State) (code : Nat) (set : Bool) (h : Nat) (hl : (s.entry h).state ≠ .free) :
    AnswerSound P s (s.holdAt code set h) := by
  have hdrift : ((s.entry h).holds.change code set).drift = (s.entry h).holds.drift := by
    unfold Holds.change
    split <;> rfl
  have htouch := touch_sound (P := P) s h { s.entry h with holds := (s.entry h).holds.change code set }
    (ne_free_of_state hl) ⟨rfl, rfl, rfl, rfl, hdrift, .inl rfl⟩
  exact done_homes htouch

theorem holdRequest_homes (s : State) (serial : Serial) (code : Nat) (flag : Byte) :
    AnswerSound P s (s.holdRequest serial code flag) :=
  .ite (fun _ => onHome_homes s serial _ fun h hl => holdAt_homes s code _ h hl) fun _ =>
    .ite (fun _ => refusedWith_homes s _) fun _ => onHome_homes s serial _ fun _ _ => refusedWith_homes s _

/-- The Usage Meter's own fields but the accounts hold no home. -/
theorem meterFields_homes (s : State) (um : UsageMeter) (ha : um.accounts = s.um.accounts) :
    Sound P s { s with um := um } := by
  have hacct (k : Nat) : State.acct { s with um := um } k = s.acct k := by
    unfold State.acct
    rw [ha]
  refine SameHomes.sound (sameHomes_of_roster rfl (fun k hk => (hacct k).trans hk) rfl (claims_of_ee rfl)
    (hunted_of_frozen rfl) rfl rfl)

theorem closePeriods_homes (s : State) (p : Nat) : Sound P s (s.closePeriods p) := by
  have hclose (t : State) (h : Nat) : Sound P t (t.closeAccount p h) := by
    unfold State.closeAccount
    split
    · exact .refl t
    next a ha => exact .ite (fun _ => changeAcct_sound t h _ fun x => x.live_of_acct (by rw [ha]; simp)) fun _ => .refl t
  have hclosed := foldl_homes (State.closeAccount p) hclose s handles
  unfold State.closePeriods
  dsimp only
  generalize handles.foldl (State.closeAccount p) s = t at hclosed ⊢
  exact hclosed.trans (meterFields_homes t _ rfl)

theorem enable_homes (s : State) (b : Bool) : Sound P s { s with ee := { s.ee with discoveryEnable := b } } := by
  refine SameHomes.sound (sameHomes_of_roster rfl (fun k => (acct_of_um s _ rfl k).trans) rfl (fun _ _ hc => hc)
    (hunted_of_frozen rfl) rfl rfl)

theorem discovery_homes (s : State) (f : Config.FlagReading) : AnswerSound P s (s.discovery f) := by
  unfold State.discovery
  split
  · exact .ite (fun _ => refusedWith_homes s _) fun _ => done_homes (enable_homes s true)
  · exact done_homes (enable_homes s false)
  · exact refusedWith_homes s _

end Engines

end Sys2Proof.Machine
end

section
/-! PROOFS. The homes through every command, and obligations O5 and O9. -/

namespace Sys2Proof.Machine

/-- The commands at which a CLOSING entry may be freed: a usage record carried, and the resets (R44, R45). -/
def freesClosing : Instr → Bool
  | .usageRecordCarried => true
  | .powerOnReset _ => true
  | .drainComplete _ => true
  | .drainTimerExpiry _ => true
  | .resultCarried _ => true
  | _ => false

/-- Where the command has a next state, the homes are kept there. -/
def HomesStep (P : Prop) (s : State) (o : Host.Outcome State Fault Refusal) : Prop := ∀ t, o = .next t → Sound P s t

section Commands
variable {P : Prop}

/-! ### One command -/

theorem Sound.next {s t : State} (h : Sound P s t) : HomesStep P s (.next t) := by
  intro u hu
  cases hu
  exact h

theorem Sound.settled {s t : State} (h : Sound P s t) : HomesStep P s (.next t.settle) := (h.trans (settle_homes t)).next

theorem homesStep_stays (s : State) : HomesStep P s (.next s) := (Sound.refl s).next

theorem HomesStep.ite {s : State} {a b : Host.Outcome State Fault Refusal} {c : Prop} [Decidable c]
    (ha : c → HomesStep P s a) (hb : ¬c → HomesStep P s b) : HomesStep P s (if c then a else b) := by
  split
  next h => exact ha h
  next h => exact hb h

/-- A command whose effect is settled, or which changes nothing. -/
theorem Sound.settledIf {s t : State} {c : Prop} [Decidable c] (h : c → Sound P s t) :
    HomesStep P s (.next (if c then t.settle else s)) :=
  (Sound.ite (fun hc => (h hc).trans (settle_homes t)) fun _ => .refl s).next

/-- A command that does nothing while the reset pin is held. -/
theorem homesStep_unless {s : State} {c : Prop} [Decidable c] {o : Host.Outcome State Fault Refusal}
    (h : HomesStep P s o) : HomesStep P s (if c then .next s else o) := .ite (fun _ => homesStep_stays s) fun _ => h

theorem hearNotice_homes (src : Source) (n : Notice) (act : State → State) (s : State) (hact : ∀ t, Sound P t (act t)) :
    HomesStep P s (hearNotice src n act s) := by
  refine homesStep_unless ?_
  split
  · exact .ite (fun _ => ((noticeCarried_homes s).trans (hact _)).settled) fun _ => homesStep_stays s
  · exact ((lineHeard_homes s).trans (hact _)).settled

theorem answer_homes {α : Type} (s : State) (kind : RequestKind) (args : Option α) (act : α → State → Answer)
    (hact : ∀ a t, AnswerSound P t (act a t)) : AnswerSound P s (s.answer kind args act) := by
  refine .ite (fun _ => refusedWith_homes s _) fun _ => ?_
  split
  · exact refusedWith_homes s _
  · exact hact _ s

theorem request_homes {α : Type} (kind : RequestKind) (hd : RequestHeader) (args : Option α)
    (act : α → State → Answer) (s : State) (hact : ∀ a t, AnswerSound P t (act a t)) :
    HomesStep P s (request kind hd args act s) := by
  have hheard := lineHeard_homes (P := P) s
  refine homesStep_unless (.ite (fun _ => .ite (fun _ => (ports_homes s _).next) fun _ => .ite (fun _ => hheard.next)
    fun _ => ?_) fun _ => hheard.next)
  exact ((hheard.trans (answer_homes _ kind args act hact)).trans (requests_homes _ _)).settled

theorem broadcast_homes {α : Type} (hd : RequestHeader) (args : Option α) (act : α → State → State) (s : State)
    (hact : ∀ a t, Sound P t (act a t)) : HomesStep P s (broadcast hd args act s) := by
  have hheard := lineHeard_homes (P := P) s
  refine homesStep_unless (.ite (fun _ => .ite (fun _ => (ports_homes s _).next) fun _ => .ite (fun _ => hheard.next)
    fun _ => .ite (fun _ => hheard.next) fun _ => ?_) fun _ => hheard.next)
  split
  · exact hheard.next
  · exact (hheard.trans (hact _ _)).settled

/-! ### The commands of the part's own blocks -/

theorem execResetAsserted_homes (s : State) : HomesStep P s (execResetAsserted s) := by
  refine Sound.next (SameHomes.sound ?_)
  exact sameHomes_of_fields rfl rfl rfl rfl rfl rfl

theorem builds_of_loading {s : State} (h : s.il.startup = .loading) : s.builds = false := by
  unfold State.builds State.operating State.draining
  rw [h]
  rfl

theorem execImageLoadComplete_homes (ws : List ImageWord) (s : State) : HomesStep P s (execImageLoadComplete ws s) :=
  homesStep_unless (.ite (fun hc => (loaded_homes s ws (builds_of_loading hc.1)).settled) fun _ => homesStep_stays s)

theorem execNoImage_homes (s : State) : HomesStep P s (execNoImage s) :=
  homesStep_unless (.ite (fun hc => (enterFault_homes s _ _ _ (builds_of_loading hc.1)).settled) fun _ => homesStep_stays s)

theorem execCycleStart_homes (s : State) : HomesStep P s (execCycleStart s) := by
  have hbegun : Sound P s s.tick.reachMap.emptyDownstream :=
    (tick_homes s).trans ((reachMap_homes _).trans (ports_homes _ _))
  exact homesStep_unless (Sound.ite (fun _ => hbegun.trans (buildMap_homes _ _)) fun _ => hbegun).settled

theorem ne_free_of_mailbox {e : Entry} {m : Message} (h : e.mailbox = some m) : e ≠ Entry.free := by
  rintro rfl
  cases h

theorem execMessageFailure_homes (h : Nat) (s : State) : HomesStep P s (execMessageFailure h s) := by
  refine homesStep_unless ?_
  split
  · exact homesStep_stays s
  next hm => exact Sound.settledIf fun _ => messageFailed_homes s h _ (ne_free_of_mailbox hm)

theorem execReleaseDropped_homes (h : Nat) (s : State) : HomesStep P s (execReleaseDropped h s) := by
  refine homesStep_unless ?_
  split
  · exact homesStep_stays s
  next hm =>
    have htouch := touch_sound (P := P) s h { s.entry h with mailbox := none } (ne_free_of_mailbox hm)
      ⟨rfl, rfl, rfl, rfl, rfl, .inl rfl⟩
    exact Sound.settledIf fun _ => htouch

theorem execDataRangeObservation_homes (r : WindowRef) (o : BurstObs) (s : State) :
    HomesStep P s (execDataRangeObservation r o s) := by
  refine homesStep_unless (.ite (fun _ => ?_) fun _ => homesStep_stays s)
  split
  · exact homesStep_stays s
  · exact .ite (fun _ => ((clearOutstanding_homes s r).trans ((ports_homes _ _).trans (observeBurst_homes _ _ _ _))).settled)
      fun _ => homesStep_stays s

theorem execDiscoverObservation_homes (r : WindowRef) (o : DiscoverObs) (s : State) :
    HomesStep P s (execDiscoverObservation r o s) := by
  refine homesStep_unless (.ite (fun _ => ?_) fun _ => homesStep_stays s)
  split
  · exact homesStep_stays s
  · exact Sound.settledIf fun _ => (clearOutstanding_homes s r).trans (discovered_homes _ o)

theorem execQuietObservation_homes (r : WindowRef) (light : Bool) (s : State) :
    HomesStep P s (execQuietObservation r light s) := by
  refine homesStep_unless (.ite (fun _ => ?_) fun _ => homesStep_stays s)
  split
  · exact homesStep_stays s
  · exact ((clearOutstanding_homes s r).trans (quietTaken_homes _ light)).settled

theorem execDownstreamPacket_homes (h label bytes : Nat) (s : State) :
    HomesStep P s (execDownstreamPacket h label bytes s) := by
  refine homesStep_unless ?_
  split
  · exact (ports_homes s _).next
  next a ha =>
    exact .ite (fun _ => ((changeAcct_sound s h _ fun x => x.live_of_acct (by rw [ha]; simp)).trans (ports_homes _ _)).settled)
      fun _ => (ports_homes s _).next

theorem execClaimHoldExpiry_homes (h : Nat) (s : State) : HomesStep P s (execClaimHoldExpiry h s) := by
  refine homesStep_unless ?_
  split
  next serial _ _ =>
    exact .ite (fun hc => (claimHeldOut_homes s h serial hc.2).settled) fun _ => homesStep_stays s
  · exact homesStep_stays s
  · exact homesStep_stays s

theorem execLostTimerExpiry_homes (h : Nat) (s : State) : HomesStep P s (execLostTimerExpiry h s) :=
  homesStep_unless (Sound.settledIf fun hc => release_homes s h _ _ (by rw [hc.1]; rfl))

theorem execHandoverTimerExpiry_homes (h : Nat) (s : State) : HomesStep P s (execHandoverTimerExpiry h s) := by
  refine homesStep_unless ?_
  split
  · exact homesStep_stays s
  · exact Sound.settledIf fun _ => handoverExpired_homes s h _

theorem execInboundTimerExpiry_homes (h : Nat) (s : State) : HomesStep P s (execInboundTimerExpiry h s) := by
  refine homesStep_unless ?_
  split
  · exact homesStep_stays s
  · exact Sound.settledIf fun hc => (freeEntry_sound s h (by rw [hc.2]; decide) fun _ => by rw [hc.2]; decide).trans
      (withdraw_homes _ _)

theorem execGuardExpiry_homes (s : State) : HomesStep P s (execGuardExpiry s) :=
  homesStep_unless (Sound.settledIf fun _ => (clearFlag_homes s).trans ((endHunt_homes _ _).trans (takeDeferred_homes _)))

theorem execJoinTimerExpiry_homes (s : State) : HomesStep P s (execJoinTimerExpiry s) := by
  refine homesStep_unless ?_
  split
  · exact Sound.settledIf fun _ => joinsOver_homes s _ _
  all_goals exact homesStep_stays s

theorem execReadyTimerExpiry_homes (s : State) : HomesStep P s (execReadyTimerExpiry s) := by
  refine homesStep_unless ?_
  split
  · exact Sound.settledIf fun _ => Sound.ite (fun _ => setOwner_homes s _) fun _ => queueClose_homes s _ _ _
  all_goals exact homesStep_stays s

theorem execListeningTimerExpiry_homes (s : State) : HomesStep P s (execListeningTimerExpiry s) := by
  refine homesStep_unless (.ite (fun _ => Sound.next ?_) fun _ => homesStep_stays s)
  refine startup_homes s _ rfl fun hb => ?_
  cases hb

theorem execRepeatTimerExpiry_homes (a : AlarmSource) (s : State) : HomesStep P s (execRepeatTimerExpiry a s) := by
  refine homesStep_unless ?_
  split
  · exact homesStep_stays s
  · exact Sound.settledIf fun _ => repeated_homes s _

/-! ### The commands of the line -/

theorem execCarriedIgnoredFrame_homes (cls : BitVec 3) (sender : Station) (kind : BitVec 4) (s : State) :
    HomesStep P s (execCarriedIgnoredFrame cls sender kind s) := homesStep_unless (lineHeard_homes s).next

theorem execFrameCheckFailed_homes (f : RawFrame) (s : State) : HomesStep P s (execFrameCheckFailed f s) :=
  homesStep_unless (homesStep_unless (ports_homes s _).next)

theorem execLineIdleContend_homes (rival : Option (BitVec 11)) (s : State) :
    HomesStep P s (execLineIdleContend rival s) := by
  refine homesStep_unless (.ite (fun _ => ?_) fun _ => homesStep_stays s)
  split
  · exact homesStep_stays s
  · exact .ite (fun _ => (port_homes s _).next) fun _ => homesStep_stays s

theorem execOwnFrameVoided_homes (droveVoid : Bool) (s : State) : HomesStep P s (execOwnFrameVoided droveVoid s) := by
  refine homesStep_unless ?_
  split
  · exact homesStep_stays s
  · have hvoided : Sound P s { s with
        slp := { s.slp with transmitting := none, voidCount := satAdd Config.voidLimit s.slp.voidCount 1 }
        ports := { s.ports with voidDriven := droveVoid } } := by
      refine Sound.trans (port_homes s { s.slp with
        transmitting := none, voidCount := satAdd Config.voidLimit s.slp.voidCount 1 }) ?_
      exact ports_homes _ _
    exact ((Sound.ite (fun _ => hvoided.trans (removeWithdrawn_homes _)) fun _ => hvoided).trans (detachIfDue_homes _)).settled

theorem execDetachTimerExpiry_homes (s : State) : HomesStep P s (execDetachTimerExpiry s) :=
  homesStep_unless (.ite (fun _ => (port_homes s _).settled) fun _ => homesStep_stays s)

theorem execResultCarried_homes (straps : Station) (s : State) (hp : ¬P) : HomesStep P s (execResultCarried straps s) := by
  refine homesStep_unless ?_
  split
  next rest _ _ =>
    have hcarried := (requests_homes (P := P) s { s.rq with results := rest }).trans (ownCarried_homes _)
    exact (Sound.ite (fun _ => hcarried.trans (restarted_homes _ straps hp)) fun _ => hcarried).settled
  · exact homesStep_stays s

theorem execReportCarried_homes (s : State) : HomesStep P s (execReportCarried s) := by
  refine homesStep_unless ?_
  split
  · exact ((reportGone_homes s _).trans (ownCarried_homes _)).settled
  · exact homesStep_stays s

theorem execUsageFirstPartCarried_homes (s : State) : HomesStep P s (execUsageFirstPartCarried s) := by
  refine homesStep_unless ?_
  split
  · split
    · exact ((port_homes s _).trans (ownCarried_homes _)).settled
    · exact homesStep_stays s
  · exact homesStep_stays s

theorem execUsageRecordCarried_homes (s : State) (hp : ¬P) : HomesStep P s (execUsageRecordCarried s) := by
  refine homesStep_unless ?_
  split
  · split
    · exact ((recordCarried_homes s _ hp).trans (ownCarried_homes _)).settled
    · exact homesStep_stays s
  · exact homesStep_stays s

theorem execDrainComplete_homes (straps : Station) (s : State) (hp : ¬P) : HomesStep P s (execDrainComplete straps s) :=
  homesStep_unless (.ite (fun _ => (powerOn_homes s straps hp).next) fun _ => homesStep_stays s)

theorem execDrainTimerExpiry_homes (straps : Station) (s : State) (hp : ¬P) :
    HomesStep P s (execDrainTimerExpiry straps s) :=
  homesStep_unless (.ite (fun _ => (powerOn_homes s straps hp).next) fun _ => homesStep_stays s)

/-! ### The carried notices -/

theorem execClaim_homes (src : Source) (serial : Serial) (channel : Nat) (s : State) :
    HomesStep P s (execClaim src serial channel s) := by
  refine hearNotice_homes src _ _ s fun t => ?_
  cases src with
  | own => exact claimCarried_homes t serial
  | other x => exact claimHeard_homes t serial channel

theorem execHeld_homes (src : Source) (serial : Serial) (channel : Nat) (s : State) :
    HomesStep P s (execHeld src serial channel s) := by
  refine hearNotice_homes src _ _ s fun t => ?_
  cases src with
  | own => exact .refl t
  | other x => exact heldHeard_homes t serial channel

theorem execOffer_homes (src : Source) (serial : Serial) (source target assured peak weight eqDelay : Nat) (s : State) :
    HomesStep P s (execOffer src serial source target assured peak weight eqDelay s) := by
  refine hearNotice_homes src _ _ s fun t => ?_
  cases src with
  | own => exact .refl t
  | other x => exact offerHeard_homes t serial source target _ eqDelay

theorem execAccept_homes (src : Source) (serial : Serial) (channel newHandle : Nat) (s : State) :
    HomesStep P s (execAccept src serial channel newHandle s) := by
  refine hearNotice_homes src _ _ s fun t => ?_
  cases src with
  | own => exact .refl t
  | other x => exact acceptHeard_homes t serial channel newHandle

theorem execRefuse_homes (src : Source) (serial : Serial) (channel : Nat) (reason : RefuseReason) (s : State) :
    HomesStep P s (execRefuse src serial channel reason s) := by
  refine hearNotice_homes src _ _ s fun t => ?_
  cases src with
  | own => exact .refl t
  | other x => exact refuseHeard_homes t serial channel reason

theorem execAccount_homes (src : Source) (serial : Serial) (source : Nat) (mode : Mode)
    (credit base lowWater residueUp residueDown period : Nat) (s : State) :
    HomesStep P s (execAccount src serial source mode credit base lowWater residueUp residueDown period s) := by
  refine hearNotice_homes src _ _ s fun t => ?_
  cases src with
  | own => exact .refl t
  | other x => exact accountHeard_homes t serial source _

theorem execTaken_homes (src : Source) (serial : Serial) (channel : Nat) (s : State) :
    HomesStep P s (execTaken src serial channel s) := by
  refine hearNotice_homes src _ _ s fun t => ?_
  cases src with
  | own => exact takenCarried_homes t serial
  | other x => exact takenHeard_homes t serial channel

theorem execReclaim_homes (src : Source) (serial : Serial) (source : Nat) (s : State) :
    HomesStep P s (execReclaim src serial source s) := by
  refine hearNotice_homes src _ _ s fun t => ?_
  cases src with
  | own => exact reclaimCarried_homes t serial
  | other x => exact reclaimHeard_homes t serial source

theorem execHuntOpen_homes (src : Source) (id : HuntId) (s : State) : HomesStep P s (execHuntOpen src id s) := by
  refine hearNotice_homes src _ _ s fun t => .ite (fun _ => .refl t) fun _ => ?_
  cases src with
  | own => exact ownOpen_homes t id
  | other x => exact otherOpen_homes t id

theorem execHuntJoin_homes (src : Source) (id : HuntId) (channel count : Nat) (s : State) :
    HomesStep P s (execHuntJoin src id channel count s) :=
  hearNotice_homes src _ _ s fun t => joinHeard_homes t id channel count

theorem execHuntStep_homes (src : Source) (id : HuntId) (step : Nat) (selector : Selector) (s : State) :
    HomesStep P s (execHuntStep src id step selector s) := by
  refine hearNotice_homes src _ _ s fun t => ?_
  split
  · exact (setFlag_homes t id).trans (yieldOpening_homes _)
  · exact .ite (fun _ => stepHeard_homes t src step selector) fun _ => .refl t

theorem execHuntReady_homes (src : Source) (id : HuntId) (channel step : Nat) (named : Option HomeRef) (s : State) :
    HomesStep P s (execHuntReady src id channel step named s) :=
  hearNotice_homes src _ _ s fun t => readyHeard_homes t id channel step named

theorem execHuntClose_homes (src : Source) (id : HuntId) (outcome : HuntOutcome) (s : State) :
    HomesStep P s (execHuntClose src id outcome s) := hearNotice_homes src _ _ s fun t => closeHeard_homes t id outcome

theorem execPresent_homes (src : Source) (channel : Nat) (incumbent : Bool) (s : State) :
    HomesStep P s (execPresent src channel incumbent s) := by
  refine hearNotice_homes src _ _ s fun t => ?_
  cases src with
  | own => exact presentCarried_homes t incumbent
  | other x => exact .ite (fun _ => presentHeard_homes t x incumbent) fun _ => .refl t

/-! ### The requests -/

theorem execSetProfile_homes (hd : RequestHeader) (d : List Byte) (s : State) : HomesStep P s (execSetProfile hd d s) :=
  request_homes _ hd _ _ s fun a t => onHome_homes t a.1 _ fun h hl => setProfileAt_homes t a.2 h hl

theorem execSetAccount_homes (hd : RequestHeader) (d : List Byte) (s : State) : HomesStep P s (execSetAccount hd d s) :=
  request_homes _ hd _ _ s fun a t => onHome_homes t a.serial _ fun h hl => setAccountAt_homes t a h hl

theorem execRefill_homes (hd : RequestHeader) (d : List Byte) (s : State) : HomesStep P s (execRefill hd d s) :=
  request_homes _ hd _ _ s fun a t => onHome_homes t a.1 _ fun h hl => refillAt_homes t a.2 h hl

theorem execMove_homes (hd : RequestHeader) (d : List Byte) (s : State) : HomesStep P s (execMove hd d s) :=
  request_homes _ hd _ _ s fun a t => .ite (fun _ => refusedWith_homes t _) fun _ => .ite (fun _ => refusedWith_homes t _)
    fun _ => onHome_homes t a.1 _ fun h _ => moveAt_homes t a.1 a.2 h

theorem execRemove_homes (hd : RequestHeader) (d : List Byte) (s : State) : HomesStep P s (execRemove hd d s) :=
  request_homes _ hd _ _ s fun serial t => onHome_homes t serial _ fun h _ =>
    .ite (fun hs => done_homes (release_homes t h .removed true (settable_runs hs))) fun _ => refusedWith_homes t _

theorem execHold_homes (hd : RequestHeader) (d : List Byte) (s : State) : HomesStep P s (execHold hd d s) :=
  request_homes _ hd _ _ s fun a t => holdRequest_homes t a.1 a.2.1 a.2.2

theorem execClearHold_homes (hd : RequestHeader) (d : List Byte) (s : State) : HomesStep P s (execClearHold hd d s) :=
  request_homes _ hd _ _ s fun a t => holdRequest_homes t a.1 a.2.1 a.2.2

theorem execQueryHome_homes (hd : RequestHeader) (d : List Byte) (s : State) : HomesStep P s (execQueryHome hd d s) :=
  request_homes _ hd _ _ s fun a t => .ite (fun _ => onHome_homes t a.1 _ fun _ _ => Sound.refl t) fun _ =>
    .ite (fun _ => refusedWith_homes t _) fun _ => onHome_homes t a.1 _ fun _ _ => refusedWith_homes t _

theorem execListHomes_homes (hd : RequestHeader) (d : List Byte) (s : State) : HomesStep P s (execListHomes hd d s) :=
  request_homes _ hd _ _ s fun _ t => .ite (fun _ => refusedWith_homes t _) fun _ => Sound.refl t

theorem setBand_homes (s : State) (b : Nat) (x : Band) : Sound P s (s.setBand b x) := meterFields_homes s _ rfl

theorem execSetTariff_homes (hd : RequestHeader) (d : List Byte) (guardPin : Bool) (s : State) :
    HomesStep P s (execSetTariff hd d guardPin s) :=
  request_homes _ hd _ _ s fun _ t => .ite (fun _ => refusedWith_homes t _) fun _ => .ite (fun _ => refusedWith_homes t _)
    fun _ => .ite (fun _ => refusedWith_homes t _) fun _ => done_homes (setBand_homes t _ _)

theorem execFixTariff_homes (hd : RequestHeader) (d : List Byte) (guardPin : Bool) (s : State) :
    HomesStep P s (execFixTariff hd d guardPin s) :=
  request_homes _ hd _ _ s fun _ t => .ite (fun _ => refusedWith_homes t _) fun _ => .ite (fun _ => refusedWith_homes t _)
    fun _ => done_homes (setBand_homes t _ _)

theorem execSetDiscovery_homes (hd : RequestHeader) (d : List Byte) (s : State) :
    HomesStep P s (execSetDiscovery hd d s) := request_homes _ hd _ _ s fun b t => discovery_homes t (readFlag b)

theorem execStartHunt_homes (hd : RequestHeader) (d : List Byte) (s : State) : HomesStep P s (execStartHunt hd d s) :=
  request_homes _ hd _ _ s fun _ t => .ite (fun _ => refusedWith_homes t _) fun _ => .ite (fun _ => refusedWith_homes t _)
    fun _ => .ite (fun _ => done_homes (.refl t)) fun _ => done_homes (openHunt_homes t)

theorem execRestart_homes (hd : RequestHeader) (d : List Byte) (s : State) : HomesStep P s (execRestart hd d s) :=
  request_homes _ hd _ _ s fun _ t => .ite (fun _ => refusedWith_homes t _) fun _ => done_homes (.refl t)

theorem execBand_homes (hd : RequestHeader) (d : List Byte) (s : State) : HomesStep P s (execBand hd d s) :=
  broadcast_homes hd _ _ s fun _ t => .ite (fun _ => .refl t) fun _ => meterFields_homes t _ rfl

theorem execClosePeriod_homes (hd : RequestHeader) (d : List Byte) (s : State) : HomesStep P s (execClosePeriod hd d s) :=
  broadcast_homes hd _ _ s fun p t => .ite (fun _ => .refl t) fun _ => closePeriods_homes t p

theorem execSetFreeLabels_homes (hd : RequestHeader) (d : List Byte) (s : State) :
    HomesStep P s (execSetFreeLabels hd d s) := broadcast_homes hd _ _ s fun _ t => meterFields_homes t _ rfl

/-! ### Every command -/

theorem exec_homes (i : Instr) (s : State) (hp : freesClosing i = true → ¬P) : HomesStep P s (exec i s) := by
  cases i with
  | powerOnReset straps => exact (powerOn_homes s straps (hp rfl)).next
  | resetAsserted => exact execResetAsserted_homes s
  | imageLoadComplete words => exact execImageLoadComplete_homes words s
  | noImage => exact execNoImage_homes s
  | cycleStart => exact execCycleStart_homes s
  | messageFailure handle => exact execMessageFailure_homes handle s
  | releaseDropped handle => exact execReleaseDropped_homes handle s
  | dataRangeObservation window obs => exact execDataRangeObservation_homes window obs s
  | discoverObservation window obs => exact execDiscoverObservation_homes window obs s
  | quietObservation window light => exact execQuietObservation_homes window light s
  | downstreamPacket handle label bytes => exact execDownstreamPacket_homes handle label bytes s
  | claim src serial channel => exact execClaim_homes src serial channel s
  | held src serial channel => exact execHeld_homes src serial channel s
  | offer src serial source target assured peak weight eqDelay =>
    exact execOffer_homes src serial source target assured peak weight eqDelay s
  | accept src serial channel newHandle => exact execAccept_homes src serial channel newHandle s
  | refuse src serial channel reason => exact execRefuse_homes src serial channel reason s
  | account src serial source mode credit base lowWater residueUp residueDown period =>
    exact execAccount_homes src serial source mode credit base lowWater residueUp residueDown period s
  | taken src serial channel => exact execTaken_homes src serial channel s
  | reclaim src serial source => exact execReclaim_homes src serial source s
  | huntOpen src id => exact execHuntOpen_homes src id s
  | huntJoin src id channel count => exact execHuntJoin_homes src id channel count s
  | huntStep src id step selector => exact execHuntStep_homes src id step selector s
  | huntReady src id channel step named => exact execHuntReady_homes src id channel step named s
  | huntClose src id outcome => exact execHuntClose_homes src id outcome s
  | present src channel incumbent => exact execPresent_homes src channel incumbent s
  | carriedIgnoredFrame cls sender kind => exact execCarriedIgnoredFrame_homes cls sender kind s
  | frameCheckFailed frame => exact execFrameCheckFailed_homes frame s
  | lineIdleContend rival => exact execLineIdleContend_homes rival s
  | ownFrameVoided droveVoid => exact execOwnFrameVoided_homes droveVoid s
  | detachTimerExpiry => exact execDetachTimerExpiry_homes s
  | resultCarried straps => exact execResultCarried_homes straps s (hp rfl)
  | reportCarried => exact execReportCarried_homes s
  | usageFirstPartCarried => exact execUsageFirstPartCarried_homes s
  | usageRecordCarried => exact execUsageRecordCarried_homes s (hp rfl)
  | drainComplete straps => exact execDrainComplete_homes straps s (hp rfl)
  | drainTimerExpiry straps => exact execDrainTimerExpiry_homes straps s (hp rfl)
  | claimHoldExpiry handle => exact execClaimHoldExpiry_homes handle s
  | lostTimerExpiry handle => exact execLostTimerExpiry_homes handle s
  | handoverTimerExpiry handle => exact execHandoverTimerExpiry_homes handle s
  | inboundTimerExpiry handle => exact execInboundTimerExpiry_homes handle s
  | guardExpiry => exact execGuardExpiry_homes s
  | joinTimerExpiry => exact execJoinTimerExpiry_homes s
  | readyTimerExpiry => exact execReadyTimerExpiry_homes s
  | listeningTimerExpiry => exact execListeningTimerExpiry_homes s
  | repeatTimerExpiry source => exact execRepeatTimerExpiry_homes source s
  | setProfile hd data => exact execSetProfile_homes hd data s
  | setAccount hd data => exact execSetAccount_homes hd data s
  | refill hd data => exact execRefill_homes hd data s
  | move hd data => exact execMove_homes hd data s
  | remove hd data => exact execRemove_homes hd data s
  | hold hd data => exact execHold_homes hd data s
  | clearHold hd data => exact execClearHold_homes hd data s
  | queryHome hd data => exact execQueryHome_homes hd data s
  | listHomes hd data => exact execListHomes_homes hd data s
  | setTariff hd data guardPin => exact execSetTariff_homes hd data guardPin s
  | fixTariff hd data guardPin => exact execFixTariff_homes hd data guardPin s
  | setDiscovery hd data => exact execSetDiscovery_homes hd data s
  | startHunt hd data => exact execStartHunt_homes hd data s
  | restart hd data => exact execRestart_homes hd data s
  | band hd data => exact execBand_homes hd data s
  | closePeriod hd data => exact execClosePeriod_homes hd data s
  | setFreeLabels hd data => exact execSetFreeLabels_homes hd data s

end Commands

/-- A step takes the command at the front of the queue and executes it, or idles. -/
theorem step_sound (P : Prop) (s t : State) (hstep : step s = .next t)
    (hp : ∀ c rest, s.pending = c :: rest → freesClosing c = true → ¬P) : Sound P s t := by
  have hqueue : Sound P s s.dequeue := by
    refine SameHomes.sound ?_
    exact sameHomes_of_fields rfl rfl rfl rfl rfl rfl
  unfold step at hstep
  split at hstep
  next => cases hstep; exact .refl s
  next c rest hq => exact hqueue.trans (exec_homes c s.dequeue (hp c rest hq) t hstep)

/-- A command that frees no CLOSING entry is none of the commands O5 names. -/
theorem freesClosing_names {c : Instr} (h : freesClosing c = true) :
    c = .usageRecordCarried ∨ ∃ st, c = .powerOnReset st ∨ c = .drainComplete st ∨ c = .drainTimerExpiry st ∨
      c = .resultCarried st := by
  unfold freesClosing at h
  split at h
  · exact .inl rfl
  · exact .inr ⟨_, .inl rfl⟩
  · exact .inr ⟨_, .inr (.inl rfl)⟩
  · exact .inr ⟨_, .inr (.inr (.inl rfl))⟩
  · exact .inr ⟨_, .inr (.inr (.inr rfl))⟩
  · cases h

/-- Settles O5: every operation keeps the clauses of the roster law, and only a carried record and the resets end CLOSING. -/
theorem rosterKept : Obligations.RosterKept := by
  unfold Obligations.RosterKept
  constructor
  · intro s t hs hstep
    rw [rosterInv_iff] at hs ⊢
    exact (step_sound False s t hstep fun _ _ _ _ hf => hf).roster hs
  · intro s t c rest h hs hq hstep hclosing hfree
    by_contra hno
    have hkept : Sound True s t := step_sound True s t hstep fun c' rest' hq' hfrees _ => by
      rw [hq, List.cons.injEq] at hq'
      exact hno (freesClosing_names (hq'.1 ▸ hfrees))
    have hstill := hkept.closing trivial ((rosterInv_iff s).1 hs) h hclosing
    rw [hfree] at hstill
    cases hstill

/-- Settles O9: every operation leaves the parts of each entry in agreement with its state. -/
theorem partsKept : Obligations.PartsKept := by
  unfold Obligations.PartsKept
  intro s t hs hstep
  exact (step_sound False s t hstep fun _ _ _ _ hf => hf).parts hs

end Sys2Proof.Machine
end

section
/-! PROOFS. The state after reset, and the requests on one home: obligations O3, O55, O56 and O57. -/

namespace Sys2Proof.Machine

/-! ### The state after reset (R46, R160, R187, R188) -/

/-- The reset state is what the reset pin makes of it. -/
theorem reset_eq_powerOn : State.reset = State.reset.powerOn 0 := rfl

theorem reset_entry (h : Nat) : State.reset.entry h = Entry.free := powerOn_entry State.reset 0 h

theorem reset_acct (h : Nat) : State.reset.acct h = none := powerOn_acct State.reset 0 h

theorem reset_booked : BookedInv State.reset := by
  have hterms : (handles.map fun h => (State.reset.entry h).bookedTerm) = handles.map fun _ => 0 :=
    List.map_congr_left fun h _ => by rw [reset_entry]; rfl
  refine ⟨?_, Nat.le_refl _⟩
  rw [hterms, List.map_const', List.sum_replicate]
  rfl

theorem reset_hunt : HuntInv State.reset := by
  refine ⟨fun _ => ⟨fun h => ?_, rfl, rfl, rfl⟩, fun hrole => absurd rfl hrole, rfl, List.Pairwise.nil, Nat.zero_le _,
    fun p hp => ?_⟩
  · rw [reset_entry]
    rfl
  · have hno : p ∈ ([] : List Position) := hp
    cases hno

/-- Settles O3: after reset every entry is FREE and every list empty. -/
theorem resetMeetsInvariants : Obligations.ResetMeetsInvariants := by
  unfold Obligations.ResetMeetsInvariants
  refine ⟨?_, ?_, reset_booked, reset_hunt, fun h a ha => ?_, ?_, fun img hi => ?_, rfl, fun h =>
    ⟨reset_entry h, reset_acct h⟩⟩
  · refine ⟨Nat.zero_le _, rfl, Nat.zero_le _, Nat.zero_le _, Nat.zero_le _, Nat.zero_le _, fun h => ?_⟩
    rw [reset_entry]
    exact free_counted
  · rw [reset_eq_powerOn, rosterInv_iff]
    exact powerOn_roster State.reset 0
  · rw [reset_acct] at ha
    cases ha
  · rw [reset_eq_powerOn]
    exact powerOn_parts State.reset 0
  · have hno : (none : Option Image) = some img := hi
    cases hno

/-! ### Data bytes of the requests on a home (R180) -/

theorem readSerial_write (serial : Serial) : readSerial (writeSerial serial) = some serial := by
  have hserial := serialAt_write serial []
  rw [List.append_nil] at hserial
  unfold readSerial writeSerial
  rw [if_pos (beBytes_length 8 _), hserial]

/-- A byte is read back. -/
theorem beNat_byte (x : Nat) (hx : x < 256) : beNat (beBytes 1 x) = x := by
  rw [beNat_beBytes]
  exact Nat.mod_eq_of_lt (by simpa using hx)

theorem readSerialByte_write (serial : Serial) (b : Nat) (hb : b < 256) :
    readSerialByte (writeSerialByte serial b) = some (serial, b) := by
  unfold readSerialByte writeSerialByte
  rw [if_pos (by simp [beBytes_length]), serialAt_write, bytesAt_end _ _ 8 1 (beBytes_length 8 _) (beBytes_length 1 _),
    beNat_byte b hb]

theorem readHold_write (serial : Serial) (code : Nat) (set : Bool) (hc : code < 256) :
    readHold (writeHold serial code set) = some (serial, code, BitVec.ofNat 8 set.toNat) := by
  have hset : set.toNat < 256 := Nat.lt_of_lt_of_le (Bool.toNat_lt set) (by decide)
  unfold readHold writeHold
  rw [if_pos (by simp [beBytes_length]), bytesAt_end _ _ 9 1 (by simp [beBytes_length]) (beBytes_length 1 _),
    beNat_byte _ hset, List.append_assoc, serialAt_write, bytesAt_mid _ _ _ 8 1 (beBytes_length 8 _) (beBytes_length 1 _),
    beNat_byte code hc]

theorem readByte_write (b : Nat) (hb : b < 256) : readByte (writeByte b) = some (BitVec.ofNat 8 b) := by
  have hread := bytesAt_end [] (beBytes 1 b) 0 1 rfl (beBytes_length 1 b)
  unfold readByte writeByte
  rw [if_pos (beBytes_length 1 b), ← List.nil_append (beBytes 1 b), hread, beNat_byte b hb]

/-! ### The answer of a request that is taken (R179, R180) -/

theorem queueResult_pushEvent (s : State) (kind : RequestKind) (hd : RequestHeader) (e : Event) (code : ResultCode)
    (data : ResultData) :
    queueResult kind hd (s.pushEvent e, code, data) = (queueResult kind hd (s, code, data)).pushEvent e := by
  unfold queueResult State.pushEvent
  dsimp only
  split <;> rfl

theorem queueResult_enterClosing (s : State) (kind : RequestKind) (hd : RequestHeader) (h : Nat) (record : RecordKind)
    (release : Bool) :
    queueResult kind hd (s.lineHeard.enterClosing h record release).done =
      (s.withResult kind hd .ok .nothing).enterClosing h record release := rfl

theorem queueResult_release (s : State) (kind : RequestKind) (hd : RequestHeader) (h : Nat) (reason : ReleaseReason)
    (release : Bool) :
    queueResult kind hd (s.lineHeard.release h reason release).done =
      ((s.withResult kind hd .ok .nothing).enterClosing h (.released reason) release).pushEvent
        (.homeReleased (s.entry h).serial h reason) :=
  (queueResult_pushEvent _ kind hd _ .ok .nothing).trans (congrArg (State.pushEvent · _)
    (queueResult_enterClosing s kind hd h _ release))

theorem onHome_none (s : State) (serial : Serial) (act : Nat → Answer) (hf : s.find serial = none) :
    s.lineHeard.onHome serial act = s.lineHeard.refusedWith .unknownHome := by
  have hheard : s.lineHeard.find serial = none := hf
  unfold State.onHome
  rw [hheard]

theorem onHome_some (s : State) (serial : Serial) (act : Nat → Answer) (h : Nat) (hf : s.find serial = some h) :
    s.lineHeard.onHome serial act = act h := by
  have hheard : s.lineHeard.find serial = some h := hf
  unfold State.onHome
  rw [hheard]

/-- The next state of a request that is taken, once the answer is known. -/
theorem offered_of_answer {t u : State} {kind : RequestKind} {hd : RequestHeader} {a b : Answer}
    (ht : t = (queueResult kind hd a).settle) (hab : a = b) (hu : queueResult kind hd b = u) : Offered u t := by
  subst hab hu ht
  exact settle_offered _

/-! ### REMOVE (R42, R43) -/

theorem settable_iff (st : HomeState) : st.settable = true ↔ st = .active ∨ st = .lost := by
  cases st <;> decide

/-- Settles O55: REMOVE answers by the state of the entry, and closes an ACTIVE or LOST one. -/
theorem removeCloses : Obligations.RemoveCloses := by
  unfold Obligations.RemoveCloses
  intro s hd serial htakes
  refine ⟨_, request_takes _ hd _ _ s htakes serial (readSerial_write serial), fun hf => ?_, fun h hf => ⟨fun ha hl => ?_,
    fun hs => ?_⟩⟩
  · exact offered_of_answer rfl (onHome_none s serial _ hf) rfl
  · have hno : ¬(s.lineHeard.entry h).state.settable = true := fun hh => ((settable_iff _).1 hh).elim ha hl
    refine offered_of_answer rfl ((onHome_some s serial _ h hf).trans (if_neg hno)) rfl
  · have hyes : (s.lineHeard.entry h).state.settable = true := (settable_iff _).2 hs
    obtain ⟨-, hserial, -⟩ := find_sound s serial h hf
    rw [← hserial]
    exact offered_of_answer rfl ((onHome_some s serial _ h hf).trans (if_pos hyes)) (queueResult_release s .remove hd h _ true)

/-! ### HOLD and CLEAR_HOLD (R29) -/

theorem holdRequest_allowed (s : State) (serial : Serial) (code : Nat) (flag : Byte)
    (ha : holdAllowed code (readFlag flag) = true) :
    s.holdRequest serial code flag = s.onHome serial (s.holdAt code (readFlag flag = .set)) := if_pos ha

/-- A hold the request may not change, of a home on the roster: RANGE whichever check comes first (log entry 12). -/
theorem holdRequest_range (s : State) (serial : Serial) (code : Nat) (flag : Byte) (h : Nat)
    (ha : holdAllowed code (readFlag flag) = false) (hf : s.find serial = some h) :
    s.lineHeard.holdRequest serial code flag = s.lineHeard.refusedWith .range := by
  unfold State.holdRequest
  rw [if_neg (by rw [ha]; decide), onHome_some s serial _ h hf, ite_self]

/-- Settles O56: the change a hold request may make, and what it answers otherwise. -/
theorem holdsChanged : Obligations.HoldsChanged := by
  unfold Obligations.HoldsChanged
  intro s hd serial code htakes hcode
  have hset : readFlag (BitVec.ofNat 8 true.toNat) = .set := rfl
  have hclear : readFlag (BitVec.ofNat 8 false.toNat) = .clear := rfl
  constructor
  · refine ⟨_, request_takes _ hd _ _ s htakes _ (readHold_write serial code true hcode), fun hc hf => ?_, fun h hf =>
      ⟨fun hc => ?_, fun hc => ?_⟩⟩
    · subst hc
      exact offered_of_answer rfl ((holdRequest_allowed _ _ _ _ rfl).trans (onHome_none s serial _ hf)) rfl
    · refine offered_of_answer rfl (holdRequest_range s serial code _ h ?_ hf) rfl
      rw [hset]
      exact decide_eq_false hc
    · subst hc
      exact offered_of_answer rfl ((holdRequest_allowed _ _ _ _ rfl).trans (onHome_some s serial _ h hf)) rfl
  · refine ⟨_, request_takes _ hd _ _ s htakes _ (readHold_write serial code false hcode), fun hc hf => ?_, fun h hf =>
      ⟨fun hr hm => ?_, fun hc => ?_, fun hc => ?_⟩⟩
    · refine offered_of_answer rfl ((holdRequest_allowed _ _ _ _ ?_).trans (onHome_none s serial _ hf)) rfl
      rcases hc with rfl | rfl <;> rfl
    · refine offered_of_answer rfl (holdRequest_range s serial code _ h ?_ hf) rfl
      rw [hclear]
      simp [holdAllowed, hr, hm]
    · subst hc
      exact offered_of_answer rfl ((holdRequest_allowed _ _ _ _ rfl).trans (onHome_some s serial _ h hf)) rfl
    · subst hc
      exact offered_of_answer rfl ((holdRequest_allowed _ _ _ _ rfl).trans (onHome_some s serial _ h hf)) rfl

/-! ### QUERY_HOME and LIST_HOMES (R181) -/

/-- The answer to QUERY_HOME. -/
def State.queryAnswer (s : State) (serial : Serial) (part : Nat) : Answer :=
  if part < 4 then s.onHome serial fun h => (s, .ok, s.queryPart part h)
  else if Config.rangeFirst true then s.refusedWith .range
  else s.onHome serial fun _ => s.refusedWith .range

theorem execQueryHome_eq (hd : RequestHeader) (d : List Byte) (s : State) :
    execQueryHome hd d s = request .queryHome hd (readSerialByte d) (fun a t => t.queryAnswer a.1 a.2) s := rfl

theorem queryAnswer_part (s : State) (serial : Serial) (part h : Nat) (hp : part < 4) (hf : s.find serial = some h) :
    s.lineHeard.queryAnswer serial part = (s.lineHeard, .ok, s.queryPart part h) :=
  (if_pos hp).trans (onHome_some s serial _ h hf)

theorem queryHome_answered (s : State) (hd : RequestHeader) (htakes : s.takes hd) (serial : Serial) (part : Nat)
    (hpart : part < 256) : ∃ t, exec (.queryHome hd (writeSerialByte serial part)) s = .next t ∧
      (part < 4 → s.find serial = none → Offered (s.withResult .queryHome hd .unknownHome .nothing) t) ∧
      ∀ h, s.find serial = some h →
        (4 ≤ part → Offered (s.withResult .queryHome hd .range .nothing) t) ∧
        (part < 4 → Offered (s.withResult .queryHome hd .ok (s.queryPart part h)) t) := by
  refine ⟨_, (execQueryHome_eq hd _ s).trans (request_takes _ hd _ _ s htakes _ (readSerialByte_write serial part hpart)),
    fun hp hf => ?_, fun h hf => ⟨fun hp => ?_, fun hp => ?_⟩⟩
  · exact offered_of_answer rfl ((if_pos hp).trans (onHome_none s serial _ hf)) rfl
  · refine offered_of_answer (b := s.lineHeard.refusedWith .range) rfl ?_ rfl
    unfold State.queryAnswer
    rw [if_neg (Nat.not_lt.2 hp), onHome_some s serial _ h hf, ite_self]
  · exact offered_of_answer rfl (queryAnswer_part s serial part h hp hf) rfl

/-- Nothing lies beyond the first five exactly where there are five at most (R181). -/
theorem drop_isEmpty {α : Type} (xs : List α) (n : Nat) : (xs.drop n).isEmpty = decide (xs.length ≤ n) := by
  rw [Bool.eq_iff_iff, List.isEmpty_iff, List.drop_eq_nil_iff, decide_eq_true_eq]

theorem homeList_eq (s : State) (start : Nat) : s.homeList start =
    .homes (((s.homesFrom start).take 5).map fun h => ((s.entry h).serial, (s.entry h).state))
      (if (s.homesFrom start).length ≤ 5 then 0 else ((s.homesFrom start).take 5).getLastD 0 + 1) := by
  unfold State.homeList
  dsimp only
  rw [drop_isEmpty]
  simp only [decide_eq_true_eq]

theorem listHomes_answered (s : State) (hd : RequestHeader) (htakes : s.takes hd) (start : Nat) (hstart : start < 256) :
    ∃ t, exec (.listHomes hd (writeByte start)) s = .next t ∧
      (64 < start → Offered (s.withResult .listHomes hd .range .nothing) t) ∧
      (start ≤ 64 → Offered (s.withResult .listHomes hd .ok (s.homeList (max 1 start))) t) := by
  have hbyte : (BitVec.ofNat 8 start).toNat = start := Nat.mod_eq_of_lt hstart
  refine ⟨_, request_takes _ hd _ _ s htakes _ (readByte_write start hstart), fun hs => ?_, fun hs => ?_⟩
  · exact offered_of_answer rfl (if_pos (by rw [hbyte]; exact hs)) rfl
  · refine offered_of_answer rfl (if_neg (by rw [hbyte]; exact Nat.not_lt.2 hs)) ?_
    rw [hbyte]
    rfl

/-- Settles O57: each part is read at the taking, and the list takes the first five homes from the handle on. -/
theorem queriesAnswered : Obligations.QueriesAnswered := by
  unfold Obligations.QueriesAnswered
  refine ⟨fun _ _ _ _ => ⟨rfl, rfl, rfl, rfl⟩, fun _ => ⟨rfl, rfl, rfl, rfl⟩, fun s hd htakes =>
    ⟨fun serial part hpart => ?_, fun start hstart => ?_⟩⟩
  · obtain ⟨t, hexec, hunknown, hhome⟩ := queryHome_answered s hd htakes serial part hpart
    refine ⟨t, hexec, hunknown, fun h hf => ?_⟩
    obtain ⟨hrange, htold⟩ := hhome h hf
    refine ⟨hrange, ?_, ?_, ?_, ?_⟩
    all_goals
      rintro rfl
      exact htold (by decide)
  · obtain ⟨t, hexec, hrange, hlist⟩ := listHomes_answered s hd htakes start hstart
    refine ⟨t, hexec, hrange, fun hs => ?_⟩
    have hlisted := hlist hs
    rw [homeList_eq] at hlisted
    exact hlisted

end Sys2Proof.Machine
end

section
/-! PROOFS. What notices, events and the line leave unseen by the homes and the alarms; alarms of two sources; and the return of a home from its move (R26, R37, R93, R192). -/

namespace Sys2Proof.Machine

/-! ### Notices, events and the line -/

/-- `t` is `s` as far as the homes and the alarms are read: only notices, events, results and the line differ. -/
structure NoticesOnly (s t : State) : Prop where
  roster : t.roster = s.roster
  lw : t.lw = s.lw
  ua : t.ua = s.ua
  um : t.um = s.um
  hu : t.hu = s.hu
  il : t.il = s.il
  alarms : t.rq.alarms = s.rq.alarms
  repeats : t.rq.repeats = s.rq.repeats
  reportSlot : t.slp.reportSlot = s.slp.reportSlot

section NoticesOnly
variable {s t u : State}

theorem NoticesOnly.refl (s : State) : NoticesOnly s s := ⟨rfl, rfl, rfl, rfl, rfl, rfl, rfl, rfl, rfl⟩

theorem NoticesOnly.trans (a : NoticesOnly s t) (b : NoticesOnly t u) : NoticesOnly s u :=
  ⟨b.roster.trans a.roster, b.lw.trans a.lw, b.ua.trans a.ua, b.um.trans a.um, b.hu.trans a.hu, b.il.trans a.il,
    b.alarms.trans a.alarms, b.repeats.trans a.repeats, b.reportSlot.trans a.reportSlot⟩

theorem lineHeard_noticesOnly (s : State) : NoticesOnly s s.lineHeard := ⟨rfl, rfl, rfl, rfl, rfl, rfl, rfl, rfl, rfl⟩

theorem withdraw_noticesOnly (s : State) (test : Notice → Bool) : NoticesOnly s (s.withdraw test) :=
  ⟨rfl, rfl, rfl, rfl, rfl, rfl, rfl, rfl, rfl⟩

theorem pushEvent_noticesOnly (s : State) (e : Event) : NoticesOnly s (s.pushEvent e) := by
  unfold State.pushEvent
  split <;> exact ⟨rfl, rfl, rfl, rfl, rfl, rfl, rfl, rfl, rfl⟩

theorem ownCarried_noticesOnly (s : State) : NoticesOnly s s.ownCarried := by
  unfold State.ownCarried
  dsimp only
  split
  · exact ⟨rfl, rfl, rfl, rfl, rfl, rfl, rfl, rfl, rfl⟩
  · refine NoticesOnly.trans ?_ (pushEvent_noticesOnly _ _)
    exact ⟨rfl, rfl, rfl, rfl, rfl, rfl, rfl, rfl, rfl⟩

theorem noticeCarried_noticesOnly (s : State) : NoticesOnly s s.noticeCarried := by
  refine NoticesOnly.trans ?_ (ownCarried_noticesOnly _)
  exact ⟨rfl, rfl, rfl, rfl, rfl, rfl, rfl, rfl, rfl⟩

theorem NoticesOnly.entry (x : NoticesOnly s t) (k : Nat) : t.entry k = s.entry k := entry_of_roster s t x.roster k

theorem NoticesOnly.acct (x : NoticesOnly s t) (k : Nat) : t.acct k = s.acct k := acct_of_um s t x.um k

theorem NoticesOnly.drift (x : NoticesOnly s t) (k : Nat) : t.drift k = s.drift k := drift_of_lw s t x.lw k

theorem NoticesOnly.img (x : NoticesOnly s t) : t.img = s.img := by
  unfold State.img
  rw [x.il]

theorem NoticesOnly.channel (x : NoticesOnly s t) : t.channel = s.channel := by
  unfold State.channel
  rw [x.img]

theorem NoticesOnly.draining (x : NoticesOnly s t) : t.draining = s.draining := by
  unfold State.draining
  rw [x.il]

theorem NoticesOnly.find (x : NoticesOnly s t) (serial : Serial) : t.find serial = s.find serial := by
  unfold State.find
  simp only [x.entry]

theorem NoticesOnly.others (x : NoticesOnly s t) (h : Nat) : OthersSame s t h :=
  fun k _ => ⟨x.entry k, x.acct k, x.drift k⟩

theorem OthersSame.trans {h : Nat} (a : OthersSame s t h) (b : OthersSame t u h) : OthersSame s u h := by
  intro k hk
  obtain ⟨e, c, d⟩ := a k hk
  obtain ⟨e', c', d'⟩ := b k hk
  exact ⟨e'.trans e, c'.trans c, d'.trans d⟩

theorem Offered.others (o : Offered s t) (h : Nat) : OthersSame s t h := fun k _ => ⟨o.entry k, o.acct k, o.drift k⟩

theorem HomeStep.others {h : Nat} (x : HomeStep s t h) : OthersSame s t h := x.1.1

/-- What stands of an alarm stands where the state after differs by notices alone. -/
theorem Alarmed.noticesAfter {a : AlarmSource} {c : AlarmContent} (x : Alarmed s t a c) (y : NoticesOnly t u) :
    Alarmed s u a c := by
  refine x.mono (fun p hp => ?_) fun f hf => y.reportSlot.trans hf
  unfold State.places at hp ⊢
  rw [y.reportSlot, y.alarms]
  exact hp

theorem Alarmed.noticesBefore {a : AlarmSource} {c : AlarmContent} (x : Alarmed t u a c) (y : NoticesOnly s t) :
    Alarmed s u a c := x.of_same y.il.symm y.reportSlot.symm y.alarms.symm

theorem DrainClosed.noticesAfter {h : Nat} {e : Entry} (x : DrainClosed s t h e) (y : NoticesOnly t u) :
    DrainClosed s u h e := by
  obtain ⟨he, ha, hu, hd, hr, hh, ho⟩ := x
  refine ⟨(y.entry h).trans he, (y.acct h).trans ha, y.ua.trans hu, (y.drift h).trans hd, ?_, y.hu.trans hh,
    ho.trans (y.others h)⟩
  rw [y.repeats]
  exact hr

theorem DrainClosed.noticesBefore {h : Nat} {e : Entry} (x : DrainClosed t u h e) (y : NoticesOnly s t) :
    DrainClosed s u h e :=
  x.of_step (by rw [y.entry]) y.um y.ua (by rw [y.drift]) y.hu (y.others h)

/-- An event raised is raised as far as only the event queue is read. -/
theorem Raised.of_events {s' t' : State} {e : Event} (x : Raised s t e) (hs : s'.rq.events = s.rq.events)
    (hd : s'.rq.dropped = s.rq.dropped) (ht : t'.rq.events = t.rq.events) (hd' : t'.rq.dropped = t.rq.dropped) :
    Raised s' t' e := by
  unfold Raised at x ⊢
  rw [hs, hd, ht, hd']
  exact x

theorem Raised.after {e : Event} (x : Raised s t e) (n : NoEvent t u) : Raised s u e := x.of_events rfl rfl n.1 n.2

theorem Raised.before {e : Event} (x : Raised t u e) (n : NoEvent s t) : Raised s u e :=
  x.of_events n.1.symm n.2.symm rfl rfl

end NoticesOnly

/-! ### Alarms of two sources (R183) -/

/-- From s to t nothing is told of this source: its place, in the slot or pending, is as it was. -/
structure SourceKept (a : AlarmSource) (s t : State) : Prop where
  image : t.il = s.il
  inSlot : t.slp.alarmInSlot a = s.slp.alarmInSlot a
  places : ∀ x, x.1 = a → (x ∈ t.places ↔ x ∈ s.places)
  slot : s.slp.alarmInSlot a = true → t.slp.reportSlot = s.slp.reportSlot

section SourceKept
variable {a : AlarmSource} {s t u : State}

theorem SourceKept.refl (s : State) : SourceKept a s s := ⟨rfl, rfl, fun _ _ => Iff.rfl, fun _ => rfl⟩

theorem SourceKept.trans (x : SourceKept a s t) (y : SourceKept a t u) : SourceKept a s u :=
  ⟨y.image.trans x.image, y.inSlot.trans x.inSlot, fun p hp => (y.places p hp).trans (x.places p hp),
    fun hs => (y.slot (x.inSlot.trans hs)).trans (x.slot hs)⟩

/-- A report placed at one source tells nothing of another. -/
theorem placeReport_sourceKept {b : AlarmSource} (hab : a ≠ b) (s : State) (c : AlarmContent) (r : Bool) :
    SourceKept a s (s.placeReport b c r) := by
  unfold State.placeReport
  split
  next hin =>
    cases hs : s.slp.reportSlot with
    | none => simp [LinePort.alarmInSlot, hs] at hin
    | some f =>
      rcases hb : f.body with ⟨p, l⟩ | ⟨e, m⟩
      · simp only [LinePort.alarmInSlot, hs, hb, decide_eq_true_eq] at hin
        have hout : s.slp.alarmInSlot a = false := by
          simp only [LinePort.alarmInSlot, hs, hb]
          exact decide_eq_false fun hh => hab (hh.symm.trans hin)
        refine ⟨rfl, ?_, fun x _ => ?_, fun hh => absurd (hh.symm.trans hout) (by decide)⟩
        · rw [hout]
          cases l <;>
          · simp only [LinePort.recordLater, LinePort.alarmInSlot, hs, hb]
            exact decide_eq_false fun hh => hab (hh.symm.trans hin)
        · cases l <;> simp [State.places, LinePort.recordLater, hs, hb, ReportFrame.alarm]
      · simp [LinePort.alarmInSlot, hs, hb] at hin
  next =>
    split
    next =>
      refine ⟨rfl, rfl, fun x hx => ?_, fun _ => rfl⟩
      simp only [State.places, List.map_append, List.mem_append, List.map_map]
      refine or_congr Iff.rfl ?_
      rw [List.mem_map, List.mem_map]
      constructor
      · rintro ⟨p, hp, rfl⟩
        dsimp only [Function.comp] at hx ⊢
        split at hx
        next hpb => exact absurd (hx.symm.trans hpb) hab
        next hpb => exact ⟨p, hp, (by rw [if_neg hpb])⟩
      · rintro ⟨p, hp, rfl⟩
        refine ⟨p, hp, ?_⟩
        dsimp only [Function.comp]
        rw [if_neg fun hpb : p.source = b => hab (hx.symm.trans hpb)]
    next =>
      refine ⟨rfl, rfl, fun x hx => ?_, fun _ => rfl⟩
      have hno : x ∉ [AlarmPlace.new b c r].map AlarmPlace.content4 := by
        rw [List.map_singleton, List.mem_singleton]
        rintro rfl
        exact hab hx.symm
      simp only [State.places, List.map_append, List.mem_append, hno, or_false]

theorem raiseAlarm_sourceKept {b : AlarmSource} (hab : a ≠ b) (s : State) (c : AlarmContent) :
    SourceKept a s (s.raiseAlarm b c) := by
  have hplaced := placeReport_sourceKept hab s c false
  unfold State.raiseAlarm
  split
  · exact .refl s
  · exact hplaced
  · dsimp only
    split
    · exact hplaced.trans ⟨rfl, rfl, fun _ _ => Iff.rfl, fun _ => rfl⟩
    · exact hplaced

theorem startCredit_sourceKept (s : State) (h : Nat) (hl : a ≠ { kind := .creditLow, handle := h })
    (he : a ≠ { kind := .creditExhausted, handle := h }) : SourceKept a s (s.startCredit h) := by
  unfold State.startCredit
  split
  · exact .refl s
  · split
    · exact .refl s
    · exact raiseAlarm_sourceKept hl _ _
    · exact raiseAlarm_sourceKept he _ _

theorem enterLost_sourceKept (s : State) (h : Nat) (hl : a ≠ { kind := .homeLost, handle := h }) :
    SourceKept a s (s.enterLost h) := by
  refine SourceKept.trans ?_ (raiseAlarm_sourceKept hl _ _)
  exact ⟨rfl, rfl, fun _ _ => Iff.rfl, fun _ => rfl⟩

theorem setDriftHold_sourceKept (s : State) (h : Nat) (hd : a ≠ { kind := .homeDrift, handle := h }) :
    SourceKept a s (s.setDriftHold h) := by
  refine SourceKept.trans ?_ (raiseAlarm_sourceKept hd _ _)
  exact ⟨rfl, rfl, fun _ _ => Iff.rfl, fun _ => rfl⟩

/-- A raised alarm stands while nothing is told of its source. -/
theorem Alarmed.kept {c : AlarmContent} (x : Alarmed s t a c) (y : SourceKept a t u) : Alarmed s u a c := by
  intro hm
  obtain ⟨hpend, hslot⟩ := x hm
  refine ⟨fun hi => ?_, fun hi => ?_⟩
  · obtain ⟨n, hn, hone⟩ := hpend hi
    exact ⟨n, (y.places _ rfl).2 hn, hone⟩
  · obtain ⟨f, p, l, hf, hb, hp, hl⟩ := hslot hi
    have hin : t.slp.alarmInSlot a = true := by
      simp only [LinePort.alarmInSlot, hf, hb]
      exact decide_eq_true hp
    exact ⟨f, p, l, (y.slot hin).trans hf, hb, hp, hl⟩

/-- A raising counts from where the source's place stood before. -/
theorem Alarmed.keptBefore {c : AlarmContent} (x : Alarmed t u a c) (y : SourceKept a s t) : Alarmed s u a c := by
  intro hm
  obtain ⟨hpend, hslot⟩ := x (by unfold State.img; rw [y.image]; exact hm)
  refine ⟨fun hi => ?_, fun hi => hslot (y.inSlot.trans hi)⟩
  obtain ⟨n, hn, hone⟩ := hpend (y.inSlot.trans hi)
  exact ⟨n, hn, fun hs => hone fun p hp hpa => hs p ((y.places p hpa).1 hp) hpa⟩

end SourceKept

/-! ### The loss of a home, from any state that differs at that home alone (R38, R192) -/

/-- A home lost outside DRAINING. -/
theorem loseHome_open (v : State) (h : Nat) (hh : 1 ≤ h ∧ h ≤ 64) (hd : v.draining = false) :
    (v.loseHome h).entry h = (v.entry h).toLost v.img.lostTime ∧
      (v.loseHome h).drift h = { v.drift h with phase := .off } ∧
      (v.loseHome h).acct h = v.acct h ∧ (v.loseHome h).ua = v.ua ∧ (v.loseHome h).hu = v.hu := by
  have hlose : v.loseHome h = v.enterLost h :=
    drainClose_stands _ h (by unfold State.draining; rw [enterLost_il]; exact hd)
  rw [hlose]
  refine ⟨?_, enterLost_drift v h hh, acct_of_um _ _ (by simp) h, by simp, by simp⟩
  rw [enterLost_entry, if_pos ⟨rfl, hh⟩]

/-- A home lost while DRAINING closes from LOST. -/
theorem loseHome_drained (v : State) (h : Nat) (hh : 1 ≤ h ∧ h ≤ 64) (hd : v.draining = true)
    (hb : (v.entry h).state.booked = true) :
    DrainClosed v (v.loseHome h) h ((v.entry h).toLost v.img.lostTime) := by
  have he : (v.enterLost h).entry h = (v.entry h).toLost v.img.lostTime := by
    rw [enterLost_entry, if_pos ⟨rfl, hh⟩]
  have hdr : (v.enterLost h).draining = true := by unfold State.draining; rw [enterLost_il]; exact hd
  have hclosed := drainClose_closed _ h hdr hh (.inr (by rw [he]; rfl))
  rw [he] at hclosed
  refine hclosed.of_step ?_ (by simp) (by simp) ?_ (by simp) (enterLost_homeStep v h).others
  · rw [he, toLost_bookedTerm _ _ hb]
  · rw [enterLost_drift _ h hh]

/-! ### The return from a move (R26, R37, R93, R192) -/

/-- The entry under the DRIFT hold, its idle count of the re-range at the entry's own (R93, R95). -/
def Entry.drifting (e : Entry) : Entry :=
  { e with holds := { e.holds with drift := true }, rangeAttempts := 0, reRangeIdle := e.idle }

theorem toActive_back (e : Entry) (hs : e.state = .leaving ∨ e.state = .tuning ∨ e.state = .taking) :
    e.toActive = e.back := by
  have hne : e.state ≠ .lost := by rcases hs with hs | hs | hs <;> rw [hs] <;> decide
  unfold Entry.toActive Entry.back
  rw [if_neg hne]

theorem back_toLost (e : Entry) (n : Nat) : e.back.toLost n = e.back.gone n := rfl

theorem back_drifting_toLost (e : Entry) (n : Nat) : e.back.drifting.toLost n = e.back.gone n := rfl

section Return
variable (s : State) (h : Nat)

/-- The state as the move's end leaves the entry, before the checks of its counts. -/
def State.backAt : State := s.setEntry h (s.entry h).back

/-- Under the DRIFT hold besides (R93). -/
def State.driftAt : State := (s.backAt h).setDriftHold h

theorem backAt_entry (hh : 1 ≤ h ∧ h ≤ 64) : (s.backAt h).entry h = (s.entry h).back := entry_setEntry_self s h _ hh

theorem driftAt_entry (hh : 1 ≤ h ∧ h ≤ 64) : (s.driftAt h).entry h = (s.entry h).back.drifting := by
  unfold State.driftAt
  rw [setDriftHold_entry _ _ hh, backAt_entry s h hh]
  rfl

theorem driftAt_drift (hh : 1 ≤ h ∧ h ≤ 64) : (s.driftAt h).drift h = { s.drift h with phase := .seeking } := setDriftHold_drift (s.backAt h) h hh

theorem backAt_homeStep : HomeStep s (s.backAt h) h := setEntry_homeStep s h _

theorem driftAt_homeStep : HomeStep s (s.driftAt h) h := (backAt_homeStep s h).trans (setDriftHold_homeStep _ h)

theorem driftAt_fields : (s.driftAt h).um = s.um ∧ (s.driftAt h).ua = s.ua ∧ (s.driftAt h).hu = s.hu ∧
    (s.driftAt h).il = s.il := by
  have hreports := raiseAlarm_reportsOnly (((s.backAt h).setEntry h ((s.backAt h).entry h).drifting).setPhase h .seeking)
    { kind := .homeDrift, handle := h }
    (.homeDrift ((s.backAt h).entry h).serial h (((s.backAt h).drift h).tripOffset.getD 0))
  exact ⟨hreports.um, hreports.ua, hreports.hu, hreports.il⟩

/-- The return goes by the two counts; where both fall together the order is free, and either way the home is lost. -/
theorem returnActive_cases (hs : (s.entry h).state = .leaving ∨ (s.entry h).state = .tuning) :
    ((s.entry h).missed < 8 ∧ (s.entry h).misplaced < 3 ∧ s.returnActive h = (s.backAt h).drainClose h) ∨
    ((s.entry h).missed < 8 ∧ 3 ≤ (s.entry h).misplaced ∧ s.returnActive h = (s.driftAt h).drainClose h) ∨
    (8 ≤ (s.entry h).missed ∧ ∃ n, s.returnActive h = { (s.backAt h).loseHome h with choices := n }) ∨
    (8 ≤ (s.entry h).missed ∧ 3 ≤ (s.entry h).misplaced ∧
      ∃ n, s.returnActive h = { (s.driftAt h).loseHome h with choices := n }) := by
  have hback : s.setEntry h (s.entry h).toActive = s.backAt h := by
    unfold State.backAt
    rw [toActive_back _ (hs.imp_right .inl)]
  unfold State.returnActive
  dsimp only
  rw [hback]
  split_ifs with hmiss hmis hmis hc
  · exact .inl ⟨hmiss, hmis, rfl⟩
  · exact .inr (.inl ⟨hmiss, Nat.not_lt.1 hmis, rfl⟩)
  · exact .inr (.inr (.inl ⟨Nat.not_lt.1 hmiss, _, rfl⟩))
  · exact .inr (.inr (.inl ⟨Nat.not_lt.1 hmiss, _, rfl⟩))
  · exact .inr (.inr (.inr ⟨Nat.not_lt.1 hmiss, Nat.not_lt.1 hmis, _, rfl⟩))

theorem backByCounts_back {e : Entry} {n : Nat} (hm : e.missed < 8) (hp : e.misplaced < 3) : e.backByCounts n = e.back :=
  (if_neg (Nat.not_le.2 hm)).trans (if_neg (Nat.not_le.2 hp))

theorem backByCounts_drifting {e : Entry} {n : Nat} (hm : e.missed < 8) (hp : 3 ≤ e.misplaced) :
    e.backByCounts n = e.back.drifting := (if_neg (Nat.not_le.2 hm)).trans (if_pos hp)

theorem backByCounts_gone {e : Entry} {n : Nat} (hm : 8 ≤ e.missed) : e.backByCounts n = e.back.gone n := if_pos hm

/-- The booked term is the same on every side of the return (R82). -/
theorem back_bookedTerm (e : Entry) (hb : e.state.booked = true) : e.back.bookedTerm = e.bookedTerm := by
  unfold Entry.bookedTerm Entry.back
  rw [hb]
  rfl

/-- Outside DRAINING the home is back as its counts say. -/
theorem returnActive_open (hs : (s.entry h).state = .leaving ∨ (s.entry h).state = .tuning) (hd : s.draining = false) :
    (s.returnActive h).entry h = (s.entry h).backByCounts s.img.lostTime ∧
      (s.returnActive h).drift h = { s.drift h with
        phase := if 8 ≤ (s.entry h).missed then .off else if 3 ≤ (s.entry h).misplaced then .seeking
          else (s.drift h).phase } ∧
      (s.returnActive h).acct h = s.acct h ∧ (s.returnActive h).ua = s.ua ∧ (s.returnActive h).hu = s.hu := by
  have hh := handle_of_state s h (by rcases hs with hs | hs <;> rw [hs] <;> decide)
  obtain ⟨hum, hua, hhu, hil⟩ := driftAt_fields s h
  have hdrift : (s.driftAt h).draining = false := by unfold State.draining; rw [hil]; exact hd
  rcases returnActive_cases s h hs with ⟨hm, hp, heq⟩ | ⟨hm, hp, heq⟩ | ⟨hm, n, heq⟩ | ⟨hm, hp, n, heq⟩
  · rw [heq, drainClose_stands (s.backAt h) h hd, backAt_entry s h hh, backByCounts_back hm hp,
      if_neg (Nat.not_le.2 hm), if_neg (Nat.not_le.2 hp)]
    exact ⟨rfl, rfl, rfl, rfl, rfl⟩
  · rw [heq, drainClose_stands (s.driftAt h) h hdrift, driftAt_entry s h hh, driftAt_drift s h hh,
      backByCounts_drifting hm hp, if_neg (Nat.not_le.2 hm), if_pos hp, hua, hhu, acct_of_um _ _ hum h]
    exact ⟨rfl, rfl, rfl, rfl, rfl⟩
  · obtain ⟨he, hdr, ha, hu, hhu'⟩ := loseHome_open (s.backAt h) h hh hd
    rw [backAt_entry s h hh, back_toLost] at he
    rw [heq, backByCounts_gone hm, if_pos hm]
    exact ⟨he, hdr, ha, hu, hhu'⟩
  · obtain ⟨he, hdr, ha, hu, hhu'⟩ := loseHome_open (s.driftAt h) h hh hdrift
    have himg : (s.driftAt h).img = s.img := by unfold State.img; rw [hil]
    rw [driftAt_entry s h hh, back_drifting_toLost, himg] at he
    rw [driftAt_drift s h hh] at hdr
    rw [heq, backByCounts_gone hm, if_pos hm]
    exact ⟨he, hdr, ha.trans (acct_of_um _ _ hum h), hu.trans hua, hhu'.trans hhu⟩

/-- While DRAINING the home, back as its counts say, closes. -/
theorem returnActive_drained (hs : (s.entry h).state = .leaving ∨ (s.entry h).state = .tuning) (hd : s.draining = true) :
    DrainClosed s (s.returnActive h) h ((s.entry h).backByCounts s.img.lostTime) := by
  have hh := handle_of_state s h (by rcases hs with hs | hs <;> rw [hs] <;> decide)
  have hb : (s.entry h).state.booked = true := by rcases hs with hs | hs <;> rw [hs] <;> rfl
  obtain ⟨hum, hua, hhu, hil⟩ := driftAt_fields s h
  have hdrift : (s.driftAt h).draining = true := by unfold State.draining; rw [hil]; exact hd
  have hbackEntry := backAt_entry s h hh
  have hdriftEntry := driftAt_entry s h hh
  have hterm : ((s.backAt h).entry h).bookedTerm = (s.entry h).bookedTerm := by rw [hbackEntry, back_bookedTerm _ hb]
  have hterm' : ((s.driftAt h).entry h).bookedTerm = (s.entry h).bookedTerm := by
    rw [hdriftEntry]
    exact back_bookedTerm _ hb
  have hphase : { (s.driftAt h).drift h with phase := .off } = { s.drift h with phase := .off } := by
    rw [driftAt_drift s h hh]
  rcases returnActive_cases s h hs with ⟨hm, hp, heq⟩ | ⟨hm, hp, heq⟩ | ⟨hm, n, heq⟩ | ⟨hm, hp, n, heq⟩
  · have hclosed := drainClose_closed (s.backAt h) h hd hh (.inl (by rw [hbackEntry]; rfl))
    rw [heq, backByCounts_back hm hp, ← hbackEntry]
    exact hclosed.of_step hterm rfl rfl rfl rfl (backAt_homeStep s h).others
  · have hclosed := drainClose_closed (s.driftAt h) h hdrift hh (.inl (by rw [hdriftEntry]; rfl))
    rw [heq, backByCounts_drifting hm hp, ← hdriftEntry]
    exact hclosed.of_step hterm' hum hua hphase hhu (driftAt_homeStep s h).others
  · have hclosed := loseHome_drained (s.backAt h) h hh hd (by rw [hbackEntry]; rfl)
    rw [hbackEntry, back_toLost] at hclosed
    rw [heq, backByCounts_gone hm]
    exact hclosed.of_step hterm rfl rfl rfl rfl (backAt_homeStep s h).others
  · have hclosed := loseHome_drained (s.driftAt h) h hh hdrift (by rw [hdriftEntry]; rfl)
    have himg : (s.driftAt h).img = s.img := by unfold State.img; rw [hil]
    rw [hdriftEntry, back_drifting_toLost, himg] at hclosed
    rw [heq, backByCounts_gone hm]
    exact hclosed.of_step hterm' hum hua hphase hhu (driftAt_homeStep s h).others

/-- With three misplaced bursts HOME_DRIFT is raised (R93). -/
theorem returnActive_driftAlarm (hs : (s.entry h).state = .leaving ∨ (s.entry h).state = .tuning)
    (hm : (s.entry h).missed < 8) (hp : 3 ≤ (s.entry h).misplaced) :
    Alarmed s (s.returnActive h) { kind := .homeDrift, handle := h }
      (.homeDrift (s.entry h).serial h ((s.drift h).tripOffset.getD 0)) := by
  have hh := handle_of_state s h (by rcases hs with hs | hs <;> rw [hs] <;> decide)
  have hraised := (setDriftHold_alarmed (s.backAt h) h).drainClosed h
  rw [backAt_entry s h hh] at hraised
  rcases returnActive_cases s h hs with ⟨-, hno, -⟩ | ⟨-, -, heq⟩ | ⟨hno, -⟩ | ⟨hno, -⟩
  · exact absurd hp (Nat.not_le.2 hno)
  · rw [heq]
    exact hraised.of_same rfl rfl rfl
  · exact absurd hno (Nat.not_le.2 hm)
  · exact absurd hno (Nat.not_le.2 hm)

/-- With eight missed windows HOME_LOST is raised (R37, R38). -/
theorem returnActive_lostAlarm (hs : (s.entry h).state = .leaving ∨ (s.entry h).state = .tuning)
    (hm : 8 ≤ (s.entry h).missed) :
    Alarmed s (s.returnActive h) { kind := .homeLost, handle := h } (.homeLost (s.entry h).serial) := by
  have hh := handle_of_state s h (by rcases hs with hs | hs <;> rw [hs] <;> decide)
  rcases returnActive_cases s h hs with ⟨hno, -⟩ | ⟨hno, -⟩ | ⟨-, n, heq⟩ | ⟨-, -, n, heq⟩
  · exact absurd hm (Nat.not_le.2 hno)
  · exact absurd hm (Nat.not_le.2 hno)
  · have hraised := loseHome_alarmed (s.backAt h) h
    rw [backAt_entry s h hh] at hraised
    rw [heq]
    exact hraised.of_same rfl rfl rfl
  · have hraised := loseHome_alarmed (s.driftAt h) h
    rw [driftAt_entry s h hh] at hraised
    have hkept : SourceKept { kind := .homeLost, handle := h } s (s.driftAt h) :=
      SourceKept.trans (t := s.backAt h) ⟨rfl, rfl, fun _ _ => Iff.rfl, fun _ => rfl⟩
        (setDriftHold_sourceKept _ h (by intro hh; cases hh))
    rw [heq]
    exact hraised.keptBefore hkept

theorem returnActive_homeStep (hs : (s.entry h).state = .leaving ∨ (s.entry h).state = .tuning) :
    HomeStep s (s.returnActive h) h := by
  rcases returnActive_cases s h hs with ⟨-, -, heq⟩ | ⟨-, -, heq⟩ | ⟨-, n, heq⟩ | ⟨-, -, n, heq⟩ <;> rw [heq]
  · exact (backAt_homeStep s h).trans (drainClose_homeStep _ h)
  · exact (driftAt_homeStep s h).trans (drainClose_homeStep _ h)
  · exact (backAt_homeStep s h).trans (loseHome_homeStep _ h)
  · exact (driftAt_homeStep s h).trans (loseHome_homeStep _ h)

/-- A home back from its move, as the statements say it. -/
theorem returnActive_returned (hs : (s.entry h).state = .leaving ∨ (s.entry h).state = .tuning) :
    Returned s (s.returnActive h) h := by
  refine ⟨fun hd => ?_, returnActive_drained s h hs, returnActive_driftAlarm s h hs, returnActive_lostAlarm s h hs⟩
  obtain ⟨he, hdr, ha, hu, hhu⟩ := returnActive_open s h hs hd
  exact ⟨he, hdr, ha, hu, hhu, (returnActive_homeStep s h hs).others⟩

end Return

section Returned
variable {s t u : State} {h : Nat}

theorem Returned.offered (x : Returned s t h) (o : Offered t u) : Returned s u h := by
  obtain ⟨hopen, hclosed, hdrift, hlost⟩ := x
  refine ⟨fun hd => ?_, fun hd => (hclosed hd).offered o, fun hm hp => (hdrift hm hp).offered o,
    fun hm => (hlost hm).offered o⟩
  obtain ⟨he, hdr, ha, hu, hhu, ho⟩ := hopen hd
  exact ⟨(o.entry h).trans he, (o.drift h).trans hdr, (o.acct h).trans ha, o.ua.trans hu, o.hu.trans hhu,
    ho.trans (o.others h)⟩

theorem Returned.noticesAfter (x : Returned s t h) (y : NoticesOnly t u) : Returned s u h := by
  obtain ⟨hopen, hclosed, hdrift, hlost⟩ := x
  refine ⟨fun hd => ?_, fun hd => (hclosed hd).noticesAfter y, fun hm hp => (hdrift hm hp).noticesAfter y,
    fun hm => (hlost hm).noticesAfter y⟩
  obtain ⟨he, hdr, ha, hu, hhu, ho⟩ := hopen hd
  exact ⟨(y.entry h).trans he, (y.drift h).trans hdr, (y.acct h).trans ha, y.ua.trans hu, y.hu.trans hhu,
    ho.trans (y.others h)⟩

theorem Returned.noticesBefore (x : Returned t u h) (y : NoticesOnly s t) : Returned s u h := by
  unfold Returned at x ⊢
  rw [y.entry, y.img, y.drift, y.draining, y.acct, y.ua, y.hu] at x
  obtain ⟨hopen, hclosed, hdrift, hlost⟩ := x
  refine ⟨fun hd => ?_, fun hd => (hclosed hd).noticesBefore y, fun hm hp => (hdrift hm hp).noticesBefore y,
    fun hm => (hlost hm).noticesBefore y⟩
  obtain ⟨he, hdr, ha, hu, hhu, ho⟩ := hopen hd
  exact ⟨he, hdr, ha, hu, hhu, (y.others h).trans ho⟩

end Returned

end Sys2Proof.Machine
end

section
/-! PROOFS. TAKEN and the ends of messages: obligations O32 and O46. -/

namespace Sys2Proof.Machine

/-! ### A carried notice (R174) -/

/-- Another station's notice reaches the blocks, and the frames are offered. -/
theorem hearNotice_other (st : Station) (n : Notice) (act : State → State) (s : State) (hr : s.resetHeld = false) :
    hearNotice (.other st) n act s = .next (act s.lineHeard).settle := if_neg (by rw [hr]; decide)

theorem sending_of_slot {s : State} {n : Notice} {w : Bool} (ht : s.slp.transmitting = some .notice)
    (hn : s.slp.noticeSlot = some { notice := n, withdrawn := w }) : s.sending n = true := by
  unfold State.sending
  rw [ht, hn]
  simp

/-- The own notice in transmission reaches the blocks, withdrawn or not. -/
theorem hearNotice_own (n : Notice) (act : State → State) (s : State) (hr : s.resetHeld = false)
    (hs : s.sending n = true) : hearNotice .own n act s = .next (act s.noticeCarried).settle :=
  (if_neg (by rw [hr]; decide)).trans (if_pos hs)

theorem State.transmits.sending {s : State} {n : Notice} (h : s.transmits n) : s.sending n = true := sending_of_slot h.1 h.2

/-- With no detachment to report, the carriage of an own notice clears its slot and the line's count (R174, R178). -/
theorem noticeCarried_attached (s : State) (hspan : s.slp.detachSpan = none) :
    s.noticeCarried = { s with
      slp := { s.slp with noticeSlot := none, transmitting := none, voidCount := 0, detachSpan := none }
      ports := { s.ports with voidDriven := false } } := by
  unfold State.noticeCarried State.ownCarried
  dsimp only
  rw [hspan]

theorem noticeCarried_noEvent (s : State) (hspan : s.slp.detachSpan = none) : NoEvent s s.noticeCarried := by
  rw [noticeCarried_attached s hspan]
  exact ⟨rfl, rfl⟩

/-- The carried notice was the oldest of its producer's. -/
theorem noticeCarried_outgoing (s : State) (n : Notice) (w : Bool) (hspan : s.slp.detachSpan = none)
    (hn : s.slp.noticeSlot = some { notice := n, withdrawn := w }) :
    s.noticeCarried.outgoing n.producer = (s.outgoing n.producer).tail := by
  rw [noticeCarried_attached s hspan]
  simp [State.outgoing, hn, LinePort.queue]

/-- Events are no notices. -/
theorem pushEvent_outgoing (s : State) (e : Event) (who : Producer) : (s.pushEvent e).outgoing who = s.outgoing who := by
  unfold State.outgoing
  rw [pushEvent_slp]

theorem drainClose_outgoing (s : State) (h : Nat) (who : Producer) : (s.drainClose h).outgoing who = s.outgoing who := by
  unfold State.outgoing
  rw [drainClose_slp]

/-! ### TAKEN (R26, R134, R135, R140, R192) -/

/-- The state as the own TAKEN leaves the entry, before any close: ACTIVE, its account at a fresh period (R134). -/
def State.arrivedAt (s : State) (h : Nat) : State :=
  ((s.setEntry h (s.entry h).back).setAcct h ((s.acct h).map Account.freshPeriod)).startCredit h

theorem takenCarried_arrives (s : State) (serial : Serial) (h : Nat) (hf : s.find serial = some h)
    (hs : (s.entry h).state = .taking) :
    s.takenCarried serial =
      ((s.arrivedAt h).pushEvent (.homeMoved serial (s.entry h).peer s.channel (some h) .arrived)).drainClose h := by
  unfold State.takenCarried State.arrivedAt
  rw [hf, ← toActive_back _ (.inr (.inr hs))]
  exact if_pos hs

section Arrival
variable (s : State) (h : Nat)

theorem arrivedAt_reports : ReportsOnly ((s.setEntry h (s.entry h).back).setAcct h ((s.acct h).map Account.freshPeriod))
    (s.arrivedAt h) := startCredit_reportsOnly _ h

theorem arrivedAt_homeStep : HomeStep s (s.arrivedAt h) h :=
  ((setEntry_homeStep ..).trans (setAcct_homeStep ..)).trans ((arrivedAt_reports s h).homeStep h)

theorem arrivedAt_entry (hh : 1 ≤ h ∧ h ≤ 64) : (s.arrivedAt h).entry h = (s.entry h).back :=
  ((arrivedAt_reports s h).entry h).trans (entry_setEntry_self s h _ hh)

theorem arrivedAt_acct (hh : 1 ≤ h ∧ h ≤ 64) : (s.arrivedAt h).acct h = (s.acct h).map Account.freshPeriod := by
  rw [(arrivedAt_reports s h).acct h, acct_setAcct, if_pos ⟨rfl, hh⟩]

theorem arrivedAt_outgoing (who : Producer) : (s.arrivedAt h).outgoing who = s.outgoing who :=
  (arrivedAt_reports s h).outgoing who

/-- What the arrival of a TAKING home leaves while no draining closes it (R134). -/
theorem takenCarried_open (serial : Serial) (hf : s.find serial = some h) (hs : (s.entry h).state = .taking)
    (hd : s.draining = false) :
    s.takenCarried serial = (s.arrivedAt h).pushEvent (.homeMoved serial (s.entry h).peer s.channel (some h) .arrived) := by
  have hil : (s.arrivedAt h).il = s.il := (arrivedAt_reports s h).il
  rw [takenCarried_arrives s serial h hf hs]
  refine drainClose_stands _ h ?_
  unfold State.draining
  rw [pushEvent_il, hil]
  exact hd

/-- While DRAINING the home that has arrived closes (R140, R192). -/
theorem takenCarried_drained (serial : Serial) (hf : s.find serial = some h) (hs : (s.entry h).state = .taking)
    (hd : s.draining = true) :
    DrainClosed (s.setAcct h ((s.acct h).map Account.freshPeriod)) (s.takenCarried serial) h (s.entry h).back := by
  have hh := handle_of_state s h (by rw [hs]; decide)
  have hmoved := pushEvent_noticesOnly (s.arrivedAt h) (.homeMoved serial (s.entry h).peer s.channel (some h) .arrived)
  have hentry := (hmoved.entry h).trans (arrivedAt_entry s h hh)
  have hdrain := hmoved.draining.trans ((congrArg (fun il : ImageLoader => decide (il.startup = .draining))
    (arrivedAt_reports s h).il).trans hd)
  have hclosed := drainClose_closed _ h hdrain hh (.inl (by rw [hentry]; rfl))
  rw [hentry] at hclosed
  rw [takenCarried_arrives s serial h hf hs]
  refine hclosed.of_step ?_ (hmoved.um.trans (arrivedAt_reports s h).um) (hmoved.ua.trans (arrivedAt_reports s h).ua) ?_
    (hmoved.hu.trans (arrivedAt_reports s h).hu) fun k hk => ?_
  · rw [hentry, back_bookedTerm _ (by rw [hs]; rfl)]
    rfl
  · rw [hmoved.drift, (arrivedAt_reports s h).drift]
    rfl
  · refine ⟨(hmoved.entry k).trans (((arrivedAt_reports s h).entry k).trans (entry_setEntry_other s h k _ hk)),
      (hmoved.acct k).trans ((arrivedAt_reports s h).acct k), (hmoved.drift k).trans ((arrivedAt_reports s h).drift k)⟩

end Arrival

theorem takenHeard_ignored (s : State) (serial : Serial) (channel h : Nat) (hf : s.find serial = some h)
    (hs : (s.entry h).state ≠ .handed) : s.takenHeard serial channel = s := by
  unfold State.takenHeard
  rw [hf]
  exact if_neg fun x => hs x.1

theorem outTo_eq_true {e : Entry} {c : Handover} {channel : Nat} (hc : e.handover = some c) :
    e.outTo channel = true ↔ c.direction = .outbound ∧ c.peer = channel := by
  unfold Entry.outTo
  rw [hc, Option.any_some, decide_eq_true_eq]

theorem inFrom_eq_true {e : Entry} {c : Handover} {channel : Nat} (hc : e.handover = some c) :
    e.inFrom channel = true ↔ c.direction = .inbound ∧ c.peer = channel := by
  unfold Entry.inFrom
  rw [hc, Option.any_some, decide_eq_true_eq]

/-- The event of an outbound move names the peer and the new handle of its context (R141). -/
theorem movedOut_context (s : State) (e : Entry) (serial : Serial) (o : MoveOutcome) (c : Handover)
    (hc : e.handover = some c) : s.movedOut e serial o = s.pushEvent (.homeMoved serial s.channel c.peer c.newHandle o) := by
  unfold State.movedOut Entry.peer Entry.newHandle
  rw [hc]
  rfl

theorem takenHeard_closes (s : State) (serial : Serial) (channel h : Nat) (c : Handover) (hf : s.find serial = some h)
    (hs : (s.entry h).state = .handed) (hc : (s.entry h).handover = some c) (hd : c.direction = .outbound)
    (hp : c.peer = channel) :
    s.takenHeard serial channel = ((s.enterClosing h .handoverOut false).withdraw (isOldNoticeOf serial)).pushEvent
      (.homeMoved serial s.channel channel c.newHandle .done) := by
  unfold State.takenHeard
  rw [hf]
  refine (if_pos ⟨hs, (outTo_eq_true hc).2 ⟨hd, hp⟩⟩).trans ?_
  rw [movedOut_context _ _ _ _ c hc, hp]
  rfl

theorem TablesSame.trans {s t u : State} (a : TablesSame s t) (b : TablesSame t u) : TablesSame s u := by
  obtain ⟨t1, t2, t3, t4⟩ := a
  obtain ⟨u1, u2, u3, u4⟩ := b
  exact ⟨u1.trans t1, u2.trans t2, u3.trans t3, u4.trans t4⟩

theorem NoticesOnly.tables {s t : State} (x : NoticesOnly s t) : TablesSame s t := by
  unfold TablesSame
  rw [x.um]
  exact ⟨rfl, rfl, rfl, rfl⟩

theorem Offered.tables {s t : State} (o : Offered s t) : TablesSame s t := by
  unfold TablesSame
  rw [o.um]
  exact ⟨rfl, rfl, rfl, rfl⟩

/-- What the own TAKEN leaves beside the home: HOME_MOVED is raised, and no other block is told of it. -/
structure ArrivalFrame (s t : State) (e : Event) : Prop where
  raised : Raised s t e
  cb : t.cb = s.cb
  ee : t.ee = s.ee
  il : t.il = s.il
  tables : TablesSame s t
  outgoing : t.outgoing .transfer = (s.outgoing .transfer).tail

theorem takenCarried_frame (s : State) (serial : Serial) (c h : Nat) (w : Bool) (hspan : s.slp.detachSpan = none)
    (hslot : s.slp.noticeSlot = some { notice := .taken serial c, withdrawn := w }) (hf : s.find serial = some h)
    (hs : (s.entry h).state = .taking) :
    ArrivalFrame s (s.noticeCarried.takenCarried serial)
      (.homeMoved serial (s.entry h).peer s.channel (some h) .arrived) := by
  have hnotice := noticeCarried_noticesOnly s
  have hframe := noticeCarried_attached s hspan
  have harrives := takenCarried_arrives s.noticeCarried serial h ((hnotice.find serial).trans hf)
    (by rw [hnotice.entry]; exact hs)
  rw [hnotice.entry, hnotice.channel] at harrives
  have hstep := arrivedAt_homeStep s.noticeCarried h
  have hevent := pushEvent_noticesOnly (s.noticeCarried.arrivedAt h)
    (.homeMoved serial (s.entry h).peer s.channel (some h) .arrived)
  have hclose := drainClose_homeStep ((s.noticeCarried.arrivedAt h).pushEvent
    (.homeMoved serial (s.entry h).peer s.channel (some h) .arrived)) h
  obtain ⟨⟨-, htables, -, hcb, hee, -, -, -, -, hil, -⟩, hquiet⟩ := hstep
  obtain ⟨⟨-, htables', -, hcb', hee', -, -, -, -, hil', -⟩, hquiet'⟩ := hclose
  rw [harrives]
  refine ⟨?_, ?_, ?_, ?_, ?_, ?_⟩
  · exact (((pushEvent_raised _ _).before hquiet).before (noticeCarried_noEvent s hspan)).after hquiet'
  · rw [hcb', pushEvent_cb, hcb, hframe]
  · rw [hee', pushEvent_ee, hee, hframe]
  · rw [hil', pushEvent_il, hil, hframe]
  · exact ((hnotice.tables.trans htables).trans hevent.tables).trans htables'
  · rw [drainClose_outgoing, pushEvent_outgoing, arrivedAt_outgoing]
    exact noticeCarried_outgoing s _ w hspan hslot

theorem ArrivalFrame.offered {s t u : State} {e : Event} (x : ArrivalFrame s t e) (o : Offered t u) : ArrivalFrame s u e :=
  ⟨x.raised.after o.noEvent, o.cb.trans x.cb, o.ee.trans x.ee, o.il.trans x.il, x.tables.trans o.tables,
    (o.notices .transfer).trans x.outgoing⟩

/-- The own TAKEN is taken where it is in transmission, withdrawn or not. -/
theorem taken_own (s : State) (serial : Serial) (c : Nat) (hr : s.resetHeld = false)
    (hs : s.sending (.taken serial c) = true) :
    ∃ t, exec (.taken .own serial c) s = .next t ∧ Offered (s.noticeCarried.takenCarried serial) t := by
  refine ⟨(s.noticeCarried.takenCarried serial).settle, ?_, settle_offered _⟩
  exact hearNotice_own (.taken serial c) (fun t => t.takenCarried serial) s hr hs

theorem taken_other (s : State) (st : Station) (serial : Serial) (c : Nat) (hr : s.resetHeld = false) :
    ∃ t, exec (.taken (.other st) serial c) s = .next t ∧ Offered (s.lineHeard.takenHeard serial c) t := by
  refine ⟨(s.lineHeard.takenHeard serial c).settle, ?_, settle_offered _⟩
  exact hearNotice_other st (.taken serial c) (fun t => t.takenHeard serial c) s hr

theorem peer_of_context {e : Entry} {c : Handover} (hc : e.handover = some c) : e.peer = c.peer := by
  unfold Entry.peer
  rw [hc]
  rfl

/-- The own TAKEN outside DRAINING: the home stands ACTIVE, its account at a fresh period. -/
theorem takenCarried_stands (s : State) (serial : Serial) (h : Nat) (hf : s.find serial = some h)
    (hs : (s.entry h).state = .taking) (hd : s.draining = false) :
    let t := s.noticeCarried.takenCarried serial
    t.entry h = (s.entry h).back ∧ t.acct h = (s.acct h).map Account.freshPeriod ∧ t.ua = s.ua ∧ t.hu = s.hu ∧
      t.lw = s.lw ∧ OthersSame s t h := by
  obtain ⟨-, -, hh⟩ := find_sound s serial h hf
  have hnotice := noticeCarried_noticesOnly s
  have hopen := takenCarried_open s.noticeCarried h serial ((hnotice.find serial).trans hf)
    (by rw [hnotice.entry]; exact hs) (hnotice.draining.trans hd)
  have hevent := pushEvent_noticesOnly (s.noticeCarried.arrivedAt h)
    (.homeMoved serial (s.noticeCarried.entry h).peer s.noticeCarried.channel (some h) .arrived)
  have hreports := arrivedAt_reports s.noticeCarried h
  rw [← hopen] at hevent
  refine ⟨?_, ?_, hevent.ua.trans (hreports.ua.trans hnotice.ua), hevent.hu.trans (hreports.hu.trans hnotice.hu),
    hevent.lw.trans (hreports.lw.trans hnotice.lw),
    ((hnotice.others h).trans (arrivedAt_homeStep s.noticeCarried h).others).trans (hevent.others h)⟩
  · rw [hevent.entry, arrivedAt_entry _ h hh, hnotice.entry]
  · rw [hevent.acct, arrivedAt_acct _ h hh, hnotice.acct]

/-- Settles O32: the own TAKEN by the arrival of the home, another's by the close at the old terminator. -/
theorem takenCarried : Obligations.TakenCarried := by
  unfold Obligations.TakenCarried
  refine ⟨fun s serial h c ctx a hr htrans hspan hd hf hs hctx ha => ?_,
    fun s serial h c ctx a w hr htr hslot hspan hd hf hs hctx ha => ?_, fun s st serial c h hr hf => ?_⟩
  · obtain ⟨t, hexec, hoff⟩ := taken_own s serial c hr htrans.sending
    have hframe := (takenCarried_frame s serial c h false hspan htrans.2 hf hs).offered hoff
    obtain ⟨he, hacct, hua, hhu, hlw, hothers⟩ := takenCarried_stands s serial h hf hs hd
    rw [peer_of_context hctx] at hframe
    refine ⟨t, hexec, (hoff.entry h).trans he, (hoff.acct h).trans (hacct.trans ?_), hframe.raised, hoff.ua.trans hua,
      hoff.hu.trans hhu, hframe.cb, hframe.ee, hoff.lw.trans hlw, hframe.il, hothers.trans (hoff.others h), hframe.tables,
      hframe.outgoing⟩
    rw [ha]
    rfl
  · obtain ⟨t, hexec, hoff⟩ := taken_own s serial c hr (sending_of_slot htr hslot)
    have hframe := (takenCarried_frame s serial c h w hspan hslot hf hs).offered hoff
    have hnotice := noticeCarried_noticesOnly s
    have hclosed := takenCarried_drained s.noticeCarried h serial ((hnotice.find serial).trans hf)
      (by rw [hnotice.entry]; exact hs) (hnotice.draining.trans hd)
    rw [hnotice.acct, ha, hnotice.entry] at hclosed
    rw [peer_of_context hctx] at hframe
    have hfresh : NoticesOnly (s.setAcct h (some a.freshPeriod)) (s.noticeCarried.setAcct h (some a.freshPeriod)) :=
      { hnotice with um := by unfold State.setAcct; rw [hnotice.um] }
    exact ⟨t, hexec, (hclosed.noticesBefore hfresh).offered hoff, hframe.raised, hframe.cb, hframe.ee, hframe.il,
      hframe.tables, hframe.outgoing⟩
  · obtain ⟨t, hexec, hoff⟩ := taken_other s st serial c hr
    refine ⟨t, hexec, fun hno => ?_, fun ctx hs hctx hdir hpeer => ?_⟩
    · have hhanded : (s.entry h).state ≠ .handed := by rcases hno with hs | hs <;> rw [hs] <;> decide
      rwa [takenHeard_ignored s.lineHeard serial c h hf hhanded] at hoff
    · rwa [takenHeard_closes s.lineHeard serial c h ctx hf hs hctx hdir hpeer] at hoff

/-! ### The ends of messages (R33, R62, R95, R131) -/

theorem handle_of_mailbox {s : State} {h : Nat} {m : Message} (hm : (s.entry h).mailbox = some m) : 1 ≤ h ∧ h ≤ 64 := by
  by_contra ho
  rw [entry_outside s h ho] at hm
  cases hm

/-- The message fails from the start of the seventeenth cycle after its first map's (R33; log entries 2 and 30). -/
theorem failureDue_of {m : Message} {f now : CycleNo} (hf : m.firstMap = some f) (hk : m.kind ≠ .release)
    (hc : m.carried = 16) (hd : 17 ≤ (now - f).toNat) : m.failureDue now = true := by
  unfold Message.failureDue
  rw [hf]
  simp only [Bool.and_eq_true, decide_eq_true_eq]
  exact ⟨⟨hk, hc⟩, hd⟩

theorem messageFailure_fails (s : State) (h : Nat) (m : Message) (f : CycleNo) (hr : s.resetHeld = false)
    (hm : (s.entry h).mailbox = some m) (hf : m.firstMap = some f) (hk : m.kind ≠ .release) (hc : m.carried = 16)
    (hd : 18 ≤ (s.cb.cycle - f).toNat) :
    ∃ t, exec (.messageFailure h) s = .next t ∧ Offered (s.messageFailed h m.kind) t := by
  refine ⟨(s.messageFailed h m.kind).settle, ?_, settle_offered _⟩
  have harm : exec (.messageFailure h) s = execMessageFailure h s := rfl
  rw [harm, execMessageFailure, if_neg (by rw [hr]; decide), hm]
  dsimp only
  rw [if_pos (failureDue_of hf hk hc (Nat.le_of_succ_le hd))]

theorem releaseDropped_drops (s : State) (h : Nat) (m : Message) (hr : s.resetHeld = false)
    (hm : (s.entry h).mailbox = some m) (hk : m.kind = .release) (hc : 4 ≤ m.carried) :
    ∃ t, exec (.releaseDropped h) s = .next t ∧ Offered (s.setEntry h { s.entry h with mailbox := none }) t := by
  refine ⟨(s.setEntry h { s.entry h with mailbox := none }).settle, ?_, settle_offered _⟩
  have harm : exec (.releaseDropped h) s = execReleaseDropped h s := rfl
  rw [harm, execReleaseDropped, if_neg (by rw [hr]; decide), hm]
  dsimp only
  rw [if_pos ⟨hk, hc⟩]

/-- The state with the entry's mailbox emptied. -/
def State.emptied (s : State) (h : Nat) : State := s.setEntry h { s.entry h with mailbox := none }

theorem emptied_entry (s : State) (h : Nat) (hh : 1 ≤ h ∧ h ≤ 64) :
    (s.emptied h).entry h = { s.entry h with mailbox := none } := entry_setEntry_self s h _ hh

theorem emptied_homeStep (s : State) (h : Nat) : HomeStep s (s.emptied h) h := setEntry_homeStep s h _

theorem messageFailed_adjust (s : State) (h d : Nat) :
    s.messageFailed h (.adjust d) =
      if (s.drift h).phase = .settling then (s.emptied h).setPhase h .seeking else s.emptied h := rfl

theorem messageFailed_assign (s : State) (h k d : Nat) (serial : Serial) (hs : (s.entry h).state = .confirming) :
    s.messageFailed h (.assign serial k d) = (s.emptied h).freeEntry h := if_pos hs

theorem messageFailed_tune (s : State) (h c k : Nat) (ctx : Handover) (serial : Serial)
    (hs : (s.entry h).state = .tuning) (hc : (s.entry h).handover = some ctx) (hsr : (s.entry h).serial = some serial) :
    s.messageFailed h (.tune c k) = (s.setEntry h { s.entry h with
      mailbox := none, handover := some { ctx with timer := none, reclaim := some .tuneFailed } }).queueNotice
        (.reclaim serial s.channel) := by
  simp only [State.messageFailed, hs, hc, hsr, setEntry_setEntry]

/-- A failed ADJUST leaves the entry but its mailbox, and a SETTLING re-range seeks again (R95). -/
theorem messageFailed_adjust_leaves (s : State) (h d : Nat) (hh : 1 ≤ h ∧ h ≤ 64) :
    let t := s.messageFailed h (.adjust d)
    t.entry h = { s.entry h with mailbox := none } ∧
      t.drift h = { s.drift h with phase := if (s.drift h).phase = .settling then .seeking else (s.drift h).phase } ∧
      t.acct h = s.acct h ∧ t.ua = s.ua ∧ t.hu = s.hu ∧ HomeStep s t h := by
  dsimp only
  rw [messageFailed_adjust]
  split
  · exact ⟨emptied_entry s h hh, drift_setDrift_self _ h _ hh, rfl, rfl, rfl,
      (emptied_homeStep s h).trans (setPhase_homeStep _ h _)⟩
  · exact ⟨emptied_entry s h hh, rfl, rfl, rfl, rfl, emptied_homeStep s h⟩

/-- Settles O46: a RELEASE is dropped, and the poster of any other message acts. -/
theorem messageEnds : Obligations.MessageEnds := by
  unfold Obligations.MessageEnds
  intro s h m hr hm
  have hh := handle_of_mailbox hm
  refine ⟨fun f hf hk hc hd => ?_, fun hk hc => releaseDropped_drops s h m hr hm hk hc⟩
  obtain ⟨t, hexec, hoff⟩ := messageFailure_fails s h m f hr hm hf hk hc hd
  refine ⟨t, hexec, fun d hkind => ?_, fun serial k d hkind hs => ?_, fun c k ctx serial hkind hs hctx hserial => ?_⟩
  · rw [hkind] at hoff
    obtain ⟨he, hdrift, hacct, hua, hhu, hstep⟩ := messageFailed_adjust_leaves s h d hh
    obtain ⟨hframe, hquiet⟩ := hstep.trans (hoff.homeStep h)
    have hd := (hoff.drift h).trans hdrift
    exact ⟨(hoff.entry h).trans he, by rw [hd], by rw [hd], (hoff.acct h).trans hacct, hoff.ua.trans hua,
      hoff.hu.trans hhu, hframe, hquiet⟩
  · rw [hkind, messageFailed_assign s h k d serial hs] at hoff
    obtain ⟨hframe, hquiet⟩ := ((emptied_homeStep s h).trans (freeEntry_frame (s.emptied h) h)).trans (hoff.homeStep h)
    refine ⟨?_, ?_, ?_, hframe, hquiet⟩
    · rw [hoff.entry, freeEntry_entry, if_pos rfl]
    · rw [hoff.acct, freeEntry_acct, if_pos rfl]
    · rw [hoff.ua, freeEntry_booked, emptied_entry s h hh]
      rfl
  · rwa [hkind, messageFailed_tune s h c k ctx serial hs hctx hserial] at hoff

end Sys2Proof.Machine
end

section
/-! PROOFS. HELD, ACCEPT and REFUSE carried: obligation O30. -/

namespace Sys2Proof.Machine

/-! ### HELD (R56, R57) -/

theorem held_own (s : State) (serial : Serial) (c : Nat) (hr : s.resetHeld = false) (ht : s.transmits (.held serial c)) :
    ∃ t, exec (.held .own serial c) s = .next t ∧ Offered s.noticeCarried t := by
  refine ⟨s.noticeCarried.settle, ?_, settle_offered _⟩
  exact hearNotice_own (.held serial c) (fun t => t) s hr ht.sending

theorem held_other (s : State) (st : Station) (serial : Serial) (c : Nat) (hr : s.resetHeld = false) :
    ∃ t, exec (.held (.other st) serial c) s = .next t ∧ Offered (s.lineHeard.heldHeard serial c) t := by
  refine ⟨(s.lineHeard.heldHeard serial c).settle, ?_, settle_offered _⟩
  exact hearNotice_other st (.held serial c) (fun t => t.heldHeard serial c) s hr

theorem heldHeard_none (s : State) (serial : Serial) (c : Nat) (hf : s.find serial = none) : s.heldHeard serial c = s := by
  unfold State.heldHeard
  rw [hf]

/-- What a HELD does by the state of the entry of its serial (R57). -/
theorem heldHeard_some (s : State) (serial : Serial) (c h : Nat) (hf : s.find serial = some h) :
    ((s.entry h).state = .closing → s.heldHeard serial c = s) ∧
    ((s.entry h).state = .claiming → s.heldHeard serial c = s.dropClaim serial h) ∧
    ((s.entry h).state = .confirming → s.heldHeard serial c = s.freeEntry h) ∧
    ((s.entry h).state = .active ∨ (s.entry h).state = .leaving ∨ (s.entry h).state = .tuning ∨
      (s.entry h).state = .handed ∨ (s.entry h).state = .arriving ∨ (s.entry h).state = .taking ∨
      (s.entry h).state = .lost → s.heldHeard serial c = s.raiseDuplicate h serial c) := by
  unfold State.heldHeard
  rw [hf]
  dsimp only
  refine ⟨fun hs => by rw [hs], fun hs => by rw [hs], fun hs => by rw [hs], ?_⟩
  rintro (hs | hs | hs | hs | hs | hs | hs) <;> rw [hs]

/-- A claim that is dropped leaves its entry FREE, its place in the capture list free, and its CLAIM withdrawn (R56). -/
theorem dropClaim_frees (s : State) (serial : Serial) (h : Nat) :
    let t := s.dropClaim serial h
    t.entry h = Entry.free ∧ t.acct h = none ∧ t.ua.booked = s.ua.booked - (s.entry h).bookedTerm ∧
      (∀ k p, some k ∈ t.ee.captures → k.claim = some p → p.handle ≠ h) ∧
      (∀ who, t.outgoing who = (s.withdraw (isClaimOf serial)).outgoing who) ∧ OthersSame s t h ∧ NoEvent s t := by
  obtain ⟨⟨hothers, -⟩, hquiet⟩ := freeEntry_frame s h
  refine ⟨by rw [dropClaim_entry, if_pos rfl], (freeEntry_acct s h h).trans (if_pos rfl), freeEntry_booked s h,
    fun k p hk hp hh => ?_, fun _ => rfl, hothers, hquiet⟩
  rw [dropClaim_eq] at hk
  exact (freePlaceOf_claims s h p.handle k.serial ⟨k, p, hk, hp, rfl, rfl⟩).2 hh

/-! ### ACCEPT (R31, R127) -/

theorem accept_own (s : State) (serial : Serial) (c k : Nat) (hr : s.resetHeld = false)
    (ht : s.transmits (.accept serial c k)) :
    ∃ t, exec (.accept .own serial c k) s = .next t ∧ Offered s.noticeCarried t := by
  refine ⟨s.noticeCarried.settle, ?_, settle_offered _⟩
  exact hearNotice_own (.accept serial c k) (fun t => t) s hr ht.sending

theorem accept_other (s : State) (st : Station) (serial : Serial) (c k : Nat) (hr : s.resetHeld = false) :
    ∃ t, exec (.accept (.other st) serial c k) s = .next t ∧ Offered (s.lineHeard.acceptHeard serial c k) t := by
  refine ⟨(s.lineHeard.acceptHeard serial c k).settle, ?_, settle_offered _⟩
  exact hearNotice_other st (.accept serial c k) (fun t => t.acceptHeard serial c k) s hr

theorem acceptHeard_none (s : State) (serial : Serial) (c k : Nat) (hf : s.find serial = none) :
    s.acceptHeard serial c k = s := by
  unfold State.acceptHeard
  rw [hf]

theorem acceptHeard_some (s : State) (serial : Serial) (c k h : Nat) (hf : s.find serial = some h) :
    s.acceptHeard serial c k =
      if (s.entry h).state = .leaving ∧ (s.entry h).outTo c = true then s.setEntry h ((s.entry h).toTuning c k) else s := by
  unfold State.acceptHeard
  rw [hf]

/-- The LEAVING entry as an ACCEPT turns it, before TUNE is posted (R127). -/
def Entry.accepted (e : Entry) (c : Handover) (k : Nat) : Entry :=
  { e with state := .tuning, handover := some { c with newHandle := some k } }

theorem toTuning_context (e : Entry) (c : Handover) (channel k : Nat) (hc : e.handover = some c) :
    e.toTuning channel k = (e.accepted c k).post (.tune channel k) := by
  unfold Entry.toTuning Entry.accepted
  rw [hc]
  rfl

/-- TUNE goes into an empty mailbox, or replaces a pending ADJUST (R31). -/
theorem toTuning_cases (e : Entry) (c : Handover) (channel k : Nat) (hc : e.handover = some c) :
    let x := e.accepted c k
    let turned : Entry := { x with
      mailbox := some { kind := .tune channel k, seqBit := !x.seqBit, carried := 0, firstMap := none }, seqBit := !x.seqBit }
    (x.mailbox = none → e.toTuning channel k = turned) ∧
      ∀ m d, x.mailbox = some m → m.kind = .adjust d →
        (m.carried ≠ 0 → e.toTuning channel k = turned) ∧
        (m.carried = 0 → e.toTuning channel k = { x with
          mailbox := some { kind := .tune channel k, seqBit := m.seqBit, carried := 0, firstMap := none } }) := by
  dsimp only
  rw [toTuning_context e c channel k hc]
  refine ⟨post_empty _ _, fun m d hm hk => ?_⟩
  have hrank : m.kind.rank ≤ (MsgKind.tune channel k).rank := by
    rw [hk]
    exact Nat.le_of_ble_eq_true rfl
  exact ⟨post_replaces _ _ m hm hrank, post_unseen _ _ m hm hrank⟩

/-! ### REFUSE (R26, R127) -/

theorem refuse_own (s : State) (serial : Serial) (c : Nat) (reason : RefuseReason) (hr : s.resetHeld = false)
    (ht : s.transmits (.refuse serial c reason)) :
    ∃ t, exec (.refuse .own serial c reason) s = .next t ∧ Offered s.noticeCarried t := by
  refine ⟨s.noticeCarried.settle, ?_, settle_offered _⟩
  exact hearNotice_own (.refuse serial c reason) (fun t => t) s hr ht.sending

theorem refuse_other (s : State) (st : Station) (serial : Serial) (c : Nat) (reason : RefuseReason)
    (hr : s.resetHeld = false) :
    ∃ t, exec (.refuse (.other st) serial c reason) s = .next t ∧ Offered (s.lineHeard.refuseHeard serial c reason) t := by
  refine ⟨(s.lineHeard.refuseHeard serial c reason).settle, ?_, settle_offered _⟩
  exact hearNotice_other st (.refuse serial c reason) (fun t => t.refuseHeard serial c reason) s hr

theorem refuseHeard_none (s : State) (serial : Serial) (c : Nat) (reason : RefuseReason) (hf : s.find serial = none) :
    s.refuseHeard serial c reason = s := by
  unfold State.refuseHeard
  rw [hf]

theorem refuseHeard_some (s : State) (serial : Serial) (c h : Nat) (reason : RefuseReason) (hf : s.find serial = some h) :
    s.refuseHeard serial c reason =
      if (s.entry h).state = .leaving ∧ (s.entry h).outTo c = true then
        (s.returnActive h).movedOut (s.entry h) serial (.returnedRefused reason)
      else s := by
  unfold State.refuseHeard
  rw [hf]

theorem raiseAlarm_port (s : State) (a : AlarmSource) (c : AlarmContent) :
    ∃ slot, (s.raiseAlarm a c).slp = { s.slp with reportSlot := slot } := by
  obtain ⟨slot, _, _, heq⟩ := raiseAlarm_reportsOnly s a c
  exact ⟨slot, by rw [heq]⟩

theorem enterLost_port (v : State) (h : Nat) : ∃ slot, (v.enterLost h).slp = { v.slp with reportSlot := slot } :=
  raiseAlarm_port _ _ _

/-- The checks of a returning home touch the report slot alone of the port. -/
theorem returnActive_port (s : State) (h : Nat) (hs : (s.entry h).state = .leaving ∨ (s.entry h).state = .tuning) :
    ∃ slot, (s.returnActive h).slp = { s.slp with reportSlot := slot } := by
  have hdrift : ∃ slot, (s.driftAt h).slp = { s.slp with reportSlot := slot } :=
    raiseAlarm_port _ _ _
  have hlost (v : State) : ∃ slot, (v.loseHome h).slp = { v.slp with reportSlot := slot } := by
    obtain ⟨slot, hslot⟩ := enterLost_port v h
    exact ⟨slot, (drainClose_slp _ h).trans hslot⟩
  rcases returnActive_cases s h hs with ⟨-, -, heq⟩ | ⟨-, -, heq⟩ | ⟨-, n, heq⟩ | ⟨-, -, n, heq⟩ <;> rw [heq]
  · exact ⟨s.slp.reportSlot, drainClose_slp _ h⟩
  · obtain ⟨slot, hslot⟩ := hdrift
    exact ⟨slot, (drainClose_slp _ h).trans hslot⟩
  · exact hlost (s.backAt h)
  · obtain ⟨slot, hslot⟩ := hdrift
    obtain ⟨slot', hslot'⟩ := hlost (s.driftAt h)
    exact ⟨slot', hslot'.trans (by rw [hslot])⟩

/-- The report slot holds no notice, before a withdrawal and after it. -/
theorem outgoing_of_port {s t : State} {slot : Option ReportFrame} (ht : t.slp = { s.slp with reportSlot := slot })
    (who : Producer) : t.outgoing who = s.outgoing who := by
  unfold State.outgoing LinePort.queue
  rw [ht]

theorem withdraw_outgoing_of_port {s t : State} {slot : Option ReportFrame}
    (ht : t.slp = { s.slp with reportSlot := slot }) (test : Notice → Bool) (who : Producer) :
    (t.withdraw test).outgoing who = (s.withdraw test).outgoing who := by
  unfold State.withdraw State.outgoing LinePort.queue
  dsimp only
  rw [ht]
  rfl

/-- The end of a move that brings the home back, between states that differ by notices and the line alone. -/
theorem returned_moved {s v w t : State} {h : Nat} {serial : Serial} {o : MoveOutcome} {c : Handover}
    (hv : NoticesOnly s v) (hs : (s.entry h).state = .leaving ∨ (s.entry h).state = .tuning)
    (hc : (s.entry h).handover = some c) (hw : NoticesOnly (v.returnActive h) w) (hn : NoEvent (v.returnActive h) w)
    (hoff : Offered (w.movedOut (v.entry h) serial o) t) :
    Returned s t h ∧ Raised v t (.homeMoved serial s.channel c.peer c.newHandle o) := by
  have hsv : (v.entry h).state = .leaving ∨ (v.entry h).state = .tuning := by rw [hv.entry]; exact hs
  obtain ⟨⟨-, -, -, -, -, -, -, -, -, hil, -⟩, hquiet⟩ := returnActive_homeStep v h hsv
  have hchannel : w.channel = s.channel := by
    unfold State.channel State.img
    rw [hw.il, hil, hv.il]
  have hevent := movedOut_context w (v.entry h) serial o c (by rw [hv.entry]; exact hc)
  rw [hchannel] at hevent
  rw [hevent] at hoff
  refine ⟨?_, (((pushEvent_raised _ _).before hn).before hquiet).after hoff.noEvent⟩
  exact (((returnActive_returned v h hsv).noticesAfter (hw.trans (pushEvent_noticesOnly _ _))).offered hoff).noticesBefore hv

/-- Settles O30: HELD by the state of the entry, ACCEPT by the context, and REFUSE by the return of the home. -/
theorem offerAnswersHeard : Obligations.OfferAnswersHeard := by
  unfold Obligations.OfferAnswersHeard
  refine ⟨fun s serial c hr => ⟨held_own s serial c hr, fun st => ?_⟩,
    fun s serial c k hr => ⟨accept_own s serial c k hr, fun st => ?_⟩,
    fun s serial c reason hr => ⟨refuse_own s serial c reason hr, fun st => ?_⟩⟩
  · obtain ⟨t, hexec, hoff⟩ := held_other s st serial c hr
    refine ⟨t, hexec, fun hf => ?_, fun h hf => ?_⟩
    · rwa [heldHeard_none s.lineHeard serial c hf] at hoff
    obtain ⟨hclosing, hclaiming, hconfirming, hheld⟩ := heldHeard_some s.lineHeard serial c h hf
    refine ⟨fun hs => ?_, fun hs => ?_, fun hs => ?_, fun hs => ?_⟩
    · rwa [hclosing hs] at hoff
    · rw [hclaiming hs] at hoff
      obtain ⟨he, ha, hu, hcaptures, hout, hothers, hquiet⟩ := dropClaim_frees s.lineHeard serial h
      refine ⟨(hoff.entry h).trans he, (hoff.acct h).trans ha, (congrArg Allocator.booked hoff.ua).trans hu, ?_,
        fun who => (hoff.notices who).trans (hout who), hothers.trans (hoff.others h),
        hoff.events.trans hquiet.1, hoff.dropped.trans hquiet.2⟩
      rw [hoff.ee]
      exact hcaptures
    · rwa [hconfirming hs] at hoff
    · rwa [hheld hs] at hoff
  · obtain ⟨t, hexec, hoff⟩ := accept_other s st serial c k hr
    refine ⟨t, hexec, fun hf => ?_, fun h hf => ?_⟩
    · rwa [acceptHeard_none s.lineHeard serial c k hf] at hoff
    have hheard := acceptHeard_some s.lineHeard serial c k h hf
    rw [hheard] at hoff
    refine ⟨fun hs => ?_, fun ctx hs hctx hdir => ⟨fun hne => ?_, fun hpeer => ?_⟩⟩
    · rwa [if_neg fun x => hs x.1] at hoff
    · rwa [if_neg fun x => hne ((outTo_eq_true hctx).1 x.2).2] at hoff
    · rw [if_pos ⟨hs, (outTo_eq_true hctx).2 ⟨hdir, hpeer⟩⟩] at hoff
      obtain ⟨hempty, hadjust⟩ := toTuning_cases (s.entry h) ctx c k hctx
      refine ⟨fun hm => ?_, fun m d hm hk => ⟨fun hcar => ?_, fun hcar => ?_⟩⟩
      · exact hempty hm ▸ hoff
      · exact (hadjust m d hm hk).1 hcar ▸ hoff
      · exact (hadjust m d hm hk).2 hcar ▸ hoff
  · obtain ⟨t, hexec, hoff⟩ := refuse_other s st serial c reason hr
    refine ⟨t, hexec, fun hf => ?_, fun h hf => ?_⟩
    · rwa [refuseHeard_none s.lineHeard serial c reason hf] at hoff
    have hheard := refuseHeard_some s.lineHeard serial c h reason hf
    rw [hheard] at hoff
    refine ⟨fun hs => ?_, fun ctx hs hctx hdir => ⟨fun hne => ?_, fun hpeer => ?_⟩⟩
    · rwa [if_neg fun x => hs x.1] at hoff
    · rwa [if_neg fun x => hne ((outTo_eq_true hctx).1 x.2).2] at hoff
    · rw [if_pos ⟨hs, (outTo_eq_true hctx).2 ⟨hdir, hpeer⟩⟩] at hoff
      obtain ⟨hreturned, hraised⟩ := returned_moved (lineHeard_noticesOnly s) (.inl hs) hctx (.refl _) ⟨rfl, rfl⟩ hoff
      obtain ⟨slot, hslot⟩ := returnActive_port s.lineHeard h (.inl hs)
      rw [hpeer] at hraised
      refine ⟨hreturned, fun who => ?_, hraised.of_events rfl rfl rfl rfl⟩
      exact (hoff.notices who).trans ((pushEvent_outgoing _ _ who).trans (outgoing_of_port hslot who))

end Sys2Proof.Machine
end

section
/-! PROOFS. RECLAIM carried, the timers of a move and of a LOST home, and withdrawals: obligation O33. -/

namespace Sys2Proof.Machine

/-! ### RECLAIM carried (R131, R135, R136) -/

theorem reclaim_own (s : State) (serial : Serial) (f : Nat) (hr : s.resetHeld = false)
    (ht : s.transmits (.reclaim serial f)) :
    ∃ t, exec (.reclaim .own serial f) s = .next t ∧ Offered (s.noticeCarried.reclaimCarried serial) t := by
  refine ⟨(s.noticeCarried.reclaimCarried serial).settle, ?_, settle_offered _⟩
  exact hearNotice_own (.reclaim serial f) (fun t => t.reclaimCarried serial) s hr ht.sending

theorem reclaim_other (s : State) (st : Station) (serial : Serial) (f : Nat) (hr : s.resetHeld = false) :
    ∃ t, exec (.reclaim (.other st) serial f) s = .next t ∧ Offered (s.lineHeard.reclaimHeard serial f) t := by
  refine ⟨(s.lineHeard.reclaimHeard serial f).settle, ?_, settle_offered _⟩
  exact hearNotice_other st (.reclaim serial f) (fun t => t.reclaimHeard serial f) s hr

theorem reclaimCarried_none (s : State) (serial : Serial) (hf : s.find serial = none) : s.reclaimCarried serial = s := by
  unfold State.reclaimCarried
  rw [hf]

/-- The own RECLAIM ends only the move of a TUNING or HANDED entry (R131, R135). -/
theorem reclaimCarried_ignored (s : State) (serial : Serial) (h : Nat) (hf : s.find serial = some h)
    (ht : (s.entry h).state ≠ .tuning) (hh : (s.entry h).state ≠ .handed) : s.reclaimCarried serial = s := by
  unfold State.reclaimCarried
  rw [hf]
  dsimp only
  split
  case h_1 hs _ => exact absurd hs ht
  case h_2 hs => exact absurd hs hh
  case h_3 => rfl

/-- A TUNING entry whose context records no RECLAIM is left as it is (log entry 17). -/
theorem reclaimCarried_unrecorded (s : State) (serial : Serial) (h : Nat) (c : Handover) (hf : s.find serial = some h)
    (hs : (s.entry h).state = .tuning) (hc : (s.entry h).handover = some c) (hr : c.reclaim = none) :
    s.reclaimCarried serial = s := by
  unfold State.reclaimCarried
  rw [hf]
  dsimp only
  rw [hs, hc, Option.bind_some, hr]

theorem reclaimCarried_tuning (s : State) (serial : Serial) (h : Nat) (c : Handover) (cause : ReclaimCause)
    (hf : s.find serial = some h) (hs : (s.entry h).state = .tuning) (hc : (s.entry h).handover = some c)
    (hr : c.reclaim = some cause) :
    s.reclaimCarried serial = (s.returnActive h).movedOut (s.entry h) serial cause.outcome := by
  unfold State.reclaimCarried
  rw [hf]
  dsimp only
  rw [hs, hc, Option.bind_some, hr]

/-- A HANDED home is lost with its account as frozen, whose credit condition starts again (R38, R135, R147). -/
def State.handedBack (s : State) (h : Nat) (e : Event) : State := ((s.enterLost h).startCredit h).pushEvent e

theorem reclaimCarried_handed (s : State) (serial : Serial) (h : Nat) (c : Handover) (hf : s.find serial = some h)
    (hs : (s.entry h).state = .handed) (hc : (s.entry h).handover = some c) :
    s.reclaimCarried serial =
      (s.handedBack h (.homeMoved serial s.channel c.peer c.newHandle .lost)).drainClose h := by
  have hchannel : ((s.enterLost h).startCredit h).channel = s.channel := by
    unfold State.channel State.img
    rw [startCredit_il, enterLost_il]
  unfold State.reclaimCarried State.handedBack
  rw [hf]
  dsimp only
  rw [hs, movedOut_context _ _ _ _ c hc, hchannel]

section HandedBack
variable (s : State) (h : Nat) (e : Event)

theorem handedBack_lost : ReportsOnly (s.enterLost h) ((s.enterLost h).startCredit h) := startCredit_reportsOnly _ h

theorem handedBack_event : NoticesOnly ((s.enterLost h).startCredit h) (s.handedBack h e) := pushEvent_noticesOnly _ _

theorem handedBack_entry (hh : 1 ≤ h ∧ h ≤ 64) : (s.handedBack h e).entry h = (s.entry h).gone s.img.lostTime := by
  rw [(handedBack_event s h e).entry, (handedBack_lost s h).entry, enterLost_entry, if_pos ⟨rfl, hh⟩]
  rfl

theorem handedBack_fields : (s.handedBack h e).um = s.um ∧ (s.handedBack h e).ua = s.ua ∧ (s.handedBack h e).hu = s.hu ∧
    (s.handedBack h e).il = s.il := by
  have hevent := handedBack_event s h e
  have hlost := handedBack_lost s h
  exact ⟨hevent.um.trans (hlost.um.trans (by simp)), hevent.ua.trans (hlost.ua.trans (by simp)),
    hevent.hu.trans (hlost.hu.trans (by simp)), hevent.il.trans (hlost.il.trans (by simp))⟩

theorem handedBack_others : OthersSame s (s.handedBack h e) h :=
  ((enterLost_homeStep s h).others.trans ((handedBack_lost s h).homeStep h).others).trans ((handedBack_event s h e).others h)

theorem handedBack_draining : (s.handedBack h e).draining = s.draining := by
  obtain ⟨-, -, -, hil⟩ := handedBack_fields s h e
  unfold State.draining
  rw [hil]

/-- While DRAINING the home closes from LOST (R192). -/
theorem handedBack_closed (hh : 1 ≤ h ∧ h ≤ 64) (hs : (s.entry h).state = .handed) (hd : s.draining = true) :
    DrainClosed s ((s.handedBack h e).drainClose h) h ((s.entry h).gone s.img.lostTime) := by
  have hentry := handedBack_entry s h e hh
  obtain ⟨hum, hua, hhu, -⟩ := handedBack_fields s h e
  have hclosed := drainClose_closed (s.handedBack h e) h ((handedBack_draining s h e).trans hd) hh
    (.inr (by rw [hentry]; rfl))
  rw [hentry] at hclosed
  refine hclosed.of_step ?_ hum hua ?_ hhu (handedBack_others s h e)
  · rw [hentry]
    exact toLost_bookedTerm _ _ (by rw [hs]; rfl)
  · rw [(handedBack_event s h e).drift, (handedBack_lost s h).drift, enterLost_drift s h hh]

theorem handedBack_raised : Raised s ((s.handedBack h e).drainClose h) e :=
  (((pushEvent_raised _ e).before ((handedBack_lost s h).homeStep h).2).before (enterLost_homeStep s h).2).after
    (drainClose_homeStep _ h).2

/-- HOME_LOST stands, told before the credit alarms. -/
theorem handedBack_lostAlarm : Alarmed s ((s.handedBack h e).drainClose h) { kind := .homeLost, handle := h }
    (.homeLost (s.entry h).serial) :=
  ((((enterLost_alarmed s h).kept (startCredit_sourceKept _ h (by intro hh; cases hh) (by intro hh; cases hh))).noticesAfter
    (handedBack_event s h e)).drainClosed h)

theorem enterLost_serial (hh : 1 ≤ h ∧ h ≤ 64) : ((s.enterLost h).entry h).serial = (s.entry h).serial := by
  rw [enterLost_entry, if_pos ⟨rfl, hh⟩]
  rfl

theorem startCredit_low (a : Account) (ha : s.acct h = some a) (hq : a.quota = .low) :
    s.startCredit h = s.raiseAlarm { kind := .creditLow, handle := h }
      (.credit (s.entry h).serial h a.credit a.lowWater) := by
  unfold State.startCredit
  rw [ha]
  dsimp only
  rw [hq]

theorem startCredit_exhausted (a : Account) (ha : s.acct h = some a) (hq : a.quota = .exhausted) :
    s.startCredit h = s.raiseAlarm { kind := .creditExhausted, handle := h }
      (.credit (s.entry h).serial h a.credit a.lowWater) := by
  unfold State.startCredit
  rw [ha]
  dsimp only
  rw [hq]

/-- The credit condition of the account as frozen starts again, with its alarm (R147). -/
theorem handedBack_creditAlarm (k : AlarmKind) (hk : k ≠ .homeLost) (c : AlarmContent)
    (hraise : (s.enterLost h).startCredit h = (s.enterLost h).raiseAlarm { kind := k, handle := h } c) :
    Alarmed s ((s.handedBack h e).drainClose h) { kind := k, handle := h } c := by
  have hraised := raiseAlarm_alarmed (s.enterLost h) { kind := k, handle := h } c
  rw [← hraise] at hraised
  refine ((hraised.noticesAfter (handedBack_event s h e)).drainClosed h).keptBefore (enterLost_sourceKept s h ?_)
  intro hsource
  exact hk (congrArg AlarmSource.kind hsource)

end HandedBack

theorem reclaimHeard_none (s : State) (serial : Serial) (f : Nat) (hf : s.find serial = none) :
    s.reclaimHeard serial f = s := by
  unfold State.reclaimHeard
  rw [hf]

theorem reclaimHeard_some (s : State) (serial : Serial) (f h : Nat) (hf : s.find serial = some h) :
    s.reclaimHeard serial f =
      if ((s.entry h).state = .arriving ∨ (s.entry h).state = .taking) ∧ (s.entry h).inFrom f = true then
        (s.freeEntry h).withdraw (isTargetNoticeOf serial)
      else s := by
  unfold State.reclaimHeard
  rw [hf]

/-- A withdrawal changes nothing that a frame of one home reads. -/
theorem withdraw_homeStep (s : State) (test : Notice → Bool) (h : Nat) : HomeStep s (s.withdraw test) h := by
  exact ⟨⟨fun _ _ => ⟨rfl, rfl, rfl⟩, ⟨rfl, rfl, rfl, rfl⟩, ⟨rfl, rfl, rfl, rfl, rfl, rfl⟩, rfl, rfl, rfl, rfl, rfl, rfl, rfl,
    rfl, rfl, rfl⟩, ⟨rfl, rfl⟩⟩

/-- An entry freed with its notices withdrawn. -/
theorem freed_withdrawn {s t : State} {h : Nat} {test : Notice → Bool}
    (hoff : Offered ((s.freeEntry h).withdraw test) t) :
    t.entry h = Entry.free ∧ t.acct h = none ∧ t.ua.booked = s.ua.booked - (s.entry h).bookedTerm ∧ HomeFrame s t h ∧
      NoEvent s t := by
  have hstep : HomeStep s t h :=
    (HomeStep.trans (freeEntry_frame s h) (withdraw_homeStep _ test h)).trans (hoff.homeStep h)
  exact ⟨(hoff.entry h).trans ((freeEntry_entry s h h).trans (if_pos rfl)),
    (hoff.acct h).trans ((freeEntry_acct s h h).trans (if_pos rfl)), congrArg Allocator.booked hoff.ua, hstep.1, hstep.2⟩

theorem ownReclaim (s : State) (serial : Serial) (f : Nat) (hr : s.resetHeld = false)
    (ht : s.transmits (.reclaim serial f)) : ∃ t, exec (.reclaim .own serial f) s = .next t ∧
      (s.find serial = none → Offered s.noticeCarried t) ∧
      ∀ h, s.find serial = some h →
        ((s.entry h).state ≠ .tuning → (s.entry h).state ≠ .handed → Offered s.noticeCarried t) ∧
        ∀ ctx, (s.entry h).handover = some ctx →
          ((s.entry h).state = .tuning → ctx.reclaim = none → Offered s.noticeCarried t) ∧
          (∀ cause, (s.entry h).state = .tuning → ctx.reclaim = some cause → Returned s t h ∧
            Raised s.noticeCarried t (.homeMoved serial s.channel ctx.peer ctx.newHandle cause.outcome)) ∧
          ((s.entry h).state = .handed →
            (s.draining = false →
              t.entry h = (s.entry h).gone s.img.lostTime ∧ t.acct h = s.acct h ∧ t.ua.booked = s.ua.booked) ∧
            (s.draining = true → DrainClosed s t h ((s.entry h).gone s.img.lostTime)) ∧
            Alarmed s t { kind := .homeLost, handle := h } (.homeLost (s.entry h).serial) ∧
            (∀ a, s.acct h = some a → a.quota = .low →
              Alarmed s t { kind := .creditLow, handle := h } (.credit (s.entry h).serial h a.credit a.lowWater)) ∧
            (∀ a, s.acct h = some a → a.quota = .exhausted →
              Alarmed s t { kind := .creditExhausted, handle := h } (.credit (s.entry h).serial h a.credit a.lowWater)) ∧
            Raised s.noticeCarried t (.homeMoved serial s.channel ctx.peer ctx.newHandle .lost) ∧ OthersSame s t h) := by
  obtain ⟨t, hexec, hoff⟩ := reclaim_own s serial f hr ht
  have hv := noticeCarried_noticesOnly s
  refine ⟨t, hexec, fun hf => ?_, fun h hf => ?_⟩
  · rwa [reclaimCarried_none _ serial ((hv.find serial).trans hf)] at hoff
  have hfv := (hv.find serial).trans hf
  refine ⟨fun htune hhand => ?_, fun ctx hctx => ⟨fun hs hrec => ?_, fun cause hs hrec => ?_, fun hs => ?_⟩⟩
  · rwa [reclaimCarried_ignored _ serial h hfv (by rw [hv.entry]; exact htune) (by rw [hv.entry]; exact hhand)] at hoff
  · rwa [reclaimCarried_unrecorded _ serial h ctx hfv (by rw [hv.entry]; exact hs) (by rw [hv.entry]; exact hctx) hrec]
      at hoff
  · rw [reclaimCarried_tuning _ serial h ctx cause hfv (by rw [hv.entry]; exact hs) (by rw [hv.entry]; exact hctx) hrec]
      at hoff
    exact returned_moved hv (.inr hs) hctx (.refl _) ⟨rfl, rfl⟩ hoff
  · obtain ⟨-, -, hh⟩ := find_sound s serial h hf
    have hsv : (s.noticeCarried.entry h).state = .handed := by rw [hv.entry]; exact hs
    have hserial : ((s.noticeCarried.enterLost h).entry h).serial = (s.entry h).serial := by
      rw [enterLost_serial _ h hh, hv.entry]
    have hacct (a : Account) (ha : s.acct h = some a) : (s.noticeCarried.enterLost h).acct h = some a :=
      (acct_of_um _ _ (by simp) h).trans ((hv.acct h).trans ha)
    rw [reclaimCarried_handed _ serial h ctx hfv hsv (by rw [hv.entry]; exact hctx), hv.channel] at hoff
    generalize (Event.homeMoved serial s.channel ctx.peer ctx.newHandle .lost) = moved at hoff ⊢
    obtain ⟨hum, hua, -, -⟩ := handedBack_fields s.noticeCarried h moved
    refine ⟨fun hd => ?_, fun hd => ?_, ?_, fun a ha hq => ?_, fun a ha hq => ?_, ?_, ?_⟩
    · rw [drainClose_stands _ h ((handedBack_draining _ h moved).trans (hv.draining.trans hd))] at hoff
      refine ⟨?_, ?_, ?_⟩
      · rw [hoff.entry, handedBack_entry _ h moved hh, hv.entry, hv.img]
      · rw [hoff.acct, acct_of_um _ _ hum, hv.acct]
      · rw [hoff.ua, hua, hv.ua]
    · have hclosed := handedBack_closed s.noticeCarried h moved hh hsv (hv.draining.trans hd)
      rw [hv.entry, hv.img] at hclosed
      exact (hclosed.offered hoff).noticesBefore hv
    · have hlost := handedBack_lostAlarm s.noticeCarried h moved
      rw [hv.entry] at hlost
      exact (hlost.offered hoff).noticesBefore hv
    · have hcredit := handedBack_creditAlarm s.noticeCarried h moved .creditLow (by decide) _
        (startCredit_low _ h a (hacct a ha) hq)
      rw [hserial] at hcredit
      exact (hcredit.offered hoff).noticesBefore hv
    · have hcredit := handedBack_creditAlarm s.noticeCarried h moved .creditExhausted (by decide) _
        (startCredit_exhausted _ h a (hacct a ha) hq)
      rw [hserial] at hcredit
      exact (hcredit.offered hoff).noticesBefore hv
    · exact (handedBack_raised s.noticeCarried h moved).after hoff.noEvent
    · exact (((hv.others h).trans (handedBack_others _ h moved)).trans (drainClose_homeStep _ h).others).trans (hoff.others h)

/-! ### The timers (R41, R127, R131, R135, R137) -/

theorem dueTimer_of {n : Nat} (hn : n ≤ 1) : dueTimer (some n) = true := by
  unfold dueTimer
  simpa using hn

theorem handoverDue_of {e : Entry} {c : Handover} {d : Direction} {n : Nat} (hc : e.handover = some c)
    (hd : c.direction = d) (ht : c.timer = some n) (hn : n ≤ 1) : e.handoverDue d = true := by
  unfold Entry.handoverDue
  rw [hc, Option.any_some, decide_eq_true_eq, ht]
  exact ⟨hd, dueTimer_of hn⟩

theorem handoverTimer_expires (s : State) (h n : Nat) (serial : Serial) (c : Handover) (hr : s.resetHeld = false)
    (hs : (s.entry h).serial = some serial) (hc : (s.entry h).handover = some c) (ht : c.timer = some n) (hn : n ≤ 1)
    (hd : c.direction = .outbound) :
    ∃ t, exec (.handoverTimerExpiry h) s = .next t ∧ Offered (s.handoverExpired h serial) t := by
  refine ⟨(s.handoverExpired h serial).settle, ?_, settle_offered _⟩
  have harm : exec (.handoverTimerExpiry h) s = execHandoverTimerExpiry h s := rfl
  rw [harm, execHandoverTimerExpiry, if_neg (by rw [hr]; decide), hs]
  dsimp only
  rw [if_pos (handoverDue_of hc hd ht hn)]

theorem inboundTimer_expires (s : State) (h n : Nat) (serial : Serial) (c : Handover) (hr : s.resetHeld = false)
    (hs : (s.entry h).serial = some serial) (hc : (s.entry h).handover = some c) (ht : c.timer = some n) (hn : n ≤ 1)
    (hd : c.direction = .inbound) (ha : (s.entry h).state = .arriving) :
    ∃ t, exec (.inboundTimerExpiry h) s = .next t ∧ Offered ((s.freeEntry h).withdraw (isAcceptOf serial)) t := by
  refine ⟨((s.freeEntry h).withdraw (isAcceptOf serial)).settle, ?_, settle_offered _⟩
  have harm : exec (.inboundTimerExpiry h) s = execInboundTimerExpiry h s := rfl
  rw [harm, execInboundTimerExpiry, if_neg (by rw [hr]; decide), hs]
  dsimp only
  rw [if_pos ⟨handoverDue_of hc hd ht hn, ha⟩]

theorem lostTimer_expires (s : State) (h n : Nat) (hr : s.resetHeld = false) (hs : (s.entry h).state = .lost)
    (ht : (s.entry h).lostTimer = some n) (hn : n ≤ 1) :
    ∃ t, exec (.lostTimerExpiry h) s = .next t ∧ Offered ((s.enterClosing h (.released .lostTimeout) true).pushEvent
      (.homeReleased (s.entry h).serial h .lostTimeout)) t := by
  refine ⟨(s.release h .lostTimeout true).settle, ?_, settle_offered _⟩
  have harm : exec (.lostTimerExpiry h) s = execLostTimerExpiry h s := rfl
  rw [harm, execLostTimerExpiry, if_neg (by rw [hr]; decide), if_pos ⟨hs, by rw [ht]; exact dueTimer_of hn⟩]

theorem handoverExpired_leaving (s : State) (h : Nat) (serial : Serial) (hs : (s.entry h).state = .leaving) :
    s.handoverExpired h serial =
      ((s.returnActive h).withdraw (isOfferOf serial)).movedOut (s.entry h) serial .returnedTimeout := by
  unfold State.handoverExpired
  dsimp only
  rw [hs]

/-- RECLAIM is queued for the context, its timer stopped (R131, R135). -/
theorem queueReclaim_context (s : State) (h : Nat) (serial : Serial) (cause : ReclaimCause) (c : Handover)
    (hc : (s.entry h).handover = some c) :
    s.queueReclaim h serial cause =
      (s.setEntry h { s.entry h with handover := some { c with timer := none, reclaim := some cause } }).queueNotice
        (.reclaim serial s.channel) := by
  unfold State.queueReclaim
  rw [hc]
  rfl

theorem handoverExpired_tuning (s : State) (h : Nat) (serial : Serial) (c : Handover) (hh : 1 ≤ h ∧ h ≤ 64)
    (hs : (s.entry h).state = .tuning) (hc : (s.entry h).handover = some c) :
    s.handoverExpired h serial =
      (s.setEntry h { (s.entry h).dropTune with
        handover := some { c with timer := none, reclaim := some .timeout } }).queueNotice (.reclaim serial s.channel) := by
  have hdrop := entry_setEntry_self s h (s.entry h).dropTune hh
  unfold State.handoverExpired
  dsimp only
  rw [hs]
  dsimp only
  rw [queueReclaim_context _ h serial .timeout c (by rw [hdrop]; exact hc), hdrop, setEntry_setEntry]
  rfl

theorem handoverExpired_handed (s : State) (h : Nat) (serial : Serial) (c : Handover)
    (hs : (s.entry h).state = .handed) (hc : (s.entry h).handover = some c) :
    s.handoverExpired h serial = ((s.withdraw (isAccountOf serial)).setEntry h
      { s.entry h with handover := some { c with timer := none, reclaim := some .timeout } }).queueNotice
        (.reclaim serial s.channel) := by
  refine Eq.trans ?_ (queueReclaim_context (s.withdraw (isAccountOf serial)) h serial .timeout c hc)
  unfold State.handoverExpired
  dsimp only
  rw [hs]

theorem dropTune_of (e : Entry) (b : Bool) (hb : (e.mailbox.any fun m => m.kind.isTune) = b) :
    e.dropTune = if b then { e with mailbox := none } else e := by
  unfold Entry.dropTune
  rw [hb]
  cases b <;> rfl

theorem moveTimers (s : State) (h n : Nat) (serial : Serial) (ctx : Handover) (hr : s.resetHeld = false)
    (hserial : (s.entry h).serial = some serial) (hctx : (s.entry h).handover = some ctx) (htimer : ctx.timer = some n)
    (hn : n ≤ 1) (hdir : ctx.direction = .outbound) : ∃ t, exec (.handoverTimerExpiry h) s = .next t ∧
      ((s.entry h).state = .leaving → Returned s t h ∧
        (∀ who, t.outgoing who = (s.withdraw (isOfferOf serial)).outgoing who) ∧
        Raised s t (.homeMoved serial s.channel ctx.peer ctx.newHandle .returnedTimeout)) ∧
      ((s.entry h).state = .tuning →
        let e := { s.entry h with handover := some { ctx with timer := none, reclaim := some .timeout } }
        ((s.entry h).mailbox.any (fun m => m.kind.isTune) = true →
          Offered ((s.setEntry h { e with mailbox := none }).queueNotice (.reclaim serial s.channel)) t) ∧
        ((s.entry h).mailbox.any (fun m => m.kind.isTune) = false →
          Offered ((s.setEntry h e).queueNotice (.reclaim serial s.channel)) t)) ∧
      ((s.entry h).state = .handed →
        Offered (((s.withdraw (isAccountOf serial)).setEntry h
          { s.entry h with handover := some { ctx with timer := none, reclaim := some .timeout } }).queueNotice
            (.reclaim serial s.channel)) t) := by
  obtain ⟨t, hexec, hoff⟩ := handoverTimer_expires s h n serial ctx hr hserial hctx htimer hn hdir
  refine ⟨t, hexec, fun hs => ?_, fun hs => ⟨fun hm => ?_, fun hm => ?_⟩, fun hs => ?_⟩
  · rw [handoverExpired_leaving s h serial hs] at hoff
    obtain ⟨slot, hslot⟩ := returnActive_port s h (.inl hs)
    obtain ⟨hreturned, hraised⟩ := returned_moved (.refl s) (.inl hs) hctx (withdraw_noticesOnly _ _) ⟨rfl, rfl⟩ hoff
    refine ⟨hreturned, fun who => ?_, hraised⟩
    exact (hoff.notices who).trans ((pushEvent_outgoing _ _ who).trans (withdraw_outgoing_of_port hslot _ who))
  · have hh := handle_of_state s h (by rw [hs]; decide)
    rwa [handoverExpired_tuning s h serial ctx hh hs hctx, dropTune_of _ true hm] at hoff
  · have hh := handle_of_state s h (by rw [hs]; decide)
    rwa [handoverExpired_tuning s h serial ctx hh hs hctx, dropTune_of _ false hm] at hoff
  · rwa [handoverExpired_handed s h serial ctx hs hctx] at hoff

/-! ### Withdrawals (R177) -/

/-- A withdrawal while no notice is in transmission takes what it names from the slot, from those presented and from the queue. -/
theorem withdraw_outgoing_idle (s : State) (test : Notice → Bool) (ht : s.slp.transmitting ≠ some .notice)
    (who : Producer) : (s.withdraw test).outgoing who = (s.outgoing who).filter fun n => !test n := by
  have hslot : (((s.withdraw test).slp.noticeSlot.toList.map SlotNotice.notice).filter fun n => n.producer = who) =
      (((s.slp.noticeSlot.toList.map SlotNotice.notice).filter fun n => n.producer = who).filter fun n => !test n) := by
    unfold State.withdraw LinePort.withdraw
    dsimp only
    cases s.slp.noticeSlot with
    | none => rfl
    | some x =>
      by_cases hx : test x.notice = true
      · by_cases hp : x.notice.producer = who <;> simp [hx, ht, hp]
      · by_cases hp : x.notice.producer = who <;> simp [hx, hp]
  have hlist (xs : List Notice) : ((xs.filter fun n => !test n).filter fun n => decide (n.producer = who)) =
      (xs.filter fun n => decide (n.producer = who)).filter fun n => !test n := by
    rw [List.filter_filter, List.filter_filter]
    exact congrArg (fun p => List.filter p xs) (funext fun n => Bool.and_comm _ _)
  unfold State.outgoing LinePort.queue
  rw [hslot, List.filter_append, List.filter_append, ← hlist s.slp.presented,
    ← hlist s.slp.queued]
  rfl

theorem withdraw_slot (s : State) (test : Notice → Bool) (x : SlotNotice) (hx : s.slp.noticeSlot = some x) :
    (s.withdraw test).slp.noticeSlot =
      if test x.notice = true then
        (if s.slp.transmitting = some .notice then some { x with withdrawn := true } else none)
      else some x := by
  unfold State.withdraw LinePort.withdraw
  dsimp only
  rw [hx]

/-- Settles O33: RECLAIM by the end of the move, each timer by its own effect, a withdrawal by the three places of a notice. -/
theorem reclaimCarried : Obligations.ReclaimCarried := by
  unfold Obligations.ReclaimCarried
  refine ⟨fun s serial f hr => ⟨fun ht => ?_, fun st => ?_⟩, fun s h n serial ctx hr hserial hctx htimer hn =>
    ⟨moveTimers s h n serial ctx hr hserial hctx htimer hn, fun hdir hs => ?_⟩, lostTimer_expires, fun s test =>
    ⟨rfl, rfl, fun hx => ?_, withdraw_slot s test, withdraw_outgoing_idle s test, rfl, rfl⟩⟩
  · obtain ⟨t, hexec, hnone, hsome⟩ := ownReclaim s serial f hr ht
    refine ⟨t, hexec, hnone, fun h hf => ?_⟩
    obtain ⟨hignored, hcontext⟩ := hsome h hf
    refine ⟨hignored, fun ctx hctx => ?_⟩
    obtain ⟨hunrecorded, hreturned, hhanded⟩ := hcontext ctx hctx
    refine ⟨hunrecorded, fun cause hs hrec => ?_, hhanded⟩
    have hback := hreturned cause hs hrec
    cases cause with
    | tuneFailed => exact hback
    | timeout => exact hback
  · obtain ⟨t, hexec, hoff⟩ := reclaim_other s st serial f hr
    refine ⟨t, hexec, fun hf => ?_, fun h hf => ?_⟩
    · rwa [reclaimHeard_none s.lineHeard serial f hf] at hoff
    have hheard := reclaimHeard_some s.lineHeard serial f h hf
    rw [hheard] at hoff
    refine ⟨fun ha htak => ?_, fun ctx hctx hs => ⟨fun hno => ?_, fun hdir hpeer => ?_⟩⟩
    · rwa [if_neg fun x => x.1.elim ha htak] at hoff
    · rwa [if_neg] at hoff
      rintro ⟨-, hin⟩
      obtain ⟨hdir, hpeer⟩ := (inFrom_eq_true hctx).1 hin
      exact hno.elim (fun hout => absurd (hdir.symm.trans hout) (by decide)) fun hne => hne hpeer
    · rw [if_pos ⟨hs, (inFrom_eq_true hctx).2 ⟨hdir, hpeer⟩⟩] at hoff
      obtain ⟨he, ha, hu, ⟨hothers, htables, hline, hrest⟩, hquiet⟩ := freed_withdrawn hoff
      exact ⟨hoff, he, ha, hu, ⟨hothers, htables, hline, hrest⟩, hquiet⟩
  · obtain ⟨t, hexec, hoff⟩ := inboundTimer_expires s h n serial ctx hr hserial hctx htimer hn hdir hs
    exact ⟨t, hexec, hoff, freed_withdrawn hoff⟩
  · unfold State.withdraw LinePort.withdraw
    dsimp only
    rw [hx]

end Sys2Proof.Machine
end

section
/-! PROOFS. Charges, posting and the closing of an entry: obligation O15. -/

namespace Sys2Proof.Machine

/-! ### Debits (R154, R155, R159) -/

theorem metered_iff (m : Mode) : metered m = true ↔ m ≠ .unmetered := by cases m <;> decide

/-- A debit applied once, in full: the quota state follows only where millis are debited. -/
theorem debitIf_eq (a : Account) (x : Nat) (hc : a.counters.charged ≤ Config.counterMax)
    (ho : a.counters.overdraw ≤ Config.counterMax) :
    a.debitIf x = { a with
      credit := a.credit - x
      quota := if x = 0 then a.quota else quotaOf a.mode (a.credit - x) a.lowWater
      counters := { a.counters with
        charged := min Config.counterMax (a.counters.charged + x)
        overdraw := min Config.counterMax (a.counters.overdraw + (x - a.credit)) } } := by
  unfold Account.debitIf
  by_cases hx : x = 0
  · subst hx
    simp only [if_true, Nat.sub_zero, Nat.add_zero, Nat.zero_sub, Nat.min_eq_right hc, Nat.min_eq_right ho]
  · rw [if_neg hx, if_neg hx]
    rfl

/-- Two debits one after the other are the debit of their sum. -/
theorem debitIf_debitIf (a : Account) (x y : Nat) (hc : a.counters.charged ≤ Config.counterMax)
    (ho : a.counters.overdraw ≤ Config.counterMax) : (a.debitIf x).debitIf y = a.debitIf (x + y) := by
  by_cases hx : x = 0
  · subst hx
    rw [Nat.zero_add]
    rfl
  by_cases hy : y = 0
  · subst hy
    rfl
  have hcredit : a.credit - x - y = a.credit - (x + y) := by omega
  have hcharged : min Config.counterMax (min Config.counterMax (a.counters.charged + x) + y) =
      min Config.counterMax (a.counters.charged + (x + y)) := by omega
  have hover : min Config.counterMax (min Config.counterMax (a.counters.overdraw + (x - a.credit)) + (y - (a.credit - x))) =
      min Config.counterMax (a.counters.overdraw + (x + y - a.credit)) := by omega
  rw [debitIf_eq a (x + y) hc ho, debitIf_eq a x hc ho, debitIf_eq _ y (Nat.min_le_left _ _) (Nat.min_le_left _ _)]
  dsimp only
  rw [hcredit, hcharged, hover, if_neg hy, if_neg fun h => hx (Nat.eq_zero_of_add_eq_zero_right h)]

theorem finalCharge_unmetered (a : Account) (b : Band) (hm : a.mode = .unmetered) :
    a.finalCharge b = { a with residueUp := 0, residueDown := 0 } := by
  have hno : metered a.mode = false := by rw [hm]; rfl
  unfold Account.finalCharge
  rw [hno]
  rfl

theorem finalCharge_metered (a : Account) (b : Band) (hm : a.mode ≠ .unmetered)
    (hc : a.counters.charged ≤ Config.counterMax) (ho : a.counters.overdraw ≤ Config.counterMax) :
    a.finalCharge b = { a.debitIf (b.priceUp * a.residueUp / 65536 + b.priceDown * a.residueDown / 65536) with
      residueUp := 0, residueDown := 0 } := by
  rw [← debitIf_debitIf a _ _ hc ho]
  unfold Account.finalCharge
  rw [(metered_iff a.mode).2 hm]
  rfl

/-! ### The account of a closing entry (R159, R162, R163, R166) -/

theorem debitIf_else (a : Account) (x : Nat) :
    ∃ c q k, a.debitIf x = { a with credit := c, quota := q, counters := k } := by
  unfold Account.debitIf
  split
  · exact ⟨_, _, _, rfl⟩
  · exact ⟨_, _, _, rfl⟩

/-- The final charge leaves the mode, the period's opening, its adjustments and the snapshot as they were. -/
theorem finalCharge_else (a : Account) (b : Band) :
    ∃ c q k, a.finalCharge b = { a with credit := c, quota := q, counters := k, residueUp := 0, residueDown := 0 } := by
  unfold Account.finalCharge
  dsimp only
  split
  · obtain ⟨c, q, k, hup⟩ := debitIf_else a (b.priceUp * a.residueUp / Config.blockBytes)
    obtain ⟨c', q', k', hdown⟩ := debitIf_else (a.debitIf (b.priceUp * a.residueUp / Config.blockBytes))
      (b.priceDown * a.residueDown / Config.blockBytes)
    rw [hdown, hup]
    exact ⟨c', q', k', rfl⟩
  · exact ⟨a.credit, a.quota, a.counters, rfl⟩

/-- The account as it stands before its final snapshot is formed. -/
def Account.charged (a : Account) (kind : RecordKind) (b : Band) : Account :=
  if kind = .handoverOut then a else a.finalCharge b

theorem charged_else (a : Account) (kind : RecordKind) (b : Band) :
    (a.charged kind b).mode = a.mode ∧ (a.charged kind b).creditOpen = a.creditOpen ∧
      (a.charged kind b).adjusted = a.adjusted ∧ (a.charged kind b).periodFirst = a.periodFirst ∧
      (a.charged kind b).snapshot = a.snapshot := by
  unfold Account.charged
  split
  · exact ⟨rfl, rfl, rfl, rfl, rfl⟩
  · obtain ⟨c, q, k, heq⟩ := finalCharge_else a b
    rw [heq]
    exact ⟨rfl, rfl, rfl, rfl, rfl⟩

theorem finish_eq (a : Account) (kind : RecordKind) (b : Band) (period : Nat) :
    a.finish kind b period = (a.charged kind b).closeFinal kind period := by
  unfold Account.finish Account.charged
  split <;> rfl

/-- Where no snapshot waits the final one is formed of the charged account (R162, R166). -/
theorem finalSnapshot_formed (a : Account) (kind : RecordKind) (b : Band) (period : Nat) (hs : a.snapshot = none) :
    (a.charged kind b).snapshotThrough (some kind) period =
      { kind := kind, firstPeriod := min a.periodFirst period, lastPeriod := period, mode := a.mode,
        opening := a.creditOpen, closing := (a.charged kind b).credit, counters := (a.charged kind b).counters,
        adjusted := a.adjusted, rolled := 0 } := by
  obtain ⟨hmode, hopen, hadj, hfirst, hsnap⟩ := charged_else a kind b
  unfold Account.snapshotThrough Account.formSnapshot
  rw [hsnap, hs, hmode, hopen, hadj, hfirst]
  rfl

/-- Where one waits the period is merged into it (R163, R166). -/
theorem finalSnapshot_merged (a : Account) (kind : RecordKind) (b : Band) (period : Nat) (old : Snapshot)
    (hs : a.snapshot = some old) :
    (a.charged kind b).snapshotThrough (some kind) period =
      { kind := kind, firstPeriod := old.firstPeriod, lastPeriod := period, mode := a.mode, opening := old.opening,
        closing := (a.charged kind b).credit, counters := old.counters.add (a.charged kind b).counters,
        adjusted := old.adjusted + a.adjusted,
        rolled := old.rolled + ((a.creditOpen : Int) - (old.closing : Int)) } := by
  obtain ⟨hmode, hopen, hadj, -, hsnap⟩ := charged_else a kind b
  unfold Account.snapshotThrough Account.mergeSnapshot
  rw [hsnap, hs, hmode, hopen, hadj]
  rfl

/-! ### Entering CLOSING (R43, R44, R82, R96, R147) -/

theorem enterClosing_drift (s : State) (h : Nat) (kind : RecordKind) (release : Bool) (hh : 1 ≤ h ∧ h ≤ 64) :
    (s.enterClosing h kind release).drift h = { s.drift h with phase := .off } := drift_setDrift_self _ h _ hh

theorem enterClosing_ua (s : State) (h : Nat) (kind : RecordKind) (release : Bool) :
    (s.enterClosing h kind release).ua = { s.ua with booked := s.ua.booked - (s.entry h).bookedTerm } := rfl

/-- The repeat timers of the home's four conditions are stopped, one filter after the other. -/
theorem endConditions_repeats (s : State) (h : Nat) :
    (s.endConditions h).rq.repeats = s.rq.repeats.filter fun r => !(decide (r.source ∈
      [({ kind := .homeDrift, handle := h } : AlarmSource), { kind := .homeLost, handle := h },
       { kind := .creditLow, handle := h }, { kind := .creditExhausted, handle := h }])) := by
  unfold State.endConditions State.endCredit State.endCondition
  dsimp only
  rw [List.filter_filter, List.filter_filter, List.filter_filter]
  refine List.filter_congr fun r _ => ?_
  rw [Bool.eq_iff_iff]
  simp only [List.mem_cons, List.not_mem_nil, or_false, Bool.and_eq_true, decide_eq_true_eq, Bool.not_eq_true',
    decide_eq_false_iff_not, not_or]
  tauto

/-- Settles O15: each debit by its block, the final charge as one debit, posting by rank and carriage, CLOSING by its parts. -/
theorem entryClosed : Obligations.EntryClosed := by
  unfold Obligations.EntryClosed
  refine ⟨fun a bytes price => ⟨fun hm => ?_, fun hm => ?_⟩, fun a b => ⟨finalCharge_unmetered a b, fun hm hc ho => ?_⟩,
    fun e kind => ⟨post_empty e kind, fun m hm => ⟨post_outranked e kind m hm, post_unseen e kind m hm,
      post_replaces e kind m hm⟩⟩, fun _ _ _ _ _ _ => ⟨Nat.le_of_ble_eq_true rfl, Nat.le_of_ble_eq_true rfl,
      Nat.le_of_ble_eq_true rfl⟩, fun s h kind release hlo hhi => ?_⟩
  · have hno : ¬metered a.mode = true := fun h => (metered_iff a.mode).1 h hm
    exact ⟨if_neg hno, if_neg hno⟩
  · have hyes : metered a.mode = true := (metered_iff a.mode).2 hm
    exact ⟨if_pos hyes, if_pos hyes⟩
  · rw [finalCharge_metered a b hm hc ho, debitIf_eq a _ hc ho]
  · have hh : 1 ≤ h ∧ h ≤ 64 := ⟨hlo, hhi⟩
    have hacct := enterClosing_acct s h h kind release
    rw [if_pos ⟨rfl, hh⟩] at hacct
    obtain ⟨hframe, hquiet⟩ := enterClosing_homeStep s h kind release
    refine ⟨?_, enterClosing_drift s h kind release hh, congrArg Allocator.booked (enterClosing_ua s h kind release),
      fun ha => ?_, fun a ha => ?_, endConditions_repeats _ h, hframe, hquiet⟩
    · exact (enterClosing_entry s h h kind release).trans (if_pos ⟨rfl, hh⟩)
    · rw [hacct, ha]
      rfl
    · rw [hacct, ha, Option.map_some, finish_eq]
      cases hs : a.snapshot with
      | none => exact congrArg (fun sn : Snapshot => some { a.charged kind (s.bandAt s.um.band) with
          counters := Counters.zero, adjusted := 0, snapshot := some sn }) (finalSnapshot_formed a kind _ _ hs)
      | some old => exact congrArg (fun sn : Snapshot => some { a.charged kind (s.bandAt s.um.band) with
          counters := Counters.zero, adjusted := 0, snapshot := some sn }) (finalSnapshot_merged a kind _ _ old hs)

end Sys2Proof.Machine
end

section
/-! PROOFS. What an empty slot takes, and the carriage of reports and records: obligation O49. -/

namespace Sys2Proof.Machine

/-! ### What an empty slot takes (R168, R175, R176, R183, R184) -/

/-- The empty notice slot takes the notice presented longest (R176). -/
theorem Offered.takesNotice {u t : State} (o : Offered u t) (he : u.slp.noticeSlot = none) {n : Notice} {rest : List Notice}
    (hp : u.slp.presented = n :: rest) :
    t.slp.noticeSlot = some { notice := n, withdrawn := false } ∧ ∃ later, t.slp.presented = rest ++ later := by
  obtain ⟨later, horder⟩ := o.noticeOrder
  have hport : u.withPort = n :: rest := by simp [State.withPort, he, hp]
  rw [hport] at horder
  cases hslot : t.slp.noticeSlot with
  | none =>
    have hnothing : t.withPort = [] := by simp [State.withPort, hslot, o.noticeLeft hslot]
    exact absurd (hnothing.symm.trans horder) (List.cons_ne_nil _ _).symm
  | some x =>
    have hwith : t.withPort = x.notice :: t.slp.presented := by simp [State.withPort, hslot]
    obtain ⟨hnotice, hrest⟩ := List.cons.inj (hwith.symm.trans horder)
    have hstands : x.withdrawn = false := o.noticeTaken he x hslot
    obtain ⟨notice, withdrawn⟩ := x
    exact ⟨by rw [show notice = n from hnotice, show withdrawn = false from hstands], later, hrest⟩

/-- With an alarm place pending or an event queued, the empty report slot takes a frame (R183, R184). -/
theorem Offered.takesReport {u t : State} (o : Offered u t) (he : u.slp.reportSlot = none)
    (hwaits : u.rq.alarms ≠ [] ∨ u.rq.events ≠ []) : ∃ f, t.slp.reportSlot = some f ∧ ReportTaken u t f := by
  cases hslot : t.slp.reportSlot with
  | some f => exact ⟨f, rfl, o.reportTaken he f hslot⟩
  | none =>
    obtain ⟨hplaces, hevents⟩ := o.reportFull hslot
    refine absurd hwaits (not_or.2 ⟨not_not.2 ?_, not_not.2 (o.events ▸ hevents)⟩)
    have hnone : u.places = [] := (hplaces ▸ o.places).nil_eq.symm
    have hmap : u.rq.alarms.map AlarmPlace.content4 = [] := by simpa [State.places, he] using hnone
    exact List.map_eq_nil_iff.1 hmap

/-- An alarm place goes first (R183). -/
theorem Offered.takesAlarm {u t : State} (o : Offered u t) (he : u.slp.reportSlot = none) (ha : u.rq.alarms ≠ []) :
    ∃ f q, t.slp.reportSlot = some f ∧ f.number = u.rq.reportNumber ∧ f.body = .alarm q none ∧
      t.rq.reportNumber = u.rq.reportNumber + 1 ∧ ∃ p ∈ u.earliest, q.content4 = p.content4 := by
  obtain ⟨f, hslot, hnumber, hnext, ⟨p, hp, q, hbody, hq⟩ | ⟨hnone, -⟩⟩ := o.takesReport he (.inl ha)
  · exact ⟨f, q, hslot, hnumber, hbody, hnext, p, hp, hq⟩
  · exact absurd hnone ha

/-- An event goes where no alarm place is pending (R184). -/
theorem Offered.takesEvent {u t : State} (o : Offered u t) (he : u.slp.reportSlot = none) {e : Event} {rest : List Event}
    (ha : u.rq.alarms = []) (hq : u.rq.events = e :: rest) :
    t.slp.reportSlot = some { number := u.rq.reportNumber, body := .event e u.rq.dropped } ∧
      t.rq.reportNumber = u.rq.reportNumber + 1 := by
  have hwaits : u.rq.events ≠ [] := hq ▸ List.cons_ne_nil e rest
  obtain ⟨f, hslot, hnumber, hnext, ⟨p, hp, -⟩ | ⟨-, e', rest', hq', hbody⟩⟩ := o.takesReport he (.inr hwaits)
  · rw [State.earliest, ha] at hp
    exact absurd hp List.not_mem_nil
  · obtain ⟨hsame, -⟩ := List.cons.inj (hq.symm.trans hq')
    obtain ⟨number, body⟩ := f
    exact ⟨by rw [hslot, show number = _ from hnumber, show body = _ from hbody, hsame], hnext⟩

/-- The empty usage slot takes the record of the lowest handle with a snapshot (R168). -/
theorem Offered.takesUsage {u t : State} (o : Offered u t) (he : u.slp.usageSlot = none) {h : Nat} {sn : Snapshot}
    (hh : h ∈ handles) (hsn : (u.acct h).bind Account.snapshot = some sn)
    (hlow : ∀ k ∈ handles, k < h → (u.acct k).bind Account.snapshot = none) :
    t.slp.usageSlot = some { handle := h, serial := (u.entry h).serial, channel := u.channel, content := sn,
                             number := u.rq.recordNumber, part := .first } ∧
      t.rq.recordNumber = u.rq.recordNumber + 1 := by
  cases hslot : t.slp.usageSlot with
  | none =>
    have hempty := o.usageFull hslot h hh
    rw [o.acct, hsn] at hempty
    exact nomatch hempty
  | some f =>
    obtain ⟨hnext, hf, hbelow, sn', hsn', hframe⟩ := o.usageTaken he f hslot
    have hle : ¬ h < f.handle := fun hlt => nomatch hsn.symm.trans (hbelow h hh hlt)
    have hge : ¬ f.handle < h := fun hlt => nomatch hsn'.symm.trans (hlow f.handle hf hlt)
    have hsame : f.handle = h := by omega
    rw [hsame] at hframe hsn'
    obtain rfl : sn' = sn := Option.some.inj (hsn'.symm.trans hsn)
    exact ⟨congrArg some hframe, hnext⟩

/-! ### Carriage (R169, R176, R183, R184) -/

/-- The state as the carriage of an own frame leaves it with no detachment to report (R178). -/
def State.lineFreed (s : State) : State :=
  { s with slp := { s.slp with transmitting := none, voidCount := 0 }, ports := { s.ports with voidDriven := false } }

/-- With no detachment to report, the carriage of an own frame clears the line's count and raises nothing (R178). -/
theorem ownCarried_attached (s : State) (hspan : s.slp.detachSpan = none) : s.ownCarried = s.lineFreed := by
  unfold State.ownCarried State.lineFreed
  dsimp only
  rw [hspan]

theorem exec_reportCarried (s : State) {f : ReportFrame} (hr : s.resetHeld = false) (hspan : (s.reportGone f).slp.detachSpan = none)
    (ht : s.slp.transmitting = some .report) (hf : s.slp.reportSlot = some f) :
    ∃ t, exec .reportCarried s = .next t ∧ Offered (s.reportGone f).lineFreed t := by
  refine ⟨_, ?_, settle_offered _⟩
  have harm : exec .reportCarried s = execReportCarried s := rfl
  rw [harm, execReportCarried, if_neg (by rw [hr]; decide), ht, hf, ← ownCarried_attached _ hspan]

/-- The second part of the record takes the slot (R176). -/
def State.secondPart (s : State) (f : UsageFrame) : State :=
  { s with slp := { s.slp with usageSlot := some { f with part := .second } } }

theorem exec_usageFirstPartCarried (s : State) {f : UsageFrame} (hr : s.resetHeld = false) (hspan : s.slp.detachSpan = none)
    (ht : s.slp.transmitting = some .usage) (hf : s.slp.usageSlot = some f) (hp : f.part = .first) :
    ∃ t, exec .usageFirstPartCarried s = .next t ∧ Offered (s.secondPart f).lineFreed t := by
  refine ⟨_, ?_, settle_offered _⟩
  have harm : exec .usageFirstPartCarried s = execUsageFirstPartCarried s := rfl
  rw [harm, execUsageFirstPartCarried, if_neg (by rw [hr]; decide), ht, hf, ← ownCarried_attached (s.secondPart f) hspan]
  dsimp only
  rw [hp]
  rfl

theorem exec_usageRecordCarried (s : State) {f : UsageFrame} (hr : s.resetHeld = false)
    (hspan : (s.recordCarried f).slp.detachSpan = none) (ht : s.slp.transmitting = some .usage)
    (hf : s.slp.usageSlot = some f) (hp : f.part = .second) :
    ∃ t, exec .usageRecordCarried s = .next t ∧ Offered (s.recordCarried f).lineFreed t := by
  refine ⟨_, ?_, settle_offered _⟩
  have harm : exec .usageRecordCarried s = execUsageRecordCarried s := rfl
  rw [harm, execUsageRecordCarried, if_neg (by rw [hr]; decide), ht, hf, ← ownCarried_attached _ hspan]
  dsimp only
  rw [hp]

/-- The carriage of an alarm with no later report leaves its place idle. -/
theorem reportGone_alarm (s : State) (f : ReportFrame) (p : AlarmPlace) (hb : f.body = .alarm p none) :
    s.reportGone f = { s with slp := { s.slp with reportSlot := none } } := by
  unfold State.reportGone
  dsimp only
  rw [hb]

/-- The carriage of an alarm leaves its place pending with the later report behind it. -/
theorem reportGone_later (s : State) (f : ReportFrame) (p l : AlarmPlace) (hb : f.body = .alarm p (some l)) :
    s.reportGone f = { s with
      slp := { s.slp with reportSlot := none }
      rq := { s.rq with alarms := s.rq.alarms ++ [{ l with age := .fresh }] } } := by
  unfold State.reportGone
  dsimp only
  rw [hb]

/-- The carriage of an event takes it from the queue, and a marked one clears the dropped flag. -/
theorem reportGone_event (s : State) (f : ReportFrame) (e : Event) (marked : Bool) (hb : f.body = .event e marked) :
    s.reportGone f = { s with
      slp := { s.slp with reportSlot := none }
      rq := { s.rq with events := s.rq.events.tail, dropped := s.rq.dropped && !marked } } := by
  have hflag : (if marked = true then false else s.rq.dropped) = (s.rq.dropped && !marked) := by
    cases marked <;> simp
  unfold State.reportGone
  dsimp only
  rw [hb]
  dsimp only
  rw [hflag]

theorem reportGone_span (s : State) (f : ReportFrame) : (s.reportGone f).slp.detachSpan = s.slp.detachSpan := by
  unfold State.reportGone
  split <;> rfl

/-! ### A record carried (R44, R169) -/

/-- The account once its record is carried: the carried content has left its snapshot. -/
def Account.carried (a : Account) (sn content : Snapshot) : Account := { a with snapshot := sn.afterCarriage content }

theorem recordCarried_eq (s : State) (f : UsageFrame) {a : Account} {sn : Snapshot} (ha : s.acct f.handle = some a)
    (hsn : a.snapshot = some sn) :
    s.recordCarried f =
      if sn.afterCarriage f.content = none ∧ f.content.kind ≠ .period ∧ (s.entry f.handle).state = .closing then
        (State.setAcct { s with slp := { s.slp with usageSlot := none } } f.handle (some (a.carried sn f.content))).freeEntry
          f.handle
      else State.setAcct { s with slp := { s.slp with usageSlot := none } } f.handle (some (a.carried sn f.content)) := by
  unfold State.recordCarried
  dsimp only
  rw [ha]
  dsimp only
  rw [hsn]
  rfl

theorem Snapshot.afterCarriage_eq_none (sn c : Snapshot) : sn.afterCarriage c = none ↔ sn = c := by
  unfold Snapshot.afterCarriage
  split <;> simp [*]

theorem handle_range_of_acct {s : State} {h : Nat} {a : Account} (ha : s.acct h = some a) : 1 ≤ h ∧ h ≤ 64 := by
  by_contra ho
  exact nomatch ha.symm.trans (acct_outside s h ho)

/-- A final record done: the CLOSING entry becomes FREE, and since it was booked no more the sum stands (R44, R82). -/
theorem recordCarried_frees (s : State) (f : UsageFrame) {a : Account} {sn : Snapshot} (ha : s.acct f.handle = some a)
    (hsn : a.snapshot = some sn) (hdone : sn = f.content) (hfinal : f.content.kind ≠ .period)
    (hclosing : (s.entry f.handle).state = .closing) :
    (s.recordCarried f).entry f.handle = Entry.free ∧ (s.recordCarried f).acct f.handle = none ∧
      (s.recordCarried f).ua.booked = s.ua.booked := by
  have hterm : (s.entry f.handle).bookedTerm = 0 := by
    rw [Entry.bookedTerm, hclosing]
    exact if_neg (by decide)
  rw [recordCarried_eq s f ha hsn, if_pos ⟨(sn.afterCarriage_eq_none _).2 hdone, hfinal, hclosing⟩]
  refine ⟨(freeEntry_entry ..).trans (if_pos rfl), (freeEntry_acct ..).trans (if_pos rfl), (freeEntry_booked ..).trans ?_⟩
  change s.ua.booked - (s.entry f.handle).bookedTerm = s.ua.booked
  rw [hterm, Nat.sub_zero]

/-- Any other record carried: the entry stands, and the account keeps what was merged since (R169). -/
theorem recordCarried_stays (s : State) (f : UsageFrame) {a : Account} {sn : Snapshot} (ha : s.acct f.handle = some a)
    (hsn : a.snapshot = some sn)
    (hstays : ¬(sn = f.content ∧ f.content.kind ≠ .period ∧ (s.entry f.handle).state = .closing)) :
    (s.recordCarried f).entry f.handle = s.entry f.handle ∧
      (s.recordCarried f).acct f.handle = some (a.carried sn f.content) := by
  rw [recordCarried_eq s f ha hsn, if_neg (by rwa [Snapshot.afterCarriage_eq_none])]
  exact ⟨rfl, (acct_setAcct ..).trans (if_pos ⟨rfl, handle_range_of_acct ha⟩)⟩

/-- A record carried changes one home at most, and its slot is empty. -/
theorem recordCarried_homeStep (s : State) (f : UsageFrame) :
    HomeStep s (s.recordCarried f) f.handle ∧ (s.recordCarried f).slp.usageSlot = none ∧
      (s.recordCarried f).rq.recordNumber = s.rq.recordNumber ∧ (s.recordCarried f).slp.detachSpan = s.slp.detachSpan := by
  have hslot : HomeStep s { s with slp := { s.slp with usageSlot := none } } f.handle := HomeStep.refl s f.handle
  unfold State.recordCarried
  dsimp only
  split
  · exact ⟨hslot, rfl, rfl, rfl⟩
  split
  · exact ⟨hslot, rfl, rfl, rfl⟩
  split
  · exact ⟨(hslot.trans (setAcct_homeStep ..)).trans (freeEntry_frame ..), rfl, rfl, rfl⟩
  · exact ⟨hslot.trans (setAcct_homeStep ..), rfl, rfl, rfl⟩

/-- What the empty usage slot took is the first part of the lowest record, read where the frames stand offered (R168). -/
theorem Offered.usageRefilled {u t : State} (o : Offered u t) (he : u.slp.usageSlot = none) {g : UsageFrame}
    (hg : t.slp.usageSlot = some g) :
    g.part = .first ∧ g.number = u.rq.recordNumber ∧ t.rq.recordNumber = u.rq.recordNumber + 1 ∧
      (t.acct g.handle).bind Account.snapshot = some g.content ∧
      ∀ k ∈ handles, k < g.handle → (t.acct k).bind Account.snapshot = none := by
  obtain ⟨hnext, -, hbelow, sn, hsn, hframe⟩ := o.usageTaken he g hg
  have hpart : g.part = .first := congrArg UsageFrame.part hframe
  have hnumber : g.number = u.rq.recordNumber := congrArg UsageFrame.number hframe
  have hcontent : g.content = sn := congrArg UsageFrame.content hframe
  refine ⟨hpart, hnumber, hnext, by rw [o.acct, hsn, hcontent], fun k hk hlt => ?_⟩
  rw [o.acct]
  exact hbelow k hk hlt

/-- The line freed, and the frames offered: no home changes, and nothing is raised. -/
theorem lineFreed_frame {s u t : State} {h : Nat} (hu : HomeStep s u h) (o : Offered u.lineFreed t) :
    OthersSame s t h ∧ TablesSame s t ∧ NoEvent s t ∧ t.slp.transmitting = none ∧ t.slp.voidCount = 0 := by
  obtain ⟨⟨hothers, htables, -⟩, hevents, hdropped⟩ := hu
  obtain ⟨-, -, -, -, -, hfree⟩ := o.lineSame
  refine ⟨OthersSame.trans hothers (o.others h), TablesSame.trans htables ?_, ⟨o.events.trans hevents, o.dropped.trans hdropped⟩,
    hfree, o.voidCount⟩
  exact o.tables

/-- Settles O49: an empty slot takes what the clauses of `Offered` leave as the one choice; a carried report leaves its
place or the queue; a carried record leaves its snapshot, and a done final one frees the CLOSING entry. -/
theorem reportsCarried : Obligations.ReportsCarried := by
  unfold Obligations.ReportsCarried
  refine ⟨fun u t o => ⟨fun he n rest hp => o.takesNotice he hp,
    fun he => ⟨o.takesAlarm he, fun e rest ha hq => o.takesEvent he ha hq⟩,
    fun h sn he hh hsn hlow => o.takesUsage he hh hsn hlow⟩, fun s hr hspan => ⟨fun f ht hf => ?_, fun f ht hf =>
      ⟨fun hp => exec_usageFirstPartCarried s hr hspan ht hf hp, fun a sn hp ha hsn => ?_⟩⟩⟩
  · obtain ⟨t, hexec, o⟩ := exec_reportCarried s hr ((reportGone_span s f).trans hspan) ht hf
    refine ⟨t, hexec, fun p hb => ?_, fun p l hb => ?_, fun e marked hb => ?_⟩
    · rw [reportGone_alarm s f p hb] at o
      exact o
    · rw [reportGone_later s f p l hb] at o
      exact o
    · rw [reportGone_event s f e marked hb] at o
      exact o
  · obtain ⟨hstep, hempty, hnumber, hspan'⟩ := recordCarried_homeStep s f
    obtain ⟨t, hexec, o⟩ := exec_usageRecordCarried s hr (hspan'.trans hspan) ht hf hp
    obtain ⟨hothers, htables, hquiet, hline, hcount⟩ := lineFreed_frame hstep o
    refine ⟨t, hexec, hothers, htables, hquiet, hline, hcount, fun g hg => ?_, o.usageFull,
      fun hdone hfinal hclosing => ?_, fun hdone hstays => ?_, fun hmerged => ?_⟩
    · rw [← hnumber]
      exact o.usageRefilled hempty hg
    · obtain ⟨hentry, hacct, hbooked⟩ := recordCarried_frees s f ha hsn hdone hfinal hclosing
      exact ⟨(o.entry _).trans hentry, (o.acct _).trans hacct, (congrArg _ o.ua).trans hbooked⟩
    · obtain ⟨hentry, hacct⟩ := recordCarried_stays s f ha hsn fun hx => hstays.elim hx.2.1 fun hn => hn hx.2.2
      refine ⟨(o.entry _).trans hentry, (o.acct _).trans (hacct.trans ?_)⟩
      rw [Account.carried, (sn.afterCarriage_eq_none _).2 hdone]
    · obtain ⟨hentry, hacct⟩ := recordCarried_stays s f ha hsn fun hx => hmerged hx.1
      refine ⟨(o.entry _).trans hentry, (o.acct _).trans (hacct.trans ?_)⟩
      rw [Account.carried, Snapshot.afterCarriage, if_neg hmerged]

end Sys2Proof.Machine
end

section
/-! PROOFS. The carriage of a result, and the start of draining: obligation O45. -/

namespace Sys2Proof.Machine

/-! ### The start of draining at one home (R43, R140, R192) -/

section DrainEntry
variable {s : State} {h : Nat}

theorem drainEntry_closes (hs : (s.entry h).state = .active ∨ (s.entry h).state = .lost) :
    s.drainEntry h = s.enterClosing h .restart true := by
  unfold State.drainEntry
  dsimp only
  obtain hs | hs := hs <;> rw [hs]

theorem drainEntry_leaving (hs : (s.entry h).state = .leaving) :
    s.drainEntry h =
      if s.slp.offerWaits ((s.entry h).serial.getD 0) then
        (s.enterClosing h .restart true).withdraw (isOfferOf ((s.entry h).serial.getD 0))
      else (s.enterClosing h .restart true).queueNotice (.reclaim ((s.entry h).serial.getD 0) s.channel) := by
  unfold State.drainEntry
  dsimp only
  rw [hs]

theorem drainEntry_tuning (hs : (s.entry h).state = .tuning) :
    s.drainEntry h =
      if ((s.entry h).handover.bind Handover.reclaim).isSome then s.enterClosing h .restart true
      else (s.enterClosing h .restart true).queueNotice (.reclaim ((s.entry h).serial.getD 0) s.channel) := by
  unfold State.drainEntry
  dsimp only
  rw [hs]

/-- With no notice in transmission a TAKEN is withdrawn as an ACCEPT is. -/
theorem drainEntry_frees (hidle : s.slp.transmitting ≠ some .notice)
    (hs : (s.entry h).state = .arriving ∨ (s.entry h).state = .taking) :
    s.drainEntry h = (s.freeEntry h).withdraw (isTargetNoticeOf ((s.entry h).serial.getD 0)) := by
  have hsends : s.slp.takenSending ((s.entry h).serial.getD 0) = false := by simp [LinePort.takenSending, hidle]
  unfold State.drainEntry
  dsimp only
  obtain hs | hs := hs <;> rw [hs]
  exact if_neg (by rw [hsends]; decide)

theorem drainEntry_stays (hs : (s.entry h).state = .handed ∨ (s.entry h).state = .claiming ∨
    (s.entry h).state = .confirming ∨ (s.entry h).state = .closing ∨ (s.entry h).state = .free) : s.drainEntry h = s := by
  unfold State.drainEntry
  dsimp only
  obtain hs | hs | hs | hs | hs := hs <;> rw [hs]

end DrainEntry

/-- What draining makes of a home: one served here is closed, one arriving is FREE, any other stands. -/
inductive HomeDrained (s t : State) (h : Nat) : Prop where
  | closed (hs : (s.entry h).state = .active ∨ (s.entry h).state = .leaving ∨ (s.entry h).state = .tuning ∨
        (s.entry h).state = .lost)
      (hentry : t.entry h = (s.entry h).toClosing true) (hacct : t.acct h = (s.enterClosing h .restart true).acct h)
  | freed (hs : (s.entry h).state = .arriving ∨ (s.entry h).state = .taking)
      (hentry : t.entry h = Entry.free) (hacct : t.acct h = none)
  | stands (hs : (s.entry h).state = .handed ∨ (s.entry h).state = .claiming ∨ (s.entry h).state = .confirming ∨
        (s.entry h).state = .closing ∨ (s.entry h).state = .free)
      (hentry : t.entry h = s.entry h) (hacct : t.acct h = s.acct h)

theorem HomeDrained.mono {s t u : State} {h : Nat} (x : HomeDrained s t h) (hentry : u.entry h = t.entry h)
    (hacct : u.acct h = t.acct h) : HomeDrained s u h := by
  cases x with
  | closed hs he ha => exact .closed hs (hentry.trans he) (hacct.trans ha)
  | freed hs he ha => exact .freed hs (hentry.trans he) (hacct.trans ha)
  | stands hs he ha => exact .stands hs (hentry.trans he) (hacct.trans ha)

/-- The closing account reads its own account, the band in force and the period. -/
theorem enterClosing_acct_congr {s t : State} {h : Nat} {kind : RecordKind} {release : Bool} (hacct : t.acct h = s.acct h)
    (htables : TablesSame s t) : (t.enterClosing h kind release).acct h = (s.enterClosing h kind release).acct h := by
  obtain ⟨htariff, -, hband, hperiod⟩ := htables
  rw [enterClosing_acct, enterClosing_acct, hacct, hband, hperiod]
  unfold State.bandAt
  rw [htariff]

theorem HomeDrained.of_same {s s' t : State} {h : Nat} (x : HomeDrained s' t h) (hentry : s'.entry h = s.entry h)
    (hacct : s'.acct h = s.acct h) (htables : TablesSame s s') : HomeDrained s t h := by
  cases x with
  | closed hs he ha =>
    rw [hentry] at hs he
    exact .closed hs he (ha.trans (enterClosing_acct_congr hacct htables))
  | freed hs he ha => exact .freed (hentry ▸ hs) he ha
  | stands hs he ha => exact .stands (hentry ▸ hs) (he.trans hentry) (ha.trans hacct)

theorem queueNotice_homeStep (s : State) (n : Notice) (h : Nat) : HomeStep s (s.queueNotice n) h :=
  ⟨⟨fun _ _ => ⟨rfl, rfl, rfl⟩, ⟨rfl, rfl, rfl, rfl⟩, ⟨rfl, rfl, rfl, rfl, rfl, rfl⟩, rfl, rfl, rfl, rfl, rfl, rfl, rfl, rfl,
    rfl, rfl⟩, ⟨rfl, rfl⟩⟩

/-- Draining an entry is a change to that home. -/
theorem drainEntry_homeStep (s : State) (h : Nat) : HomeStep s (s.drainEntry h) h := by
  have hclosed := enterClosing_homeStep s h .restart true
  have hfreed : HomeStep s (s.freeEntry h) h := freeEntry_frame s h
  have hwithdrawn (test : Notice → Bool) := hfreed.trans (withdraw_homeStep _ test h)
  unfold State.drainEntry
  dsimp only
  split
  · exact hclosed
  · exact hclosed
  · split
    · exact hclosed.trans (withdraw_homeStep ..)
    · exact hclosed.trans (queueNotice_homeStep ..)
  · split
    · exact hclosed
    · exact hclosed.trans (queueNotice_homeStep ..)
  · exact hwithdrawn _
  · split
    · exact withdraw_homeStep ..
    · exact hwithdrawn _
  all_goals exact .refl s h

theorem enterClosing_drained {s t : State} {h : Nat} (hh : h ∈ handles)
    (hs : (s.entry h).state = .active ∨ (s.entry h).state = .leaving ∨ (s.entry h).state = .tuning ∨ (s.entry h).state = .lost)
    (hroster : t.roster = (s.enterClosing h .restart true).roster) (hua : t.um = (s.enterClosing h .restart true).um) :
    HomeDrained s t h := by
  refine .closed hs ?_ (acct_of_um _ _ hua h)
  exact (entry_of_roster _ _ hroster h).trans ((enterClosing_entry ..).trans (if_pos ⟨rfl, (mem_handles h).1 hh⟩))

/-- What draining makes of one entry, by its state. -/
theorem drainEntry_drained {s : State} {h : Nat} (hh : h ∈ handles) (hidle : s.slp.transmitting ≠ some .notice) :
    HomeDrained s (s.drainEntry h) h := by
  have hstays := drainEntry_stays (s := s) (h := h)
  cases hs : (s.entry h).state
  case active => rw [drainEntry_closes (.inl hs)]; exact enterClosing_drained hh (.inl hs) rfl rfl
  case lost => rw [drainEntry_closes (.inr hs)]; exact enterClosing_drained hh (.inr (.inr (.inr hs))) rfl rfl
  case leaving =>
    rw [drainEntry_leaving hs]
    split <;> exact enterClosing_drained hh (.inr (.inl hs)) rfl rfl
  case tuning =>
    rw [drainEntry_tuning hs]
    split <;> exact enterClosing_drained hh (.inr (.inr (.inl hs))) rfl rfl
  case arriving =>
    rw [drainEntry_frees hidle (.inl hs)]
    exact .freed (.inl hs) ((freeEntry_entry s h h).trans (if_pos rfl)) ((freeEntry_acct s h h).trans (if_pos rfl))
  case taking =>
    rw [drainEntry_frees hidle (.inr hs)]
    exact .freed (.inr hs) ((freeEntry_entry s h h).trans (if_pos rfl)) ((freeEntry_acct s h h).trans (if_pos rfl))
  all_goals
    rw [hstays (by rw [hs]; decide)]
    exact .stands (by rw [hs]; decide) rfl rfl

/-! ### Its notices (R140, R177) -/

/-- Draining withdraws this notice for the home: an OFFER of a LEAVING one, an ACCEPT or TAKEN of an arriving one. -/
def Entry.endsNotice (e : Entry) (n : Notice) : Bool :=
  e.serial.any fun serial =>
    (decide (e.state = .leaving) && isOfferOf serial n) ||
      ((decide (e.state = .arriving) || decide (e.state = .taking)) && isTargetNoticeOf serial n)

/-- Draining queues a RECLAIM for the home, with these notices on their way. -/
def Entry.toldWith (e : Entry) (out : List Notice) : Bool :=
  (decide (e.state = .leaving) && !(out.any fun n => e.serial.any fun serial => isOfferOf serial n)) ||
    (decide (e.state = .tuning) && (e.handover.bind Handover.reclaim).isNone)

/-- The RECLAIM of the home on this channel. -/
def Entry.reclaimOn (e : Entry) (channel : Nat) : Notice := .reclaim (e.serial.getD 0) channel

theorem endsNotice_reclaim (e : Entry) (serial : Serial) (channel : Nat) :
    e.endsNotice (.reclaim serial channel) = false := by
  unfold Entry.endsNotice
  cases e.serial <;> simp [isOfferOf, isTargetNoticeOf]

/-- Where the home neither leaves nor arrives, draining withdraws no notice. -/
theorem endsNotice_settled {e : Entry} (hl : e.state ≠ .leaving) (ha : e.state ≠ .arriving) (ht : e.state ≠ .taking)
    (n : Notice) : e.endsNotice n = false := by
  unfold Entry.endsNotice
  cases e.serial <;> simp [hl, ha, ht]

theorem toldWith_settled {e : Entry} (hl : e.state ≠ .leaving) (ht : e.state ≠ .tuning) (out : List Notice) :
    e.toldWith out = false := by
  unfold Entry.toldWith
  simp [hl, ht]

theorem filter_keeps_all {α : Type} {p : α → Bool} {xs : List α} (hp : ∀ x ∈ xs, p x = false) :
    (xs.filter fun x => !p x) = xs :=
  List.filter_eq_self.2 fun x hx => by rw [hp x hx]; rfl

theorem outgoing_of_slp {s t : State} (ht : t.slp = s.slp) (who : Producer) : t.outgoing who = s.outgoing who := by
  unfold State.outgoing
  rw [ht]

theorem producer_of_isOfferOf {serial : Serial} {n : Notice} (hn : isOfferOf serial n = true) : n.producer = .transfer := by
  cases n <;> simp_all [isOfferOf, Notice.producer]

theorem producer_of_isTargetNoticeOf {serial : Serial} {n : Notice} (hn : isTargetNoticeOf serial n = true) :
    n.producer = .transfer := by
  cases n <;> simp_all [isTargetNoticeOf, Notice.producer]

theorem producer_of_outgoing {s : State} {who : Producer} {n : Notice} (hn : n ∈ s.outgoing who) : n.producer = who := by
  simp only [State.outgoing, LinePort.queue, List.mem_append, List.mem_filter, decide_eq_true_eq] at hn
  obtain (⟨-, hw⟩ | ⟨-, hw⟩) | ⟨-, hw⟩ := hn <;> exact hw

/-- A withdrawal of the transfer's notices leaves another producer's as they were. -/
theorem withdraw_outgoing_other {s : State} {test : Notice → Bool} {who : Producer}
    (hidle : s.slp.transmitting ≠ some .notice) (htest : ∀ n, test n = true → n.producer = .transfer) (hw : who ≠ .transfer) :
    (s.withdraw test).outgoing who = s.outgoing who := by
  rw [withdraw_outgoing_idle s test hidle]
  refine filter_keeps_all fun n hn => Bool.eq_false_iff.2 fun ht => hw ?_
  exact (producer_of_outgoing hn).symm.trans (htest n ht)

/-- An OFFER waits where one is among the transfer's notices on their way. -/
theorem offerWaits_iff (s : State) (serial : Serial) :
    s.slp.offerWaits serial = (s.outgoing .transfer).any (isOfferOf serial) := by
  have hsame (n : Notice) : (decide (n.producer = .transfer) && isOfferOf serial n) = isOfferOf serial n := by
    cases ho : isOfferOf serial n with
    | false => exact Bool.and_false _
    | true => rw [decide_eq_true (producer_of_isOfferOf ho)]; rfl
  unfold LinePort.offerWaits State.outgoing LinePort.queue
  simp only [List.any_append, List.any_filter, hsame]
  cases s.slp.noticeSlot <;> simp [Bool.or_comm, Bool.or_assoc]

/-- Draining one entry withdraws the notices it ends and queues its RECLAIM behind the others. -/
theorem drainEntry_outgoing {s : State} {h : Nat} (hidle : s.slp.transmitting ≠ some .notice)
    (hserial : (s.entry h).state ≠ .free → (s.entry h).serial.isSome = true) :
    (s.drainEntry h).outgoing .transfer =
      ((s.outgoing .transfer).filter fun n => !(s.entry h).endsNotice n) ++
        if (s.entry h).toldWith (s.outgoing .transfer) then [(s.entry h).reclaimOn s.channel] else [] := by
  have hclosed : (s.enterClosing h .restart true).outgoing .transfer = s.outgoing .transfer :=
    outgoing_of_slp (enterClosing_slp ..) _
  have hquiet (hl : (s.entry h).state ≠ .leaving) (ha : (s.entry h).state ≠ .arriving) (ht : (s.entry h).state ≠ .taking)
      (hu : (s.entry h).state ≠ .tuning) :
      ((s.outgoing .transfer).filter fun n => !(s.entry h).endsNotice n) ++
        (if (s.entry h).toldWith (s.outgoing .transfer) then [(s.entry h).reclaimOn s.channel] else []) =
        s.outgoing .transfer := by
    rw [filter_keeps_all fun n _ => endsNotice_settled hl ha ht n, toldWith_settled hl hu, if_neg (by decide), List.append_nil]
  have hfreed (hs : (s.entry h).state = .arriving ∨ (s.entry h).state = .taking) :
      (s.drainEntry h).outgoing .transfer =
        ((s.outgoing .transfer).filter fun n => !(s.entry h).endsNotice n) ++
          if (s.entry h).toldWith (s.outgoing .transfer) then [(s.entry h).reclaimOn s.channel] else [] := by
    obtain ⟨serial, hsome⟩ := Option.isSome_iff_exists.1 (hserial (by obtain hs | hs := hs <;> rw [hs] <;> decide))
    have hends : (s.entry h).endsNotice = isTargetNoticeOf serial := by
      funext n
      unfold Entry.endsNotice
      obtain hs | hs := hs <;> simp [hs, hsome]
    rw [drainEntry_frees hidle hs, withdraw_outgoing_idle _ _ (by rwa [freeEntry_slp]), outgoing_of_slp (freeEntry_slp s h),
      toldWith_settled (by obtain hs | hs := hs <;> rw [hs] <;> decide) (by obtain hs | hs := hs <;> rw [hs] <;> decide),
      if_neg (by decide), List.append_nil, hends, hsome]
    rfl
  cases hs : (s.entry h).state
  case active =>
    rw [drainEntry_closes (.inl hs), hclosed, hquiet] <;> rw [hs] <;> decide
  case lost =>
    rw [drainEntry_closes (.inr hs), hclosed, hquiet] <;> rw [hs] <;> decide
  case leaving =>
    obtain ⟨serial, hsome⟩ := Option.isSome_iff_exists.1 (hserial (by rw [hs]; decide))
    have hends : (s.entry h).endsNotice = isOfferOf serial := by
      funext n
      unfold Entry.endsNotice
      simp [hs, hsome]
    have htold : (s.entry h).toldWith (s.outgoing .transfer) = !(s.outgoing .transfer).any (isOfferOf serial) := by
      unfold Entry.toldWith
      simp [hs, hsome]
    rw [drainEntry_leaving hs, htold, hends, hsome, Option.getD_some, offerWaits_iff]
    cases hany : (s.outgoing .transfer).any (isOfferOf serial) with
    | true =>
      rw [if_pos rfl, withdraw_outgoing_idle _ _ (by rwa [enterClosing_slp]), hclosed]
      exact (List.append_nil _).symm
    | false =>
      have hno : ∀ n ∈ s.outgoing .transfer, isOfferOf serial n = false := by simpa using hany
      rw [if_neg (by decide), queueNotice_outgoing, hclosed, filter_keeps_all hno, Entry.reclaimOn, hsome]
      rfl
  case tuning =>
    rw [drainEntry_tuning hs, filter_keeps_all fun n _ =>
      endsNotice_settled (by rw [hs]; decide) (by rw [hs]; decide) (by rw [hs]; decide) n]
    have htold : (s.entry h).toldWith (s.outgoing .transfer) = ((s.entry h).handover.bind Handover.reclaim).isNone := by
      unfold Entry.toldWith
      simp [hs]
    rw [htold]
    cases (s.entry h).handover.bind Handover.reclaim with
    | some m => exact hclosed.trans (List.append_nil _).symm
    | none =>
      refine (queueNotice_outgoing _ _ _).trans ?_
      rw [hclosed]
      rfl
  case arriving => exact hfreed (.inl hs)
  case taking => exact hfreed (.inr hs)
  all_goals
    rw [drainEntry_stays (by rw [hs]; decide), hquiet] <;> rw [hs] <;> decide

/-- Draining one entry touches no other producer's notices. -/
theorem drainEntry_outgoing_other {s : State} {h : Nat} (hidle : s.slp.transmitting ≠ some .notice) {who : Producer}
    (hw : who ≠ .transfer) : (s.drainEntry h).outgoing who = s.outgoing who := by
  have hclosed : (s.enterClosing h .restart true).outgoing who = s.outgoing who := outgoing_of_slp (enterClosing_slp ..) _
  have hcidle : (s.enterClosing h .restart true).slp.transmitting ≠ some .notice := by rwa [enterClosing_slp]
  have hfreed (serial : Serial) : ((s.freeEntry h).withdraw (isTargetNoticeOf serial)).outgoing who = s.outgoing who :=
    (withdraw_outgoing_other (by rwa [freeEntry_slp]) (fun n hn => producer_of_isTargetNoticeOf hn) hw).trans
      (outgoing_of_slp (freeEntry_slp s h) who)
  have hqueued (serial : Serial) :
      ((s.enterClosing h .restart true).queueNotice (.reclaim serial s.channel)).outgoing who = s.outgoing who := by
    rw [queueNotice_outgoing, hclosed, if_neg fun hp => hw hp.symm, List.append_nil]
  unfold State.drainEntry
  dsimp only
  split
  · exact hclosed
  · exact hclosed
  · split
    · exact (withdraw_outgoing_other hcidle (fun n hn => producer_of_isOfferOf hn) hw).trans hclosed
    · exact hqueued _
  · split
    · exact hclosed
    · exact hqueued _
  · exact hfreed _
  · split
    · exact withdraw_outgoing_other hidle (fun n hn => producer_of_isTargetNoticeOf hn) hw
    · exact hfreed _
  all_goals rfl

end Sys2Proof.Machine
end

section
/-! PROOFS. The start of draining over the roster, and the result carried: obligation O45. -/

namespace Sys2Proof.Machine

/-! ### The roster drained -/

/-- What draining leaves as it was beside the homes: the tables, the line, the start-up state, the results, the events, and
every other producer's notices. -/
structure DrainFrame (s t : State) : Prop where
  tables : TablesSame s t
  transmitting : t.slp.transmitting = s.slp.transmitting
  il : t.il = s.il
  results : t.rq.results = s.rq.results
  quiet : NoEvent s t
  outgoing : ∀ who, who ≠ .transfer → t.outgoing who = s.outgoing who

theorem DrainFrame.refl (s : State) : DrainFrame s s := ⟨⟨rfl, rfl, rfl, rfl⟩, rfl, rfl, rfl, ⟨rfl, rfl⟩, fun _ _ => rfl⟩

theorem DrainFrame.trans {s t u : State} (a : DrainFrame s t) (b : DrainFrame t u) : DrainFrame s u :=
  ⟨a.tables.trans b.tables, b.transmitting.trans a.transmitting, b.il.trans a.il, b.results.trans a.results,
    ⟨b.quiet.1.trans a.quiet.1, b.quiet.2.trans a.quiet.2⟩, fun who hw => (b.outgoing who hw).trans (a.outgoing who hw)⟩

theorem drainEntry_frame {s : State} {h : Nat} (hidle : s.slp.transmitting ≠ some .notice) : DrainFrame s (s.drainEntry h) := by
  obtain ⟨⟨-, htables, hline, -, -, -, -, -, -, hil, hresults, -⟩, hquiet⟩ := drainEntry_homeStep s h
  obtain ⟨-, -, -, -, -, htransmitting⟩ := hline
  exact ⟨htables, htransmitting, hil, hresults, hquiet, fun who hw => drainEntry_outgoing_other hidle hw⟩

/-- A list of entries drained: each as its state says, no other touched. -/
theorem drainAll_drained {hs : List Nat} (hnodup : hs.Nodup) (hsub : ∀ h ∈ hs, h ∈ handles) {s : State}
    (hidle : s.slp.transmitting ≠ some .notice) :
    DrainFrame s (hs.foldl State.drainEntry s) ∧ (∀ h ∈ hs, HomeDrained s (hs.foldl State.drainEntry s) h) ∧
      ∀ k, k ∉ hs → (hs.foldl State.drainEntry s).entry k = s.entry k ∧ (hs.foldl State.drainEntry s).acct k = s.acct k := by
  induction hs generalizing s with
  | nil => exact ⟨.refl s, fun h hh => absurd hh List.not_mem_nil, fun _ _ => ⟨rfl, rfl⟩⟩
  | cons h hs ih =>
    obtain ⟨hnot, hnodup⟩ := List.nodup_cons.1 hnodup
    have hone : DrainFrame s (s.drainEntry h) := drainEntry_frame hidle
    have hothers : OthersSame s (s.drainEntry h) h := (drainEntry_homeStep s h).others
    obtain ⟨hframe, hdrained, hrest⟩ := ih hnodup (fun k hk => hsub k (List.mem_cons_of_mem _ hk))
      (s := s.drainEntry h) (by rwa [hone.transmitting])
    refine ⟨hone.trans hframe, fun k hk => ?_, fun k hk => ?_⟩
    · by_cases hkh : k = h
      · subst hkh
        obtain ⟨hentry, hacct⟩ := hrest k hnot
        exact (drainEntry_drained (hsub k hk) hidle).mono hentry hacct
      · obtain ⟨hentry, hacct, -⟩ := hothers k hkh
        exact (hdrained k ((List.mem_cons.1 hk).resolve_left hkh)).of_same hentry hacct hone.tables
    · obtain ⟨hkh, hks⟩ := not_or.1 (fun hx => hk (List.mem_cons.2 hx))
      obtain ⟨hentry, hacct⟩ := hrest k hks
      obtain ⟨hentry', hacct', -⟩ := hothers k hkh
      exact ⟨hentry.trans hentry', hacct.trans hacct'⟩

/-- A RELEASE posted stands: no message outranks it (R31). -/
theorem post_release_mailbox (e : Entry) : (e.post .release).mailbox.map Message.kind = some .release := by
  cases hm : e.mailbox with
  | none => rw [post_empty e _ hm]; rfl
  | some m =>
    have hrank : m.kind.rank ≤ MsgKind.release.rank := by
      cases m.kind <;> simp [MsgKind.rank]
    by_cases hc : m.carried = 0
    · rw [post_unseen e _ m hm hrank hc]; rfl
    · rw [post_replaces e _ m hm hrank hc]; rfl

theorem toClosing_serial (e : Entry) (release : Bool) : (e.toClosing release).serial = e.serial := by
  unfold Entry.toClosing
  split
  · exact post_serial ..
  · rfl

/-- A home served here is closed, with RELEASE in its mailbox (R192). -/
theorem HomeDrained.closes {s t : State} {h : Nat} (x : HomeDrained s t h)
    (hs : (s.entry h).state = .active ∨ (s.entry h).state = .leaving ∨ (s.entry h).state = .tuning ∨ (s.entry h).state = .lost) :
    (t.entry h).state = .closing ∧ (t.entry h).mailbox.map Message.kind = some .release ∧
      (t.entry h).serial = (s.entry h).serial ∧ t.acct h = (s.enterClosing h .restart true).acct h := by
  cases x with
  | closed _ he ha =>
    rw [he]
    exact ⟨toClosing_state .., post_release_mailbox _, toClosing_serial .., ha⟩
  | freed hother => exact absurd hother (by obtain hx | hx | hx | hx := hs <;> rw [hx] <;> decide)
  | stands hother => exact absurd hother (by obtain hx | hx | hx | hx := hs <;> rw [hx] <;> decide)

/-- A home arriving here is FREE (R140, R192). -/
theorem HomeDrained.frees {s t : State} {h : Nat} (x : HomeDrained s t h)
    (hs : (s.entry h).state = .arriving ∨ (s.entry h).state = .taking) : t.entry h = Entry.free ∧ t.acct h = none := by
  cases x with
  | closed hother => exact absurd hother (by obtain hx | hx := hs <;> rw [hx] <;> decide)
  | freed _ he ha => exact ⟨he, ha⟩
  | stands hother => exact absurd hother (by obtain hx | hx := hs <;> rw [hx] <;> decide)

/-- Any other home stands as it did (R192). -/
theorem HomeDrained.keeps {s t : State} {h : Nat} (x : HomeDrained s t h)
    (hs : (s.entry h).state = .handed ∨ (s.entry h).state = .claiming ∨ (s.entry h).state = .confirming ∨
      (s.entry h).state = .closing) : t.entry h = s.entry h ∧ t.acct h = s.acct h := by
  cases x with
  | closed hother => exact absurd hother (by obtain hx | hx | hx | hx := hs <;> rw [hx] <;> decide)
  | freed hother => exact absurd hother (by obtain hx | hx | hx | hx := hs <;> rw [hx] <;> decide)
  | stands _ he ha => exact ⟨he, ha⟩

/-! ### The notices of the roster drained (R22, R140) -/

/-- No serial of an entry in use stands on another, and each has one. -/
structure SerialsApart (s : State) (hs : List Nat) : Prop where
  apart : ∀ h ∈ hs, ∀ k ∈ hs, (s.entry h).state ≠ .free → (s.entry k).state ≠ .free →
    (s.entry h).serial = (s.entry k).serial → h = k
  serial : ∀ h ∈ hs, (s.entry h).state ≠ .free → (s.entry h).serial.isSome = true

theorem SerialsApart.tail {s t : State} {h : Nat} {hs : List Nat} (x : SerialsApart s (h :: hs))
    (hsame : ∀ k ∈ hs, t.entry k = s.entry k) : SerialsApart t hs := by
  refine ⟨fun j hj k hk => ?_, fun k hk => ?_⟩
  · rw [hsame j hj, hsame k hk]
    exact x.apart j (List.mem_cons_of_mem _ hj) k (List.mem_cons_of_mem _ hk)
  · rw [hsame k hk]
    exact x.serial k (List.mem_cons_of_mem _ hk)

theorem isOfferOf_serial {a b : Serial} {n : Notice} (ha : isOfferOf a n = true) (hb : isOfferOf b n = true) : a = b := by
  cases n <;> simp_all [isOfferOf]

theorem isOfferOf_not_target {a b : Serial} {n : Notice} (ha : isOfferOf a n = true) : isTargetNoticeOf b n = false := by
  cases n <;> simp_all [isOfferOf, isTargetNoticeOf]

/-- A notice that draining ends for one home is no OFFER of another's serial. -/
theorem endsNotice_not_offer {e : Entry} {serial : Serial} {n : Notice} (ho : isOfferOf serial n = true)
    (hne : e.state ≠ .free → e.serial ≠ some serial) : e.endsNotice n = false := by
  unfold Entry.endsNotice
  cases hserial : e.serial with
  | none => rfl
  | some own =>
    have htarget : isTargetNoticeOf own n = false := isOfferOf_not_target ho
    have hoffer (hl : e.state = .leaving) : isOfferOf own n = false := Bool.eq_false_iff.2 fun hown =>
      hne (by rw [hl]; decide) (hserial.trans (congrArg some (isOfferOf_serial hown ho)))
    by_cases hl : e.state = .leaving <;> simp [hl, hoffer, htarget]

/-- Whether a home is told does not turn on the notices another home's draining withdraws or queues. -/
theorem toldWith_after {e d : Entry} {out more : List Notice} (hmore : ∀ n ∈ more, ∀ serial, isOfferOf serial n = false)
    (hserial : e.state ≠ .free → ∀ serial, e.serial = some serial → d.state ≠ .free → d.serial ≠ some serial) :
    e.toldWith ((out.filter fun n => !d.endsNotice n) ++ more) = e.toldWith out := by
  unfold Entry.toldWith
  by_cases hl : e.state = .leaving
  · cases hs : e.serial with
    | none => simp [hl, Option.any_none]
    | some serial =>
      have hsame : ((out.filter fun n => !d.endsNotice n) ++ more).any (isOfferOf serial) = out.any (isOfferOf serial) := by
        have hm : more.any (isOfferOf serial) = false := List.any_eq_false.2 fun n hn => by rw [hmore n hn]; decide
        rw [List.any_append, hm, Bool.or_false, List.any_filter]
        refine congrArg (List.any out) (funext fun n => ?_)
        cases ho : isOfferOf serial n with
        | false => exact Bool.and_false _
        | true => rw [endsNotice_not_offer ho (hserial (by rw [hl]; decide) serial hs)]; rfl
      simp only [Option.any_some, hsame]
  · simp [hl]

/-- A list of entries drained: their notices withdrawn, and a RECLAIM behind the others for each one told. -/
theorem drainAll_outgoing {hs : List Nat} (hnodup : hs.Nodup) {s : State} (hidle : s.slp.transmitting ≠ some .notice)
    (hserials : SerialsApart s hs) :
    (hs.foldl State.drainEntry s).outgoing .transfer =
      ((s.outgoing .transfer).filter fun n => !(hs.any fun h => (s.entry h).endsNotice n)) ++
        (hs.filter fun h => (s.entry h).toldWith (s.outgoing .transfer)).map fun h => (s.entry h).reclaimOn s.channel := by
  induction hs generalizing s with
  | nil => simp
  | cons h hs ih =>
    obtain ⟨hnot, hnodup⟩ := List.nodup_cons.1 hnodup
    have hone : DrainFrame s (s.drainEntry h) := drainEntry_frame hidle
    have hsame (k : Nat) (hk : k ∈ hs) : (s.drainEntry h).entry k = s.entry k := by
      obtain ⟨hentry, -⟩ := (drainEntry_homeStep s h).others k fun hkh => hnot (hkh ▸ hk)
      exact hentry
    have hchannel : (s.drainEntry h).channel = s.channel := by
      unfold State.channel State.img
      rw [hone.il]
    have hout := drainEntry_outgoing hidle (hserials.serial h List.mem_cons_self)
    generalize hmore : (if (s.entry h).toldWith (s.outgoing .transfer) then [(s.entry h).reclaimOn s.channel] else []) = more
      at hout
    have hreclaim (n : Notice) (hn : n ∈ more) : n = (s.entry h).reclaimOn s.channel := by
      rw [← hmore] at hn
      split at hn
      · exact List.mem_singleton.1 hn
      · exact absurd hn List.not_mem_nil
    have hkeeps (n : Notice) (hn : n ∈ more) : (!(hs.any fun k => (s.entry k).endsNotice n)) = true := by
      rw [hreclaim n hn, Bool.not_eq_true', List.any_eq_false]
      intro k _
      rw [Entry.reclaimOn, endsNotice_reclaim]
      decide
    have hany (n : Notice) : (hs.any fun k => ((s.drainEntry h).entry k).endsNotice n) =
        hs.any fun k => (s.entry k).endsNotice n := by
      rw [Bool.eq_iff_iff, List.any_eq_true, List.any_eq_true]
      exact exists_congr fun k => and_congr_right fun hk => by rw [hsame k hk]
    have htold : (hs.filter fun k => ((s.drainEntry h).entry k).toldWith ((s.drainEntry h).outgoing .transfer)) =
        hs.filter fun k => (s.entry k).toldWith (s.outgoing .transfer) := by
      refine List.filter_congr fun k hk => ?_
      rw [hsame k hk, hout]
      refine toldWith_after (fun n hn serial => by rw [hreclaim n hn]; rfl) fun hk' serial hserial hh' hown => hnot ?_
      rw [hserials.apart h List.mem_cons_self k (List.mem_cons_of_mem _ hk) hh' hk' (hown.trans hserial.symm)]
      exact hk
    have hmap : ((hs.filter fun k => (s.entry k).toldWith (s.outgoing .transfer)).map fun k =>
          ((s.drainEntry h).entry k).reclaimOn (s.drainEntry h).channel) =
        (hs.filter fun k => (s.entry k).toldWith (s.outgoing .transfer)).map fun k => (s.entry k).reclaimOn s.channel :=
      List.map_congr_left fun k hk => by rw [hsame k (List.mem_of_mem_filter hk), hchannel]
    rw [List.foldl_cons, ih hnodup (by rwa [hone.transmitting]) (hserials.tail hsame), htold, hmap, hout]
    simp only [hany, List.filter_append, List.filter_filter, List.any_cons, Bool.not_or]
    rw [List.filter_eq_self.2 hkeeps, List.append_assoc, List.filter_cons, ← hmore]
    congr 1
    · exact congrArg (fun p => List.filter p (s.outgoing .transfer)) (funext fun n => Bool.and_comm _ _)
    · split <;> rfl

/-! ### The result carried (R179, R192) -/

/-- The carried result has left its place. -/
def State.resultGone (s : State) (rest : List Result) : State := { s with rq := { s.rq with results := rest } }

theorem exec_resultCarried {s : State} {straps : Station} {r : Result} {rest : List Result} (hr : s.resetHeld = false)
    (ht : s.slp.transmitting = some .result) (hq : s.rq.results = r :: rest) (hspan : s.slp.detachSpan = none) :
    ∃ t, exec (.resultCarried straps) s = .next t ∧
      Offered (if r.isRestart then (s.resultGone rest).lineFreed.restarted straps else (s.resultGone rest).lineFreed) t := by
  refine ⟨_, ?_, settle_offered _⟩
  have harm : exec (.resultCarried straps) s = execResultCarried straps s := rfl
  rw [harm, execResultCarried, if_neg (by rw [hr]; decide), ht, hq, ← ownCarried_attached (s.resultGone rest) hspan]
  rfl

theorem isRestart_iff (r : Result) : r.isRestart = true ↔ r.kind = .restart ∧ r.code = .ok := by
  simp [Result.isRestart]

/-- The state as draining begins, before its homes are drained. -/
def State.drainBegun (s : State) : State :=
  { s with il := { s.il with startup := .draining, drainTimer := some Config.drainCycles } }

theorem restarted_resets {s : State} {straps : Station} (hs : s.il.startup = .listening ∨ s.il.startup = .configFault) :
    s.restarted straps = s.powerOn straps := by
  unfold State.restarted
  obtain hs | hs := hs <;> rw [hs]

theorem restarted_drains {s : State} {straps : Station} (hs : s.il.startup = .operating) :
    s.restarted straps = handles.foldl State.drainEntry s.drainBegun := by
  unfold State.restarted
  rw [hs]
  rfl

theorem handles_nodup : handles.Nodup := List.nodup_range'

/-- Settles O45: a result other than a RESTART's OK frees its place alone; a RESTART's OK resets the part, or drains the
roster home by home, whose notices no other home's draining touches since no serial stands on two entries. -/
theorem resultCarried : Obligations.ResultCarried := by
  unfold Obligations.ResultCarried
  intro s straps r rest hr ht hq hspan
  obtain ⟨t, hexec, o⟩ := exec_resultCarried (straps := straps) hr ht hq hspan
  refine ⟨t, hexec, fun hother => ?_, fun hk hc hs => ?_, fun hk hc hs => ?_⟩
  · have hplain : r.isRestart ≠ true := fun hx => by
      obtain ⟨hk, hc⟩ := (isRestart_iff r).1 hx
      exact hother.elim (fun hn => hn hk) fun hn => hn hc
    rw [if_neg hplain] at o
    obtain ⟨-, -, -, -, -, hfree⟩ := o.lineSame
    exact ⟨o.results, hfree, o.voidCount, o.roster, o.um, o.hu, o.il, o.noEvent⟩
  · rw [if_pos ((isRestart_iff r).2 ⟨hk, hc⟩), restarted_resets (s := (s.resultGone rest).lineFreed) hs] at o
    obtain ⟨hstation, -⟩ := o.lineSame
    exact ⟨congrArg ImageLoader.startup o.il, congrArg CycleBuilder.cycle o.cb, hstation, o.results,
      fun h => (o.entry h).trans (powerOn_entry ..), o.pending⟩
  · rw [if_pos ((isRestart_iff r).2 ⟨hk, hc⟩), restarted_drains (s := (s.resultGone rest).lineFreed) hs] at o
    generalize hv : (s.resultGone rest).lineFreed.drainBegun = v at o
    have hidle : v.slp.transmitting ≠ some .notice := by
      rw [← hv]
      exact fun hx => nomatch hx
    obtain ⟨hframe, hdrained, -⟩ := drainAll_drained handles_nodup (fun h hh => hh) hidle
    have hresults : v.rq.results = rest := by rw [← hv]; rfl
    have hout (hapart : SerialsApart v handles) := drainAll_outgoing handles_nodup hidle hapart
    generalize handles.foldl State.drainEntry v = u at o hframe hdrained hout
    have hhome (h : Nat) : HomeDrained s t h := by
      by_cases hh : h ∈ handles
      · refine ((hdrained h hh).mono (o.entry h) (o.acct h)).of_same ?_ ?_ ?_ <;> rw [← hv]
        · rfl
        · rfl
        · exact ⟨rfl, rfl, rfl, rfl⟩
      · rw [mem_handles] at hh
        have hfree : s.entry h = Entry.free := entry_outside s h hh
        refine .stands (by rw [hfree]; decide) ((entry_outside t h hh).trans hfree.symm) ?_
        exact (acct_outside t h hh).trans (acct_outside s h hh).symm
    subst hv
    refine ⟨congrArg ImageLoader.startup (o.il.trans hframe.il), congrArg ImageLoader.drainTimer (o.il.trans hframe.il),
      (o.results.trans hframe.results).trans hresults, ⟨o.events.trans hframe.quiet.1, o.dropped.trans hframe.quiet.2⟩,
      fun h => ⟨(hhome h).closes, (hhome h).frees, (hhome h).keeps⟩, fun hapart hserial => ⟨?_, fun who hw => ?_⟩⟩
    · exact ⟨_, (o.notices .transfer).trans (hout ⟨hapart, hserial⟩), List.Perm.refl _⟩
    · exact (o.notices who).trans (hframe.outgoing who hw)

end Sys2Proof.Machine
end

section
/-! PROOFS. A discovery reply that claims nothing: out of reach, already on the roster, or refused (R51 to R53). -/

namespace Sys2Proof.Machine

/-- A capture that is not kept leaves its place as it was: free. -/
theorem setPlace_freed (s : State) (c : Option Capture) {rest : List (Option Capture)}
    (hp : s.ee.captures = none :: rest) : (s.setPlace 0 c).setPlace 0 none = s := by
  unfold State.setPlace
  simp only [hp, List.set_cons_zero]
  rw [← hp]

/-- The one reply of a clean DISCOVER observation, with the first place free, is captured there and judged (R51). -/
theorem exec_oneReply (s : State) (r : WindowRef) (w : Window) (p : Reply) (rest : List (Option Capture))
    (hr : s.resetHeld = false) (ho : s.observable r = true) (hk : r.kind = .discover) (hw : s.findWindow r = some w)
    (hc : s.captures = true) (hp : s.ee.captures = none :: rest) (hspan : w.spans p.arrival = true) :
    ∃ t, exec (.discoverObservation r (.clean [p])) s = .next t ∧
      Offered (((s.clearOutstanding r).setPlace 0 (some (captureOf p))).judgeCapture (0, p)) t := by
  have hin : DiscoverObs.inSpan w (.clean [p]) = true :=
    List.all_eq_true.2 fun x hx => by rw [List.mem_singleton.1 hx]; exact hspan
  obtain ⟨t, hexec, hoff⟩ := exec_discover s r w (.clean [p]) hr ho hk hw hin
  rw [discovered_one (s.clearOutstanding r) p rest hc hp] at hoff
  exact ⟨t, hexec, hoff⟩

/-- Out of reach the place is freed, and OUT_OF_REACH tells of the round trip (R52). -/
theorem judgeCapture_outOfReach (s : State) (i : Nat) (p : Reply)
    (h : replyRoundTrip p s.img.rLow < s.img.rLow ∨ (s.img.rHigh : Int) < replyRoundTrip p s.img.rLow) :
    s.judgeCapture (i, p) =
      (s.setPlace i none).pushEvent (.outOfReach p.serial p.delayIndex (replyRoundTrip p s.img.rLow)) := if_pos h

/-- A serial on the roster starts no claim (R53). -/
theorem startClaim_known (s : State) (i : Nat) (p : Reply) (h : s.find p.serial ≠ none) :
    s.startClaim i p = s.setPlace i none := if_pos (Option.isSome_iff_ne_none.2 h)

/-- With no entry FREE the claim is refused (R53). -/
theorem startClaim_noEntry (s : State) (i : Nat) (p : Reply) (hf : s.find p.serial = none) (h : s.freeHandle = none) :
    s.startClaim i p = (s.setPlace i none).pushEvent (.rosterFull p.serial .noEntry) := by
  unfold State.startClaim
  rw [hf, h]
  rfl

/-- Where the admission check fails the claim is refused (R53, R84). -/
theorem startClaim_overbook (s : State) (i h : Nat) (p : Reply) (hf : s.find p.serial = none) (hh : s.freeHandle = some h)
    (ha : s.ua.floor < s.ua.booked + (max s.img.defaultProfile.assured 4 + 16)) :
    s.startClaim i p = (s.setPlace i none).pushEvent (.rosterFull p.serial .overbook) := by
  unfold State.startClaim
  rw [hf, hh]
  exact if_neg fun x => Nat.not_le.2 ha (of_decide_eq_true x)

/-- Settles O24: the capture is judged out of reach, and its place is free again. -/
theorem outOfReach : Obligations.OutOfReach := by
  unfold Obligations.OutOfReach
  intro s r w p rest hr ho hk hw hc hp R hout hspan
  obtain ⟨t, hexec, hoff⟩ := exec_oneReply s r w p rest hr ho hk hw hc hp hspan
  rw [judgeCapture_outOfReach ((s.clearOutstanding r).setPlace 0 _) 0 p hout,
    setPlace_freed (s.clearOutstanding r) _ hp] at hoff
  exact ⟨t, hexec, hoff⟩

/-- The reply whose home takes no claim: known, or refused for want of an entry or of admission (R53). -/
theorem oneReply_unclaimed (s : State) (r : WindowRef) (w : Window) (p : Reply) (rest : List (Option Capture))
    (hr : s.resetHeld = false) (ho : s.observable r = true) (hk : r.kind = .discover) (hw : s.findWindow r = some w)
    (hc : s.captures = true) (hp : s.ee.captures = none :: rest) (hspan : w.spans p.arrival = true)
    (hlo : (s.img.rLow : Int) ≤ replyRoundTrip p s.img.rLow) (hhi : replyRoundTrip p s.img.rLow ≤ s.img.rHigh) :
    ∃ t, exec (.discoverObservation r (.clean [p])) s = .next t ∧
      (s.find p.serial ≠ none → Offered (s.clearOutstanding r) t) ∧
      (s.find p.serial = none → s.freeHandle = none →
        Offered ((s.clearOutstanding r).pushEvent (.rosterFull p.serial .noEntry)) t) ∧
      ∀ h, s.find p.serial = none → s.freeHandle = some h →
        s.ua.floor < s.ua.booked + (max s.img.defaultProfile.assured 4 + 16) →
        Offered ((s.clearOutstanding r).pushEvent (.rosterFull p.serial .overbook)) t := by
  obtain ⟨t, hexec, hoff⟩ := exec_oneReply s r w p rest hr ho hk hw hc hp hspan
  have hfreed := setPlace_freed (s.clearOutstanding r) (some (captureOf p)) hp
  rw [judgeCapture_inReach ((s.clearOutstanding r).setPlace 0 _) 0 p hlo hhi] at hoff
  refine ⟨t, hexec, fun hf => ?_, fun hf hn => ?_, fun h hf hh ha => ?_⟩
  · rwa [startClaim_known ((s.clearOutstanding r).setPlace 0 _) 0 p hf, hfreed] at hoff
  · rwa [startClaim_noEntry ((s.clearOutstanding r).setPlace 0 _) 0 p hf hn, hfreed] at hoff
  · rwa [startClaim_overbook ((s.clearOutstanding r).setPlace 0 _) 0 h p hf hh ha, hfreed] at hoff

end Sys2Proof.Machine
end

section
/-! PROOFS. The own CLAIM carried, the end of its hold, and another station's CLAIM (R54 to R58, R64). -/

namespace Sys2Proof.Machine

/-! ### The own CLAIM carried (R54) -/

theorem claim_own (s : State) (serial : Serial) (c : Nat) (hr : s.resetHeld = false) (ht : s.transmits (.claim serial c)) :
    ∃ t, exec (.claim .own serial c) s = .next t ∧ Offered (s.noticeCarried.claimCarried serial) t := by
  refine ⟨(s.noticeCarried.claimCarried serial).settle, ?_, settle_offered _⟩
  exact hearNotice_own (.claim serial c) (fun t => t.claimCarried serial) s hr ht.sending

/-- Of the captures, the one whose CLAIMING entry holds the serial is marked, and one of another serial stands (R54). -/
theorem claimCarried_captures (s : State) (serial : Serial) (h : Nat) (k : Capture) (rest : List (Option Capture))
    (hp : s.ee.captures = some k :: rest) (hrest : ∀ c ∈ rest, ∀ x, c = some x → x.serial ≠ serial)
    (hk : k.serial = serial) (hc : k.claim = some { handle := h, carried := false, holdTimer := none })
    (hs : (s.entry h).state = .claiming) (hserial : (s.entry h).serial = some serial) :
    (s.claimCarried serial).ee.captures =
      some { k with claim := some { handle := h, carried := true, holdTimer := some s.img.claimHold } } :: rest := by
  unfold State.claimCarried
  simp only [hp, List.map_cons, Option.map_some, hc, hk, hs, hserial, and_self, if_true]
  refine congrArg _ ((List.map_congr_left fun c hmem => ?_).trans (List.map_id' rest))
  cases c with
  | none => rfl
  | some x =>
    have hother : x.serial ≠ serial := hrest _ hmem x rfl
    cases hx : x.claim <;> simp [hx, hother]

/-! ### The claim hold (R58, R64) -/

theorem exec_claimHoldExpiry (s : State) (h : Nat) (serial : Serial) (p : ClaimPart) (hr : s.resetHeld = false)
    (hp : s.claimAt h = some p) (hdue : ∃ n, p.holdTimer = some n ∧ n ≤ 1) (hs : (s.entry h).state = .claiming)
    (hserial : (s.entry h).serial = some serial) :
    ∃ t, exec (.claimHoldExpiry h) s = .next t ∧ Offered (s.claimHeldOut h serial) t := by
  obtain ⟨n, hn, hle⟩ := hdue
  have harm : exec (.claimHoldExpiry h) s = execClaimHoldExpiry h s := rfl
  have hd : dueTimer p.holdTimer = true := by rw [hn]; exact decide_eq_true hle
  refine ⟨_, ?_, settle_offered _⟩
  rw [harm, execClaimHoldExpiry, if_neg (by rw [hr]; decide), hp, hserial]
  exact if_pos ⟨hd, hs⟩

/-- No capture is left that claims the entry at the handle. -/
theorem freePlaceOf_unclaimed (s : State) (h : Nat) :
    ∀ c ∈ (s.freePlaceOf h).ee.captures, ∀ k, c = some k → ∀ x, k.claim = some x → x.handle ≠ h := by
  rintro c hc k rfl x hx
  exact (freePlaceOf_claims s h x.handle k.serial ⟨k, x, hc, hx, rfl, rfl⟩).2

/-- ASSIGN goes into the empty mailbox of a fresh entry under sequence bit 1 (R31, R58). -/
theorem toConfirming_fresh (e : Entry) (serial : Serial) (h eq : Nat) (he : e.eqDelay = some eq) (hm : e.mailbox = none)
    (hb : e.seqBit = false) :
    e.toConfirming serial h = { e with
      state := .confirming, rangeAttempts := 0, seqBit := true,
      mailbox := some { kind := .assign serial h eq, seqBit := true, carried := 0, firstMap := none } } := by
  unfold Entry.toConfirming
  rw [post_empty { e with state := .confirming, rangeAttempts := 0 } _ hm, hb, he]
  rfl

/-- The end of the claim hold: one home changes, nothing is raised, and no notice is touched (R58, R64). -/
theorem claimHeldOut_frame (s : State) (h : Nat) (serial : Serial) :
    OthersSame s (s.claimHeldOut h serial) h ∧ NoEvent s (s.claimHeldOut h serial) ∧
      (s.claimHeldOut h serial).slp = s.slp ∧ (s.claimHeldOut h serial).ee = (s.freePlaceOf h).ee := by
  unfold State.claimHeldOut
  dsimp only
  split
  · obtain ⟨⟨hothers, -⟩, hquiet⟩ := freeEntry_frame (s.freePlaceOf h) h
    exact ⟨hothers, hquiet, rfl, rfl⟩
  · obtain ⟨⟨hothers, -⟩, hquiet⟩ := setEntry_homeStep (s.freePlaceOf h) h ((s.entry h).toConfirming serial h)
    exact ⟨hothers, hquiet, rfl, rfl⟩

/-- Settles O27: the carried CLAIM marks its capture, and the end of the hold posts ASSIGN, or frees the entry while DRAINING. -/
theorem claimCarriedAndHeld : Obligations.ClaimCarriedAndHeld := by
  unfold Obligations.ClaimCarriedAndHeld
  refine ⟨fun s serial h k rest hr ht hspan hp hrest hk hc hs hserial => ?_,
    fun s h eq serial p hr hp hdue hs hserial heq hm hb => ?_⟩
  · obtain ⟨t, hexec, hoff⟩ := claim_own s serial s.channel hr ht
    have hslot := noticeCarried_attached s hspan
    have hquiet := noticeCarried_noEvent s hspan
    have hcarried := claimCarried_captures s.noticeCarried serial h k rest (by rw [hslot]; exact hp) hrest hk hc
      (by rw [hslot]; exact hs) (by rw [hslot]; exact hserial)
    have hsame := noticeCarried_noticesOnly s
    obtain ⟨-, -, -, -, -, hfree⟩ := hoff.lineSame
    refine ⟨t, hexec, ?_, ?_, hoff.roster.trans hsame.roster, hoff.um.trans hsame.um, hoff.ua.trans hsame.ua,
      hoff.hu.trans hsame.hu, hfree.trans ?_, hoff.voidCount.trans ?_,
      ⟨hoff.events.trans hquiet.1, hoff.dropped.trans hquiet.2⟩, (hoff.notices _).trans ?_⟩
    · rw [hoff.ee, hcarried, hsame.img]
    · rw [hoff.ee]
      change s.noticeCarried.ee.discoveryEnable = _
      rw [hslot]
    · change s.noticeCarried.slp.transmitting = _
      rw [hslot]
    · change s.noticeCarried.slp.voidCount = _
      rw [hslot]
    · exact noticeCarried_outgoing s _ _ hspan ht.2
  · have hh := handle_of_state s h (by rw [hs]; decide)
    obtain ⟨t, hexec, hoff⟩ := exec_claimHoldExpiry s h serial p hr hp hdue hs hserial
    obtain ⟨hothers, hquiet, hslp, hee⟩ := claimHeldOut_frame s h serial
    refine ⟨t, hexec, ?_, fun hd => ?_, fun hd => ?_, hothers.trans (hoff.others h),
      ⟨hoff.events.trans hquiet.1, hoff.dropped.trans hquiet.2⟩, fun who => (hoff.notices who).trans ?_⟩
    · rw [hoff.ee, hee]
      exact freePlaceOf_unclaimed s h
    · have hout : s.claimHeldOut h serial = (s.freePlaceOf h).setEntry h ((s.entry h).toConfirming serial h) :=
        if_neg (by rw [hd]; decide)
      rw [hout, toConfirming_fresh _ serial h eq heq hm hb] at hoff
      exact ⟨(hoff.entry h).trans (entry_setEntry_self _ h _ hh), hoff.ua, hoff.um, hoff.hu⟩
    · have hout : s.claimHeldOut h serial = (s.freePlaceOf h).freeEntry h := if_pos hd
      rw [hout] at hoff
      exact ⟨(hoff.entry h).trans ((freeEntry_entry _ h h).trans (if_pos rfl)), congrArg Allocator.booked hoff.ua⟩
    · unfold State.outgoing
      rw [hslp]

/-! ### Another station's CLAIM (R55, R56) -/

theorem claim_other (s : State) (st : Station) (serial : Serial) (c : Nat) (hr : s.resetHeld = false) :
    ∃ t, exec (.claim (.other st) serial c) s = .next t ∧ Offered (s.lineHeard.claimHeard serial c) t := by
  refine ⟨(s.lineHeard.claimHeard serial c).settle, ?_, settle_offered _⟩
  exact hearNotice_other st (.claim serial c) (fun t => t.claimHeard serial c) s hr

theorem claimHeard_none (s : State) (serial : Serial) (c : Nat) (hf : s.find serial = none) :
    s.claimHeard serial c = s := by
  unfold State.claimHeard
  rw [hf]

/-- What a CLAIM does by the state of the entry of its serial (R55). -/
theorem claimHeard_some (s : State) (serial : Serial) (c h : Nat) (hf : s.find serial = some h) :
    ((s.entry h).state = .closing → s.claimHeard serial c = s) ∧
    ((s.entry h).state = .claiming →
      s.claimHeard serial c = if (s.claimAt h).any ClaimPart.carried then s else s.dropClaim serial h) ∧
    ((s.entry h).state = .lost → s.claimHeard serial c = s.release h .claimedElsewhere false) ∧
    ((s.entry h).state = .confirming ∨ (s.entry h).state = .active ∨ (s.entry h).state = .leaving ∨
      (s.entry h).state = .tuning ∨ (s.entry h).state = .handed ∨ (s.entry h).state = .arriving ∨
      (s.entry h).state = .taking → s.claimHeard serial c = s.answerHeld h serial c) := by
  unfold State.claimHeard
  rw [hf]
  dsimp only
  refine ⟨fun hs => by rw [hs], fun hs => by rw [hs], fun hs => by rw [hs], ?_⟩
  rintro (hs | hs | hs | hs | hs | hs | hs) <;> rw [hs]

/-- The entry with one more duplicate counted, stopping at 255 (R55). -/
def Entry.duplicated (e : Entry) : Entry := { e with duplicates := min 255 (e.duplicates + 1) }

theorem answerHeld_answers (s : State) (h : Nat) (serial : Serial) (c : Nat)
    (hw : s.slp.stands (.held serial s.channel) = false) :
    s.answerHeld h serial c =
      ((s.setEntry h (s.entry h).duplicated).queueNotice (.held serial s.channel)).raiseDuplicate h serial c :=
  if_neg (by rw [hw]; decide)

/-- A raised alarm whose kind is not OFF leaves a place of its source that is not idle (R182, R183). -/
theorem raiseAlarm_places (s : State) (a : AlarmSource) (c : AlarmContent) (hm : s.img.alarmModes.get a.kind ≠ .off) :
    ∃ p ∈ (s.raiseAlarm a c).places, p.1 = a := by
  unfold State.raiseAlarm
  split
  next hoff => exact absurd hoff hm
  next => exact placeReport_places s a c false
  next =>
    dsimp only
    split <;> exact placeReport_places s a c false

/-! ### What a change with an event leaves alone -/

/-- The state with the events of another: what `HomeFrame` does not read. -/
def State.eventsOf (s t : State) : State := { s with rq := { s.rq with events := t.rq.events, dropped := t.rq.dropped } }

theorem HomeFrame.trans {s t u : State} {h : Nat} (x : HomeFrame s t h) (y : HomeFrame t u h) : HomeFrame s u h := by
  have hfirst : HomeStep s (t.eventsOf s) h := ⟨x, rfl, rfl⟩
  have hsecond : HomeStep (t.eventsOf s) (u.eventsOf s) h := ⟨y, rfl, rfl⟩
  exact (hfirst.trans hsecond).1

theorem pushEvent_homeFrame (s : State) (e : Event) (h : Nat) : HomeFrame s (s.pushEvent e) h := by
  unfold State.pushEvent
  split <;> exact (HomeStep.refl s h).1

/-- A release closes one home and raises HOME_RELEASED (R43). -/
theorem release_frame (s : State) (h : Nat) (reason : ReleaseReason) (release : Bool) :
    HomeFrame s (s.release h reason release) h ∧
      Raised s (s.release h reason release) (.homeReleased (s.entry h).serial h reason) := by
  obtain ⟨hframe, hquiet⟩ := enterClosing_homeStep s h (.released reason) release
  exact ⟨hframe.trans (pushEvent_homeFrame _ _ h), (pushEvent_raised _ _).before hquiet⟩

/-- A release without a RELEASE message leaves the mailbox as it was (R43). -/
theorem release_entry (s : State) (h : Nat) (reason : ReleaseReason) (hh : 1 ≤ h ∧ h ≤ 64) :
    (s.release h reason false).entry h = { s.entry h with state := .closing, lostTimer := none, handover := none } := by
  refine (entry_of_roster _ _ (pushEvent_roster _ _) h).trans ?_
  rw [enterClosing_entry, if_pos ⟨rfl, hh⟩]
  rfl

/-- The answer HELD: the duplicate is counted, HELD is the last of the engine's notices, and but for the alarm nothing
else of the part changes (R55, R65). -/
theorem answerHeld_held (s : State) (h : Nat) (serial : Serial) (c : Nat) (hh : 1 ≤ h ∧ h ≤ 64)
    (hw : s.slp.stands (.held serial s.channel) = false) :
    let t := s.answerHeld h serial c
    t.entry h = (s.entry h).duplicated ∧ t.outgoing .enrolment = s.outgoing .enrolment ++ [.held serial s.channel] ∧
      (s.img.alarmModes.duplicateSerial ≠ .off → ∃ p ∈ t.places, p.1 = { kind := .duplicateSerial, handle := h }) ∧
      t.ua = s.ua ∧ t.hu = s.hu ∧ HomeStep s t h := by
  dsimp only
  rw [answerHeld_answers s h serial c hw]
  generalize hv : (s.setEntry h (s.entry h).duplicated).queueNotice (.held serial s.channel) = v
  have hreports : ReportsOnly v (v.raiseDuplicate h serial c) := raiseAlarm_reportsOnly ..
  have himg : v.img = s.img := by rw [← hv]; rfl
  refine ⟨(hreports.entry h).trans ?_, (hreports.outgoing _).trans ?_, fun hm => ?_, hreports.ua.trans ?_,
    hreports.hu.trans ?_, HomeStep.trans ?_ (hreports.homeStep h)⟩
  · rw [← hv]
    exact entry_setEntry_self s h _ hh
  · rw [← hv]
    exact queueNotice_outgoing _ (.held serial s.channel) .enrolment
  · exact raiseAlarm_places v _ _ (by rw [himg]; exact hm)
  · rw [← hv]; rfl
  · rw [← hv]; rfl
  · rw [← hv]
    exact (setEntry_homeStep s h _).trans (queueNotice_homeStep ..)

/-- Settles O28: another's CLAIM by the state of the entry of its serial. -/
theorem peerClaim : Obligations.PeerClaim := by
  unfold Obligations.PeerClaim
  intro s st serial c hr
  obtain ⟨t, hexec, hoff⟩ := claim_other s st serial c hr
  have hheard (h : Nat) : HomeStep s s.lineHeard h := HomeStep.refl s h
  refine ⟨t, hexec, fun hf => ?_, fun h hf => ?_⟩
  · rwa [claimHeard_none s.lineHeard serial c hf] at hoff
  obtain ⟨-, hserial, hh⟩ := find_sound s serial h hf
  obtain ⟨hclosing, hclaiming, hlost, hheld⟩ := claimHeard_some s.lineHeard serial c h hf
  refine ⟨fun hs => ?_, fun hs hcar => ?_, fun hs hcar => ?_, fun hs => ?_, fun hs => ⟨fun hw => ?_, fun hw => ?_⟩⟩
  · rwa [hclosing hs] at hoff
  · rwa [hclaiming hs, if_pos (by exact hcar)] at hoff
  · have huncarried : ¬(s.lineHeard.claimAt h).any ClaimPart.carried = true := fun hx => absurd (hcar.symm.trans hx) (by decide)
    rw [hclaiming hs, if_neg huncarried] at hoff
    obtain ⟨he, -, hu, -, -, hothers, hquiet⟩ := dropClaim_frees s.lineHeard serial h
    exact ⟨(hoff.entry h).trans he, ((congrArg Allocator.booked hoff.ua).trans hu).symm,
      ⟨hoff.events.trans hquiet.1, hoff.dropped.trans hquiet.2⟩, hothers.trans (hoff.others h)⟩
  · rw [hlost hs] at hoff
    have he := (hoff.entry h).trans (release_entry s.lineHeard h .claimedElsewhere hh)
    obtain ⟨hframe, hraised⟩ := release_frame s.lineHeard h .claimedElsewhere false
    obtain ⟨hoffFrame, hoffQuiet⟩ := hoff.homeStep h
    rw [he, ← hserial]
    exact ⟨rfl, rfl, rfl, (hraised.after hoffQuiet).before (hheard h).2, ((hheard h).1.trans hframe).trans hoffFrame⟩
  · rwa [hheld hs, State.answerHeld, if_pos (by exact hw)] at hoff
  · rw [hheld hs] at hoff
    obtain ⟨he, hout, hplaces, hua, hhu, hstep⟩ := answerHeld_held s.lineHeard h serial c hh hw
    obtain ⟨hframe, hquiet⟩ := ((hheard h).trans hstep).trans (hoff.homeStep h)
    refine ⟨(hoff.entry h).trans he, (hoff.notices _).trans hout, fun hm => ?_,
      congrArg Allocator.booked (hoff.ua.trans hua), hoff.hu.trans hhu, hframe, hquiet⟩
    obtain ⟨p, hp, hsource⟩ := hplaces hm
    exact ⟨p, hoff.places.mem_iff.2 hp, hsource⟩

end Sys2Proof.Machine
end

section
/-! PROOFS. A confirmation that succeeds: the entry ACTIVE, its account open, and closed at once while DRAINING (R60, R61, R64, R192). -/

namespace Sys2Proof.Machine

/-! ### The entry of a confirmed home (R24, R26, R31, R61) -/

/-- The entry of a home as its confirmation leaves it, before any ADJUST: ACTIVE, heard, its delay stored. -/
def Entry.confirmed (e : Entry) (q delay : Nat) : Entry :=
  { e with
    state := .active, missed := 0, rangeAttempts := 0, recontact := 0, idle := 0, lostTimer := none, handover := none,
    mailbox := none, reportQ := q, eqDelay := some delay, roundTrip := some (160000 - delay) }

/-- The same with ADJUST posted where the stored delay is not the ASSIGN's (R61). -/
def Entry.confirmedFrom (e : Entry) (q eq delay : Nat) : Entry :=
  if delay = eq then e.confirmed q delay else (e.confirmed q delay).post (.adjust delay)

/-- The ADJUST changes the mailbox and its sequence bit alone. -/
theorem confirmedFrom_else (e : Entry) (q eq delay : Nat) : ∃ m b,
    e.confirmedFrom q eq delay = { e.confirmed q delay with mailbox := m, seqBit := b } ∧
      m.map Message.kind = if delay = eq then none else some (.adjust delay) := by
  unfold Entry.confirmedFrom
  split
  · exact ⟨none, e.seqBit, rfl, rfl⟩
  · exact ⟨_, _, post_empty (e.confirmed q delay) _ rfl, rfl⟩

/-- A carried ASSIGN is acknowledged by its sequence bit in a window of its first map (R32). -/
theorem acknowledges_assign {e : Entry} {map : CycleNo} {m : Message} {serial : Serial} {h k : Nat}
    (hm : e.mailbox = some m) (hk : m.kind = .assign serial h k) (hc : 1 ≤ m.carried) (hf : m.firstMap = some map) :
    e.acknowledges map m.seqBit = some (.assign serial h k) := by
  unfold Entry.acknowledges
  rw [hm]
  have hsame : cyclesSince map map < 2 ^ 31 := by simp [cyclesSince]
  simp only [hf, hk]
  exact if_pos ⟨nofun, hc, hsame, trivial⟩

/-! ### The account opened (R144, R147) -/

/-- An account opened beside the entry touches that one home, and raises no event. -/
theorem openAccount_frame (s : State) (h : Nat) (hh : 1 ≤ h ∧ h ≤ 64) :
    HomeStep s (s.openAccount h) h ∧ (s.openAccount h).acct h = some (Account.opening s.img.defaultMode s.um.period) ∧
      (∀ k, (s.openAccount h).entry k = s.entry k) ∧ (s.openAccount h).ua = s.ua ∧ (s.openAccount h).hu = s.hu := by
  have hreports := startCredit_reportsOnly (s.setAcct h (some (Account.opening s.img.defaultMode s.um.period))) h
  refine ⟨(setAcct_homeStep ..).trans (hreports.homeStep h), (hreports.acct h).trans ?_, hreports.entry, hreports.ua,
    hreports.hu⟩
  rw [acct_setAcct, if_pos ⟨rfl, hh⟩]

/-- The RESTART record of an account that closes in the period it opened in, with nothing counted (R162, R166). -/
def restartRecord (mode : Mode) (period : Nat) : Snapshot :=
  { kind := .restart, firstPeriod := period, lastPeriod := period, mode := mode, opening := 0, closing := 0,
    counters := Counters.zero, adjusted := 0, rolled := 0 }

/-- An account that closes as it opened: nothing is charged, and its record says so (R159, R162, R166). -/
theorem finish_opening (mode : Mode) (b : Band) (period : Nat) :
    (Account.opening mode period).finish .restart b period =
      { Account.opening mode period with snapshot := some (restartRecord mode period) } := by
  simp [Account.finish, Account.finalCharge, Account.opening, Account.debitIf, Account.closeFinal,
    Account.snapshotThrough, Account.formSnapshot, restartRecord]

/-! ### The success (R60, R61) -/

/-- The state as the success leaves it, before any close: the entry confirmed, the account open, HOME_ACTIVE raised. -/
def State.confirmedAt (s : State) (h : Nat) (d : Int) (q eq delay : Nat) : State :=
  (((s.noteOffset h d).setEntry h ((s.entry h).confirmedFrom q eq delay)).openAccount h).pushEvent
    (.homeActive (s.entry h).serial h delay)

section Confirmed
variable {s : State} {h : Nat} {d : Int} {q eq delay : Nat}

theorem confirmedAt_frame (hh : 1 ≤ h ∧ h ≤ 64) :
    let t := s.confirmedAt h d q eq delay
    t.entry h = (s.entry h).confirmedFrom q eq delay ∧
      t.acct h = some (Account.opening s.img.defaultMode s.um.period) ∧ t.ua = s.ua ∧ t.hu = s.hu ∧
      t.um.period = s.um.period ∧ HomeFrame s t h ∧ Raised s t (.homeActive (s.entry h).serial h delay) := by
  dsimp only
  obtain ⟨hopen, hacct, hentry, hua, hhu⟩ := openAccount_frame
    ((s.noteOffset h d).setEntry h ((s.entry h).confirmedFrom q eq delay)) h hh
  have hevent := pushEvent_noticesOnly (((s.noteOffset h d).setEntry h
    ((s.entry h).confirmedFrom q eq delay)).openAccount h) (.homeActive (s.entry h).serial h delay)
  obtain ⟨hframe, hquiet⟩ := ((noteOffset_homeStep s h d).trans (setEntry_homeStep ..)).trans hopen
  have hall : HomeFrame s (s.confirmedAt h d q eq delay) h := hframe.trans (pushEvent_homeFrame ..)
  refine ⟨(hevent.entry h).trans ((hentry h).trans (entry_setEntry_self _ h _ hh)), (hevent.acct h).trans hacct,
    hevent.ua.trans hua, hevent.hu.trans hhu, ?_, hall, (pushEvent_raised _ _).before hquiet⟩
  obtain ⟨-, ⟨-, -, -, hperiod⟩, -⟩ := hall
  exact hperiod

/-- The success as R61 words it, of an entry whose burst is heard and whose ASSIGN is out of the mailbox. -/
theorem confirmed_heard {v : State} {e : Entry} (hv : v.entry h = { e.heardIdle q with mailbox := none })
    (hs : e.state = .confirming) (he : e.eqDelay = some eq) (hdelay : clampDelay v.img ((eq : Int) - d) = delay) :
    v.confirmed h d = (((v.setEntry h (e.confirmedFrom q eq delay)).openAccount h).pushEvent
      (.homeActive e.serial h delay)).drainClose h := by
  have hstored : Entry.storeDelay (Entry.toActive { e.heardIdle q with mailbox := none }) v.img ((eq : Int) - d) =
      e.confirmed q delay := by
    rw [Entry.storeDelay, hdelay]
    simp only [Entry.toActive, Entry.heardIdle, Entry.confirmed, hs, Config.targetDelay, reduceCtorEq, if_false]
  have hzero : ((({ e.heardIdle q with mailbox := none } : Entry).eqDelay.getD 0 : Nat) : Int) = eq := by
    simp only [Entry.heardIdle, he, Option.getD_some]
  have hsame : ((e.confirmed q delay).eqDelay = ({ e.heardIdle q with mailbox := none } : Entry).eqDelay) = (delay = eq) := by
    simp only [Entry.heardIdle, Entry.confirmed, he, Option.some.injEq]
  unfold State.confirmed Entry.confirmedFrom
  rw [hv]
  dsimp only
  rw [hzero, hstored]
  simp only [hsame]
  rfl

/-- A clean RANGE burst that acknowledges the ASSIGN within 24 steps confirms the home, before the judgement (R60, R61). -/
theorem cleanBurst_confirms {map : CycleNo} {m : Message} {serial : Serial} {k : Nat} {h' : Nat}
    (hs : (s.entry h).state = .confirming) (hm : (s.entry h).mailbox = some m) (hk : m.kind = .assign serial h' k)
    (hc : 1 ≤ m.carried) (hf : m.firstMap = some map) (he : (s.entry h).eqDelay = some eq) (hd : d.natAbs ≤ 24)
    (hdelay : clampDelay s.img ((eq : Int) - d) = delay) (hh : 1 ≤ h ∧ h ≤ 64) :
    s.cleanBurst h map .range d m.seqBit q [] =
      ((s.confirmedAt h d q eq delay).drainClose h).judge h .confirming .range
        (some (.assign serial h' k)) d := by
  have hack := acknowledges_assign hm hk hc hf
  have hunserved : (s.entry h).state.served = false := by rw [hs]; rfl
  generalize hv : (s.noteOffset h d).setEntry h { (s.entry h).heardIdle q with mailbox := none } = v
  have hentry : v.entry h = { (s.entry h).heardIdle q with mailbox := none } := by
    rw [← hv]; exact entry_setEntry_self _ h _ hh
  have hburst : v.rangeBurst h d = v.confirmed h d := by
    rw [rangeBurst_confirming v h d (by rw [hentry]; exact hs)]
    exact if_pos ⟨hd, by rw [hentry]⟩
  have hclean : s.cleanBurst h map .range d m.seqBit q [] =
      (v.rangeBurst h d).judge h (s.entry h).state .range (some (.assign serial h' k)) d := by
    simp only [State.cleanBurst, hack, Entry.takeAck, heard_unserved _ _ hunserved, ← hv]
    rfl
  have hstored : clampDelay v.img ((eq : Int) - d) = delay := by rw [← hv]; exact hdelay
  rw [hclean, hburst, hs, confirmed_heard hentry hs he hstored, ← hv, setEntry_setEntry]
  rfl

/-- The judgement of the burst that confirmed a home sets no misplaced burst (R90). -/
theorem judge_confirming {v : State} (kind : WindowKind) (acked : Option MsgKind) (ha : (v.entry h).state = .active) :
    v.judge h .confirming kind acked d = v.setEntry h { v.entry h with misplaced := 0 } := by
  simp only [State.judge, ha, if_true]

theorem confirmedFrom_state (e : Entry) : (e.confirmedFrom q eq delay).state = .active := by
  obtain ⟨m, b, helse, -⟩ := confirmedFrom_else e q eq delay
  rw [helse]
  rfl

/-- Outside DRAINING the confirmed home stands ACTIVE, with no misplaced burst. -/
theorem confirmed_stands (hdr : s.draining = false) (hh : 1 ≤ h ∧ h ≤ 64) (acked : Option MsgKind) :
    ((s.confirmedAt h d q eq delay).drainClose h).judge h .confirming .range acked d =
      (s.confirmedAt h d q eq delay).setEntry h { (s.entry h).confirmedFrom q eq delay with misplaced := 0 } := by
  obtain ⟨hentry, -, -, -, -, ⟨-, -, -, -, -, -, -, -, -, hil, -⟩, -⟩ :=
    confirmedAt_frame (s := s) (d := d) (q := q) (eq := eq) (delay := delay) hh
  rw [drainClose_stands _ h (by unfold State.draining; rw [hil]; exact hdr),
    judge_confirming _ _ (by rw [hentry, confirmedFrom_state]), hentry]

/-- While DRAINING it closes at once, and nothing is judged (R64, R192). -/
theorem confirmed_closes (hdr : s.draining = true) (hh : 1 ≤ h ∧ h ≤ 64) (acked : Option MsgKind) :
    ((s.confirmedAt h d q eq delay).drainClose h).judge h .confirming .range acked d =
      (s.confirmedAt h d q eq delay).enterClosing h .restart true := by
  obtain ⟨hentry, -, -, -, -, ⟨-, -, -, -, -, -, -, -, -, hil, -⟩, -⟩ :=
    confirmedAt_frame (s := s) (d := d) (q := q) (eq := eq) (delay := delay) hh
  rw [drainClose_closes _ h (by unfold State.draining; rw [hil]; exact hdr) (.inl (by rw [hentry, confirmedFrom_state]))]
  refine judge_unjudged _ _ _ _ _ _ ?_
  rw [enterClosing_entry, if_pos ⟨rfl, hh⟩, toClosing_state]
  rfl

/-- What that close leaves of the home (R64, R82, R87, R166). -/
theorem confirmedClosed_frame (hs : (s.entry h).state = .confirming) (hh : 1 ≤ h ∧ h ≤ 64) :
    let t := (s.confirmedAt h d q eq delay).enterClosing h .restart true
    t.entry h = ((s.entry h).confirmedFrom q eq delay).toClosing true ∧
      t.acct h = some { Account.opening s.img.defaultMode s.um.period with
        snapshot := some (restartRecord s.img.defaultMode s.um.period) } ∧
      t.ua.booked = s.ua.booked - (s.entry h).bookedTerm ∧ (t.drift h).phase = .off ∧ t.hu = s.hu := by
  obtain ⟨hentry, hacct, hua, hhu, hperiod, -, -⟩ :=
    confirmedAt_frame (s := s) (d := d) (q := q) (eq := eq) (delay := delay) hh
  have hterm : ((s.confirmedAt h d q eq delay).entry h).bookedTerm = (s.entry h).bookedTerm := by
    obtain ⟨m, b, helse, -⟩ := confirmedFrom_else (s.entry h) q eq delay
    rw [hentry, helse]
    unfold Entry.bookedTerm
    rw [hs]
    rfl
  dsimp only
  refine ⟨?_, ?_, ?_, ?_, (enterClosing_hu ..).trans hhu⟩
  · rw [enterClosing_entry, if_pos ⟨rfl, hh⟩, hentry]
  · rw [enterClosing_acct, if_pos ⟨rfl, hh⟩, hacct, hperiod, Option.map_some, finish_opening]
  · rw [enterClosing_ua, hterm, hua]
  · rw [enterClosing_drift _ _ _ _ hh]

end Confirmed

/-- A closing entry keeps what RELEASE does not touch. -/
theorem toClosing_else (e : Entry) (release : Bool) : ∃ m b, e.toClosing release =
    { e with state := .closing, lostTimer := none, handover := none, mailbox := m, seqBit := b } := by
  unfold Entry.toClosing
  cases release with
  | false => exact ⟨e.mailbox, e.seqBit, rfl⟩
  | true => exact post_else { e with state := .closing, lostTimer := none, handover := none } .release

/-- Settles O20: the burst confirms the home; outside DRAINING it stands ACTIVE, while DRAINING it closes as it opened. -/
theorem confirmationSucceeds : Obligations.ConfirmationSucceeds := by
  unfold Obligations.ConfirmationSucceeds
  intro s r w m d q serial h k eq hr ho hkind hw hserial hwserial hs hm hk hc hf he hd hspan E
  have hfree : (s.entry r.handle).state ≠ .free := by rw [hs]; decide
  have hh := handle_of_state s r.handle hfree
  obtain ⟨t, hexec, hoff⟩ := exec_observe s r w (.clean d r.handle m.seqBit q []) hr ho (.inr hkind) hw hspan
  rw [observeBurst_clean (s.opened r) r w d _ q [] hfree (hserial.trans hwserial.symm), hkind,
    cleanBurst_confirms (s := s.opened r) (delay := E) hs hm hk hc hf he hd rfl hh] at hoff
  obtain ⟨-, hacct, hua, hhu, -, hframe, hraised⟩ :=
    confirmedAt_frame (s := s.opened r) (d := d) (q := q) (eq := eq) (delay := E) hh
  obtain ⟨mail, bit, helse, hmail⟩ := confirmedFrom_else (s.entry r.handle) q eq E
  have hevent : Raised s ((s.opened r).confirmedAt r.handle d q eq E) (.homeActive (some serial) r.handle E) := by
    rw [← hserial]
    exact hraised.before ⟨rfl, rfl⟩
  have hhome := (opened_homeStep s r r.handle).1.trans hframe
  refine ⟨t, hexec, ?_⟩
  cases hdr : s.draining with
  | false =>
    rw [confirmed_stands (s := s.opened r) hdr hh] at hoff
    have hactive : t.entry r.handle =
        { (s.entry r.handle).confirmed q E with mailbox := mail, seqBit := bit, misplaced := 0 } := by
      rw [hoff.entry, entry_setEntry_self _ _ _ hh, opened_entry, helse]
    obtain ⟨hstepFrame, hquiet⟩ := (setEntry_homeStep ((s.opened r).confirmedAt r.handle d q eq E) r.handle _).trans
      (hoff.homeStep r.handle)
    rw [hactive]
    exact ⟨rfl, hserial, rfl, rfl, rfl, rfl, ⟨_, (hoff.acct _).trans hacct, rfl, rfl, rfl, rfl, fun _ => rfl, nofun⟩,
      fun _ => ⟨rfl, rfl, congrArg Allocator.booked (hoff.ua.trans hua), hmail⟩, nofun, hoff.hu.trans hhu,
      hevent.after hquiet, hhome.trans hstepFrame⟩
  | true =>
    rw [confirmed_closes (s := s.opened r) hdr hh] at hoff
    obtain ⟨hclosing, hfinal, hbooked, hphase, hhunt⟩ :=
      confirmedClosed_frame (s := s.opened r) (d := d) (q := q) (eq := eq) (delay := E) hs hh
    have hentry : t.entry r.handle = ((s.entry r.handle).confirmedFrom q eq E).toClosing true := (hoff.entry _).trans hclosing
    have hrelease : (t.entry r.handle).mailbox.map Message.kind = some .release := by
      rw [hentry]
      exact post_release_mailbox _
    obtain ⟨mail', bit', hclosed⟩ := toClosing_else ((s.entry r.handle).confirmedFrom q eq E) true
    obtain ⟨hstepFrame, hquiet⟩ := (enterClosing_homeStep ((s.opened r).confirmedAt r.handle d q eq E) r.handle
      .restart true).trans (hoff.homeStep r.handle)
    rw [hentry, hclosed, helse] at hrelease ⊢
    exact ⟨rfl, hserial, rfl, rfl, rfl, rfl,
      ⟨_, (hoff.acct _).trans hfinal, rfl, rfl, rfl, rfl, nofun, fun _ => rfl⟩, nofun,
      fun _ => ⟨rfl, (congrArg Allocator.booked hoff.ua).trans hbooked, hrelease,
        (congrArg Drift.phase (hoff.drift _)).trans hphase⟩,
      hoff.hu.trans hhunt, hevent.after hquiet, hhome.trans hstepFrame⟩

end Sys2Proof.Machine
end

section
/-! PROOFS. The line: ignored and failing frames, the end of detachment, contention, voids (R59, R172 to R178). -/

namespace Sys2Proof.Machine

/-! ### Frames heard (R173, R174, R178) -/

theorem exec_ignoredFrame (s : State) (cls : BitVec 3) (sender : Station) (kind : BitVec 4) (hr : s.resetHeld = false) :
    exec (.carriedIgnoredFrame cls sender kind) s = .next s.lineHeard := if_neg (by rw [hr]; decide)

/-- A frame passes its check by its length and its check field (R173). -/
theorem frameGood_iff (f : RawFrame) : frameGood f = true ↔ f.length.toNat ≤ 48 ∧ crc (frameBits f) = f.check := by
  unfold frameGood
  rw [Bool.and_eq_true, decide_eq_true_eq, decide_eq_true_eq]

theorem exec_failedFrame (s : State) (f : RawFrame) (hr : s.resetHeld = false) (hf : ¬frameGood f = true) :
    exec (.frameCheckFailed f) s =
      .next { s with ports := { s.ports with voidDriven := decide (s.slp.lineState = .attached) } } :=
  (if_neg (by rw [hr]; decide)).trans (if_neg hf)

theorem exec_detachTimer (s : State) (n : Nat) (hr : s.resetHeld = false) (hd : s.slp.lineState = .detached)
    (ht : s.slp.detachTimer = some n) (hn : n ≤ 1) : ∃ t, exec .detachTimerExpiry s = .next t ∧
      Offered { s with slp := { s.slp with lineState := .attached, voidCount := 0, detachTimer := none } } t := by
  have hdue : dueTimer s.slp.detachTimer = true := by rw [ht]; exact decide_eq_true hn
  exact ⟨_, (if_neg (by rw [hr]; decide)).trans (if_pos ⟨hd, hdue⟩), settle_offered _⟩

/-- Settles O47: each of the three is one branch of its command. -/
theorem framesHeard : Obligations.FramesHeard := by
  unfold Obligations.FramesHeard
  intro s hr
  refine ⟨fun cls sender kind => exec_ignoredFrame s cls sender kind hr, fun f hf => exec_failedFrame s f hr fun hgood => ?_,
    fun n => exec_detachTimer s n hr⟩
  obtain ⟨hlength, hcheck⟩ := (frameGood_iff f).1 hgood
  exact hf.elim (fun hlong => Nat.not_le.2 hlong hlength) fun hbad => hbad hcheck

/-! ### Contention (R172, R176) -/

theorem sends_iff (s : State) : s.sends = true ↔ s.il.startup ≠ .loading ∧ s.slp.lineState = .attached :=
  decide_eq_true_iff

theorem strongestSlot_none (s : State) (h : ∀ slot, s.slotFull slot = false) : s.strongestSlot = none :=
  List.find?_eq_none.2 fun slot _ => by rw [h slot]; decide

/-- The slots stand in the order of their classes, so the first not empty is the one of the lowest class (R173, R176). -/
theorem strongestSlot_some (s : State) (slot : Slot) (hfull : s.slotFull slot = true)
    (hlow : ∀ other : Slot, other.cls < slot.cls → s.slotFull other = false) : s.strongestSlot = some slot := by
  unfold State.strongestSlot
  cases slot with
  | notice => rw [List.find?_cons_of_pos hfull]
  | result =>
    rw [List.find?_cons_of_neg (by rw [hlow .notice (by decide)]; decide), List.find?_cons_of_pos hfull]
  | report =>
    rw [List.find?_cons_of_neg (by rw [hlow .notice (by decide)]; decide),
      List.find?_cons_of_neg (by rw [hlow .result (by decide)]; decide), List.find?_cons_of_pos hfull]
  | usage =>
    rw [List.find?_cons_of_neg (by rw [hlow .notice (by decide)]; decide),
      List.find?_cons_of_neg (by rw [hlow .result (by decide)]; decide),
      List.find?_cons_of_neg (by rw [hlow .report (by decide)]; decide), List.find?_cons_of_pos hfull]

/-- A port that may not send, is sending, or has nothing to send does not contend (R172, R176, R178). -/
theorem exec_contend_idle (s : State) (rival : Option (BitVec 11)) (hr : s.resetHeld = false)
    (h : s.il.startup = .loading ∨ s.slp.lineState = .detached ∨ s.slp.transmitting ≠ none ∨
      ∀ slot, s.slotFull slot = false) : exec (.lineIdleContend rival) s = .next s := by
  refine (if_neg (by rw [hr]; decide)).trans ?_
  by_cases hsends : s.sends = true ∧ s.slp.transmitting = none
  · obtain ⟨hsend, hidle⟩ := hsends
    obtain ⟨hstart, hline⟩ := (sends_iff s).1 hsend
    obtain h | h | h | h := h
    · exact absurd h hstart
    · exact absurd (hline.symm.trans h) (by decide)
    · exact absurd hidle h
    · rw [if_pos ⟨hsend, hidle⟩, strongestSlot_none s h]
  · exact if_neg hsends

/-- The port contends with its strongest frame, and begins to send it unless a rival beats it (R172, R176). -/
theorem exec_contend (s : State) (slot : Slot) (rival : Option (BitVec 11)) (hr : s.resetHeld = false)
    (hstart : s.il.startup ≠ .loading) (hline : s.slp.lineState = .attached) (hidle : s.slp.transmitting = none)
    (hfull : s.slotFull slot = true) (hlow : ∀ other : Slot, other.cls < slot.cls → s.slotFull other = false) :
    exec (.lineIdleContend rival) s =
      if (rival.all fun r => s.wins slot r) = true then .next { s with slp := { s.slp with transmitting := some slot } }
      else .next s := by
  refine (if_neg (by rw [hr]; decide)).trans ((if_pos ⟨(sends_iff s).2 ⟨hstart, hline⟩, hidle⟩).trans ?_)
  rw [strongestSlot_some s slot hfull hlow]

/-- Between different classes or senders the lower one wins, class first (R172, R173). -/
theorem wins_lower (s : State) (slot : Slot) (r : BitVec 11) (h : slot.cls * 16 + s.slp.station.toNat ≠ r.toNat / 16) :
    s.wins slot r = decide (slot.cls * 16 + s.slp.station.toNat < r.toNat / 16) := if_neg h

/-! ### Voids (R177, R178) -/

/-- The state as a void ends the transmission: the count has advanced, to 32 at most (R178). -/
def State.voided (s : State) (v : Bool) : State :=
  { s with
    slp := { s.slp with transmitting := none, voidCount := min 32 (s.slp.voidCount + 1) }
    ports := { s.ports with voidDriven := v } }

theorem exec_voided (s : State) (slot : Slot) (v : Bool) (hr : s.resetHeld = false)
    (ht : s.slp.transmitting = some slot) : ∃ t, exec (.ownFrameVoided v) s = .next t ∧
      Offered (if slot = .notice then (s.voided v).removeWithdrawn else s.voided v).detachIfDue t := by
  refine ⟨_, ?_, settle_offered _⟩
  have harm : exec (.ownFrameVoided v) s = execOwnFrameVoided v s := rfl
  rw [harm, execOwnFrameVoided, if_neg (by rw [hr]; decide), ht]
  rfl

/-- Short of the 32nd void the port stays as it is (R178). -/
theorem detachIfDue_stays (s : State) (h : s.slp.voidCount < 32) : s.detachIfDue = s := if_pos h

/-- A notice not withdrawn stays in its slot (R177). -/
theorem removeWithdrawn_stays (s : State) (h : ∀ x, s.slp.noticeSlot = some x → x.withdrawn = false) :
    s.removeWithdrawn = s := by
  unfold State.removeWithdrawn
  split
  · rfl
  next x hx => exact if_neg (by rw [h x hx]; decide)

/-- What the removal of a withdrawn notice may change: the notice slot, and one home in DRAINING (R140, R177). -/
theorem removeWithdrawn_cases (s : State) :
    s.removeWithdrawn = s ∨ s.removeWithdrawn = { s with slp := { s.slp with noticeSlot := none } } ∨
      s.draining = true ∧ ∃ h, s.removeWithdrawn = State.freeEntry { s with slp := { s.slp with noticeSlot := none } } h := by
  unfold State.removeWithdrawn
  split
  · exact .inl rfl
  split
  · dsimp only
    split
    · split
      · exact .inr (.inl rfl)
      next h _ =>
        split
        next hdr => exact .inr (.inr ⟨hdr.1, h, rfl⟩)
        next => exact .inr (.inl rfl)
    · exact .inr (.inl rfl)
  · exact .inl rfl

/-- Outside DRAINING the removal of a withdrawn notice empties the slot alone (R177). -/
theorem removeWithdrawn_empties (s : State) (h : ∀ x, s.slp.noticeSlot = some x → x.withdrawn = true)
    (hdr : s.draining = false) : s.removeWithdrawn = { s with slp := { s.slp with noticeSlot := none } } := by
  unfold State.removeWithdrawn
  split
  next hnone => rw [← hnone]
  next x hx =>
    rw [if_pos (h x hx)]
    dsimp only
    split
    · split
      · rfl
      · exact if_neg fun y => absurd (hdr.symm.trans y.1) (by decide)
    · rfl

/-! ### The claims dropped as the port detaches (R56, R59) -/

/-- What dropping claims leaves alone, and what it keeps: a FREE entry stays FREE, and no capture comes. -/
structure ClaimsDropped (s t : State) : Prop where
  tables : TablesSame s t
  line : LineSame s t
  cb : t.cb = s.cb
  il : t.il = s.il
  results : t.rq.results = s.rq.results
  quiet : NoEvent s t
  free : ∀ h, s.entry h = Entry.free → t.entry h = Entry.free
  captures : ∀ k, some k ∈ t.ee.captures → some k ∈ s.ee.captures

/-- Where notices stand with the port is no part of it. -/
theorem notices_claimsDropped (s : State) (queued presented : List Notice) (slot : Option SlotNotice) : ClaimsDropped s
    { s with slp := { s.slp with queued := queued, presented := presented, noticeSlot := slot } } :=
  ⟨⟨rfl, rfl, rfl, rfl⟩, ⟨rfl, rfl, rfl, rfl, rfl, rfl⟩, rfl, rfl, rfl, ⟨rfl, rfl⟩, fun _ h => h, fun _ h => h⟩

theorem ClaimsDropped.refl (s : State) : ClaimsDropped s s :=
  notices_claimsDropped s s.slp.queued s.slp.presented s.slp.noticeSlot

theorem LineSame.trans {s t u : State} (a : LineSame s t) (b : LineSame t u) : LineSame s u := by
  obtain ⟨a1, a2, a3, a4, a5, a6⟩ := a
  obtain ⟨b1, b2, b3, b4, b5, b6⟩ := b
  exact ⟨b1.trans a1, b2.trans a2, b3.trans a3, b4.trans a4, b5.trans a5, b6.trans a6⟩

theorem ClaimsDropped.trans {s t u : State} (a : ClaimsDropped s t) (b : ClaimsDropped t u) : ClaimsDropped s u :=
  ⟨a.tables.trans b.tables, a.line.trans b.line, b.cb.trans a.cb, b.il.trans a.il, b.results.trans a.results,
    ⟨b.quiet.1.trans a.quiet.1, b.quiet.2.trans a.quiet.2⟩, fun h hf => b.free h (a.free h hf),
    fun k hk => a.captures k (b.captures k hk)⟩

/-- An entry freed, its place in the capture list or not. -/
theorem freeEntry_claimsDropped (s : State) (h : Nat) : ClaimsDropped s (s.freeEntry h) := by
  obtain ⟨⟨-, htables, hline, hcb, hee, -, -, -, -, hil, hresults, -, -⟩, hquiet⟩ := freeEntry_frame s h
  refine ⟨htables, hline, hcb, hil, hresults, hquiet, fun k hk => ?_, fun k hk => by rwa [hee] at hk⟩
  rw [freeEntry_entry]
  split
  · rfl
  · exact hk

theorem freePlaceOf_claimsDropped (s : State) (h : Nat) : ClaimsDropped s (s.freePlaceOf h) := by
  refine ⟨⟨rfl, rfl, rfl, rfl⟩, ⟨rfl, rfl, rfl, rfl, rfl, rfl⟩, rfl, rfl, rfl, ⟨rfl, rfl⟩, fun _ hf => hf, fun k hk => ?_⟩
  obtain ⟨c, hc, hkept⟩ := List.mem_map.1 hk
  split at hkept
  · cases hkept
  · rwa [← hkept]

theorem dropClaim_claimsDropped (s : State) (serial : Serial) (h : Nat) : ClaimsDropped s (s.dropClaim serial h) := by
  rw [dropClaim_eq]
  exact ((freePlaceOf_claimsDropped s h).trans (freeEntry_claimsDropped _ h)).trans (notices_claimsDropped ..)

/-- The claim of a capture is dropped where its CLAIM is not yet carried (R59). -/
def State.dropIfUncarried (s : State) : Option Capture → State
  | none => s
  | some k =>
    match k.claim with
    | none => s
    | some p => if p.carried then s else s.dropClaim k.serial p.handle

theorem dropUncarried_eq (s : State) : s.dropUncarried = s.ee.captures.foldl State.dropIfUncarried s := by
  unfold State.dropUncarried
  refine congrArg (fun f => List.foldl f s s.ee.captures) (funext fun t => funext fun c => ?_)
  cases c <;> rfl

theorem dropIfUncarried_claimsDropped (s : State) (c : Option Capture) : ClaimsDropped s (s.dropIfUncarried c) := by
  unfold State.dropIfUncarried
  split
  · exact .refl s
  · split
    · exact .refl s
    · split
      · exact .refl s
      · exact dropClaim_claimsDropped ..

/-- Nothing is left of a claim: its entry is FREE, and no capture claims at its handle. -/
def State.NoClaimAt (s : State) (h : Nat) : Prop :=
  s.entry h = Entry.free ∧ ∀ x y, some x ∈ s.ee.captures → x.claim = some y → y.handle ≠ h

theorem ClaimsDropped.noClaimAt {s t : State} {h : Nat} (d : ClaimsDropped s t) (n : s.NoClaimAt h) : t.NoClaimAt h :=
  ⟨d.free h n.1, fun x y hx hy => n.2 x y (d.captures x hx) hy⟩

theorem dropIfUncarried_noClaimAt {s : State} {k : Capture} {p : ClaimPart} (hp : k.claim = some p)
    (hc : p.carried = false) : (s.dropIfUncarried (some k)).NoClaimAt p.handle := by
  have hdrop : s.dropIfUncarried (some k) = s.dropClaim k.serial p.handle := by
    unfold State.dropIfUncarried
    dsimp only
    rw [hp]
    exact if_neg (by rw [hc]; decide)
  obtain ⟨hfree, -, -, hgone, -⟩ := dropClaim_frees s k.serial p.handle
  rw [hdrop]
  exact ⟨hfree, hgone⟩

/-- The captures of a list taken in turn: every claim among them not yet carried is gone at the end. -/
theorem dropAll_claimsDropped (cs : List (Option Capture)) (s : State) :
    ClaimsDropped s (cs.foldl State.dropIfUncarried s) ∧
      ∀ k p, some k ∈ cs → k.claim = some p → p.carried = false →
        (cs.foldl State.dropIfUncarried s).NoClaimAt p.handle := by
  induction cs generalizing s with
  | nil => exact ⟨.refl s, fun k p hk => absurd hk List.not_mem_nil⟩
  | cons c cs ih =>
    obtain ⟨hrest, hgone⟩ := ih (s.dropIfUncarried c)
    refine ⟨(dropIfUncarried_claimsDropped s c).trans hrest, fun k p hk hp hc => ?_⟩
    obtain rfl | hk := List.mem_cons.1 hk
    · exact hrest.noClaimAt (dropIfUncarried_noClaimAt hp hc)
    · exact hgone k p hk hp hc

/-! ### The 32nd void (R178) -/

/-- The state as the port enters DETACHED, before the claims are dropped (R178). -/
def State.lineLost (s : State) : State :=
  { s with slp := { s.slp with
      lineState := .detached, detachTimer := some 4000, detachSpan := some (s.slp.detachSpan.getD 0) } }

theorem detachIfDue_detaches (s : State) (h : 32 ≤ s.slp.voidCount) : s.detachIfDue = s.lineLost.dropUncarried :=
  if_neg (Nat.not_lt.2 h)

/-- The removal of a withdrawn notice drops no claim of the capture list. -/
theorem removeWithdrawn_claimsDropped (s : State) : ClaimsDropped s s.removeWithdrawn ∧ s.removeWithdrawn.ee = s.ee := by
  have hslot : ClaimsDropped s { s with slp := { s.slp with noticeSlot := none } } := notices_claimsDropped s _ _ none
  obtain h | h | ⟨-, k, h⟩ := removeWithdrawn_cases s <;> rw [h]
  · exact ⟨.refl s, rfl⟩
  · exact ⟨hslot, rfl⟩
  · exact ⟨hslot.trans (freeEntry_claimsDropped _ k), freeEntry_ee ..⟩

/-- The 32nd void in a row, whatever the removal of a withdrawn notice left: DETACHED, the claims not carried gone (R59, R178). -/
theorem voided_detaches {s w : State} {v : Bool} (hv : 31 ≤ s.slp.voidCount) (hw : ClaimsDropped (s.voided v) w)
    (hee : w.ee = s.ee) : let t := w.detachIfDue
    t.slp.lineState = .detached ∧ t.slp.voidCount = 32 ∧ t.slp.detachTimer = some 4000 ∧
      t.slp.detachSpan = some (s.slp.detachSpan.getD 0) ∧ t.slp.transmitting = none ∧ NoEvent s t ∧ t.il = s.il ∧
      t.cb = s.cb ∧ t.rq.results = s.rq.results ∧ TablesSame s t ∧
      ∀ k p, some k ∈ s.ee.captures → k.claim = some p → p.carried = false → t.NoClaimAt p.handle := by
  obtain ⟨-, -, hcount, -, hspan, hidle⟩ := hw.line
  have hfull : w.slp.voidCount = 32 := hcount.trans (Nat.min_eq_left (by omega))
  dsimp only
  rw [detachIfDue_detaches w (Nat.le_of_eq hfull.symm), dropUncarried_eq]
  obtain ⟨hdropped, hgone⟩ := dropAll_claimsDropped w.lineLost.ee.captures w.lineLost
  obtain ⟨-, hline', hcount', htimer', hspan', hidle'⟩ := hdropped.line
  refine ⟨hline', hcount'.trans hfull, htimer', hspan'.trans ?_, hidle'.trans hidle, ?_, hdropped.il.trans hw.il,
    hdropped.cb.trans hw.cb, hdropped.results.trans hw.results, hw.tables.trans hdropped.tables,
    fun k p hk => hgone k p ?_⟩
  · exact congrArg (fun span => some (Option.getD span 0)) hspan
  · exact ⟨hdropped.quiet.1.trans hw.quiet.1, hdropped.quiet.2.trans hw.quiet.2⟩
  · change some k ∈ w.ee.captures
    rwa [hee]

/-- Settles O48: contention by the strongest slot; a void by its count and by what stands in the notice slot. -/
theorem portContends : Obligations.PortContends := by
  unfold Obligations.PortContends
  intro s hr
  refine ⟨fun rival => exec_contend_idle s rival hr, fun slot hstart hline hidle hfull hlow => ?_, fun slot v ht => ?_⟩
  · have hcontend (rival : Option (BitVec 11)) := exec_contend s slot rival hr hstart hline hidle hfull hlow
    refine ⟨(hcontend none).trans (if_pos rfl), fun r => ⟨fun hlower => ?_, fun hhigher => ?_⟩⟩
    · refine (hcontend (some r)).trans (if_pos ?_)
      exact (wins_lower s slot r (Nat.ne_of_lt hlower)).trans (decide_eq_true hlower)
    · refine (hcontend (some r)).trans (if_neg ?_)
      rw [Option.all_some, wins_lower s slot r (Nat.ne_of_gt hhigher), decide_eq_true_eq]
      exact Nat.lt_asymm hhigher
  · obtain ⟨t, hexec, hoff⟩ := exec_voided s slot v hr ht
    have hcount (hv : s.slp.voidCount < 31) : min 32 (s.slp.voidCount + 1) = s.slp.voidCount + 1 :=
      Nat.min_eq_right (by omega)
    refine ⟨t, hexec, fun hv hstands => ?_, fun hv hdr hslot hwithdrawn => ?_, fun hv => ?_⟩
    · rw [removeWithdrawn_stays (s.voided v) hstands, ite_self, detachIfDue_stays _ (by exact (hcount hv).trans_lt (by omega)),
        State.voided, hcount hv] at hoff
      exact hoff
    · rw [if_pos hslot, removeWithdrawn_empties (s.voided v) hwithdrawn hdr,
        detachIfDue_stays _ (by exact (hcount hv).trans_lt (by omega)), State.voided, hcount hv] at hoff
      exact hoff
    · generalize hw : (if slot = .notice then (s.voided v).removeWithdrawn else s.voided v) = w at hoff
      have hremoved : ClaimsDropped (s.voided v) w ∧ w.ee = s.ee := by
        rw [← hw]
        split
        · exact removeWithdrawn_claimsDropped _
        · exact ⟨.refl _, rfl⟩
      obtain ⟨hline, hfull, htimer, hspan, hidle, hquiet, hil, hcb, hresults, htables, hgone⟩ :=
        voided_detaches hv hremoved.1 hremoved.2
      obtain ⟨-, hline', -, -, -, hidle'⟩ := hoff.lineSame
      refine ⟨hline'.trans hline, hoff.voidCount.trans hfull, hoff.detachTimer.trans htimer, hoff.detachSpan.trans hspan,
        hidle'.trans hidle, ⟨hoff.events.trans hquiet.1, hoff.dropped.trans hquiet.2⟩, hoff.il.trans hil,
        hoff.cb.trans hcb, hoff.results.trans hresults, htables.trans hoff.tables, fun k p hk hp hc => ?_⟩
      rw [hoff.entry, hoff.ee]
      exact hgone k p hk hp hc

end Sys2Proof.Machine
end

section
/-! PROOFS. SET_DISCOVERY, START_HUNT and RESTART (R47, R107, R109, R180). -/

namespace Sys2Proof.Machine

/-! ### SET_DISCOVERY (R47) -/

theorem readFlag_one : readFlag (BitVec.ofNat 8 1) = .set := rfl

theorem readFlag_zero : readFlag (BitVec.ofNat 8 0) = .clear := rfl

/-- Discovery cannot be enabled where the image gives it no period (R47). -/
theorem discovery_setRange (s : State) (h : s.img.pDisc = 0) : s.discovery .set = s.refusedWith .range := if_pos h

theorem discovery_set (s : State) (h : s.img.pDisc ≠ 0) :
    s.discovery .set = State.done { s with ee := { s.ee with discoveryEnable := true } } := if_neg h

/-! ### START_HUNT (R107, R109) -/

/-- The answer to START_HUNT, the first of its conditions that holds (R109). -/
def State.huntAnswer (s : State) : Answer :=
  if s.draining = true ∨ s.il.startup = .listening then s.refusedWith .busy
  else if s.hu.flag.isSome then s.refusedWith .huntActive
  else if s.hu.opening then s.done
  else s.openHunt.done

theorem execStartHunt_eq (hd : RequestHeader) (d : List Byte) (s : State) :
    execStartHunt hd d s = request .startHunt hd (readEmpty d) (fun _ t => t.huntAnswer) s := rfl

theorem huntAnswer_busy (s : State) (h : s.il.startup = .draining ∨ s.il.startup = .listening) :
    s.huntAnswer = s.refusedWith .busy := if_pos (h.imp_left fun hd => decide_eq_true hd)

/-- In OPERATING START_HUNT is not BUSY (R109). -/
theorem huntAnswer_operating (s : State) (h : s.il.startup = .operating) :
    s.huntAnswer = if s.hu.flag.isSome then s.refusedWith .huntActive else if s.hu.opening then s.done else s.openHunt.done := by
  refine if_neg fun hx => ?_
  rw [State.draining, h] at hx
  exact hx.elim (by decide) (by decide)

/-- With the flag clear an offer that stands is answered OK, and another is made where none stands (R107, R109). -/
theorem huntAnswer_unflagged (s : State) (h : s.il.startup = .operating) (hflag : s.hu.flag = none) :
    s.huntAnswer = if s.hu.opening then s.done else s.openHunt.done := by
  rw [huntAnswer_operating s h, hflag]
  rfl

/-- HUNT_OPEN is queued where the four conditions hold (R107). -/
theorem openHunt_opens (s : State) (hrole : s.hu.role = .noRole) (hflag : s.hu.flag = none) (hopening : s.hu.opening = false)
    (hstart : s.il.startup = .operating) :
    s.openHunt = State.queueNotice { s with hu := { s.hu with opening := true, openCount := s.hu.openCount + 1 } }
      (.huntOpen { station := s.slp.station, count := s.hu.openCount }) :=
  if_pos ⟨hrole, hflag, hopening, decide_eq_true hstart⟩

/-! ### RESTART (R180) -/

/-- The answer to RESTART (R180). -/
def State.restartAnswer (s : State) : Answer :=
  if s.draining = true ∨ (s.rq.results.any Result.isRestart) = true then s.refusedWith .busy else s.done

theorem execRestart_eq (hd : RequestHeader) (d : List Byte) (s : State) :
    execRestart hd d s = request .restart hd (readEmpty d) (fun _ t => t.restartAnswer) s := rfl

/-- RESTART is BUSY in DRAINING, and while an earlier RESTART's OK waits (R180). -/
theorem restart_busy_iff (s : State) : (s.draining = true ∨ (s.rq.results.any Result.isRestart) = true) ↔
    s.il.startup = .draining ∨ ∃ r ∈ s.rq.results, r.kind = .restart ∧ r.code = .ok := by
  rw [State.draining, decide_eq_true_eq, List.any_eq_true]
  simp only [isRestart_iff]

theorem readEmpty_nil : readEmpty [] = some () := rfl

/-- Settles O60: each request by the first of its answers that applies. -/
theorem switchesAnswered : Obligations.SwitchesAnswered := by
  unfold Obligations.SwitchesAnswered
  intro s hd htakes
  refine ⟨⟨_, request_takes .setDiscovery hd _ _ s htakes _ (readByte_write 1 (by decide)), fun hp => ?_, fun hp => ?_⟩,
    ⟨_, request_takes .setDiscovery hd _ _ s htakes _ (readByte_write 0 (by decide)), ?_⟩,
    ⟨_, (execStartHunt_eq hd [] s).trans (request_takes .startHunt hd _ _ s htakes () readEmpty_nil), fun hs => ?_,
      fun hs hflag => ?_, fun hs hflag hopening => ?_, fun hs hflag hopening hrole => ?_⟩,
    ⟨_, (execRestart_eq hd [] s).trans (request_takes .restart hd _ _ s htakes () readEmpty_nil), fun hbusy => ?_,
      fun hs hnone => ?_⟩⟩
  · exact offered_of_answer rfl (discovery_setRange s.lineHeard hp) rfl
  · exact offered_of_answer rfl (discovery_set s.lineHeard hp) rfl
  · exact settle_offered _
  · exact offered_of_answer rfl (huntAnswer_busy s.lineHeard hs) rfl
  · exact offered_of_answer rfl ((huntAnswer_operating s.lineHeard hs).trans (if_pos hflag)) rfl
  · exact offered_of_answer rfl ((huntAnswer_unflagged s.lineHeard hs hflag).trans (if_pos hopening)) rfl
  · have hno : ¬s.lineHeard.hu.opening = true := fun hx => absurd (hopening.symm.trans hx) (by decide)
    exact offered_of_answer rfl ((huntAnswer_unflagged s.lineHeard hs hflag).trans ((if_neg hno).trans
      (congrArg State.done (openHunt_opens s.lineHeard hrole hflag hopening hs)))) rfl
  · exact offered_of_answer rfl (if_pos ((restart_busy_iff s.lineHeard).2 hbusy)) rfl
  · have hno : ¬(s.il.startup = .draining ∨ ∃ r ∈ s.rq.results, r.kind = .restart ∧ r.code = .ok) := fun hx =>
      hx.elim hs fun ⟨r, hr, hk, hc⟩ => hnone r hr hk hc
    exact offered_of_answer rfl (if_neg fun hx => hno ((restart_busy_iff s.lineHeard).1 hx)) rfl

end Sys2Proof.Machine
end

section
/-! PROOFS. Alarms placed, merged and repeated (R182, R183), LINE_DETACHED (R178), and the frames the part sends (R173, R175). -/

namespace Sys2Proof.Machine

/-! ### A report placed at an alarm source (R183) -/

/-- In an idle place the report is pending, as the newest. -/
theorem placeReport_new {s : State} {a : AlarmSource} (c : AlarmContent) (r : Bool) (hslot : s.slp.alarmInSlot a = false)
    (hidle : ∀ p ∈ s.rq.alarms, p.source ≠ a) : s.placeReport a c r =
      { s with rq := { s.rq with alarms := s.rq.alarms ++ [AlarmPlace.new a c r] } } := by
  refine (if_neg (by rw [hslot]; decide)).trans (if_neg fun h => ?_)
  obtain ⟨p, hp, hsource⟩ := List.any_eq_true.1 h
  exact hidle p hp (of_decide_eq_true hsource)

/-- In a pending place it takes the place of the content. -/
theorem placeReport_merged {s : State} {a : AlarmSource} (c : AlarmContent) (r : Bool)
    (hslot : s.slp.alarmInSlot a = false) (hpending : ∃ p ∈ s.rq.alarms, p.source = a) : s.placeReport a c r =
      { s with rq := { s.rq with alarms := s.rq.alarms.map fun p => if p.source = a then p.merge c r else p } } := by
  obtain ⟨p, hp, hsource⟩ := hpending
  exact (if_neg (by rw [hslot]; decide)).trans (if_pos (List.any_eq_true.2 ⟨p, hp, decide_eq_true hsource⟩))

/-- The report behind the alarm in the slot once one more is recorded there. -/
def laterReport (a : AlarmSource) (c : AlarmContent) (r : Bool) : Option AlarmPlace → AlarmPlace
  | none => AlarmPlace.new a c r
  | some l => l.merge c r

theorem laterReport_content (a : AlarmSource) (c : AlarmContent) (r : Bool) (later : Option AlarmPlace) :
    (laterReport a c r later).content = c ∧ (laterReport a c r later).repeated = r := by
  cases later <;> exact ⟨rfl, rfl⟩

/-- While the place is in the slot the report is recorded behind it. -/
theorem placeReport_later {s : State} {a : AlarmSource} (c : AlarmContent) (r : Bool) {f : ReportFrame} {p : AlarmPlace}
    {later : Option AlarmPlace} (hf : s.slp.reportSlot = some f) (hb : f.body = .alarm p later) (hp : p.source = a) :
    s.placeReport a c r = { s with
      slp := { s.slp with reportSlot := some { f with body := .alarm p (some (laterReport a c r later)) } } } := by
  have hslot : s.slp.alarmInSlot a = true := by
    unfold LinePort.alarmInSlot
    rw [hf]
    dsimp only
    rw [hb]
    exact decide_eq_true hp
  refine (if_pos hslot).trans ?_
  unfold LinePort.recordLater
  rw [hf]
  dsimp only
  rw [hb]
  cases later <;> rfl

/-- The alarm in the slot, where the source's place is there. -/
theorem alarmInSlot_some {s : State} {a : AlarmSource} (h : s.slp.alarmInSlot a = true) :
    ∃ f p later, s.slp.reportSlot = some f ∧ f.body = .alarm p later ∧ p.source = a := by
  unfold LinePort.alarmInSlot at h
  split at h
  · cases h
  next f hf =>
    split at h
    next p later hb => exact ⟨f, p, later, hf, hb, of_decide_eq_true h⟩
    · cases h

theorem placeReport_repeats (s : State) (a : AlarmSource) (c : AlarmContent) (r : Bool) :
    (s.placeReport a c r).rq.repeats = s.rq.repeats := by
  unfold State.placeReport
  split
  · rfl
  · split <;> rfl

/-- A report placed stands, marked as a repeat or not: in its place, or behind the slot (R183). -/
theorem placeReport_stands (s : State) (a : AlarmSource) (c : AlarmContent) (r : Bool) :
    let t := s.placeReport a c r
    (s.slp.alarmInSlot a = false → ∃ n, (a, c, r, n) ∈ t.places ∧ ((∀ p ∈ s.places, p.1 ≠ a) → n = 1)) ∧
    (s.slp.alarmInSlot a = true → ∃ f p l, t.slp.reportSlot = some f ∧ f.body = .alarm p (some l) ∧ p.source = a ∧
      l.content = c ∧ l.repeated = r) := by
  dsimp only
  have hplace {t : State} {p : AlarmPlace} (hp : p ∈ t.rq.alarms) : p.content4 ∈ t.places :=
    List.mem_map_of_mem (List.mem_append_right _ hp)
  refine ⟨fun hslot => ?_, fun hslot => ?_⟩
  · by_cases hpending : ∃ p ∈ s.rq.alarms, p.source = a
    · rw [placeReport_merged c r hslot hpending]
      obtain ⟨p, hp, hsource⟩ := hpending
      refine ⟨min 255 (p.count + 1), ?_, fun hidle => absurd hsource (hidle p.content4 (hplace hp))⟩
      rw [← hsource]
      refine hplace (p := p.merge c r) (List.mem_map.2 ⟨p, hp, if_pos rfl⟩)
    · rw [placeReport_new c r hslot fun p hp hsource => hpending ⟨p, hp, hsource⟩]
      exact ⟨1, hplace (p := AlarmPlace.new a c r) (List.mem_append_right _ (List.mem_singleton.2 rfl)), fun _ => rfl⟩
  · obtain ⟨f, p, later, hf, hb, hp⟩ := alarmInSlot_some hslot
    obtain ⟨hcontent, hmark⟩ := laterReport_content a c r later
    rw [placeReport_later c r hf hb hp]
    exact ⟨_, p, _, rfl, rfl, hp, hcontent, hmark⟩

/-! ### An alarm by the mode of its kind (R182) -/

/-- An alarm that is not OFF is reported once, and starts the repeat timer of a lasting kind in LEVEL. -/
theorem raiseAlarm_on {s : State} {a : AlarmSource} (c : AlarmContent) (hm : s.img.alarmModes.get a.kind ≠ .off) :
    s.raiseAlarm a c =
      if s.img.alarmModes.get a.kind = .level ∧ lastingKind a.kind = true then
        (s.placeReport a c false).startRepeat a c
      else s.placeReport a c false := by
  unfold State.raiseAlarm
  split
  next hoff => exact absurd hoff hm
  next hedge => rw [hedge, if_neg fun h => nomatch h.1]
  next hlevel => simp only [hlevel, true_and]

/-- But for the repeat timers it is the report placed. -/
theorem raiseAlarm_places_on {s : State} {a : AlarmSource} (c : AlarmContent)
    (hm : s.img.alarmModes.get a.kind ≠ .off) : ∃ repeats, s.raiseAlarm a c =
      { s.placeReport a c false with rq := { (s.placeReport a c false).rq with repeats := repeats } } := by
  rw [raiseAlarm_on c hm]
  split
  · exact ⟨_, rfl⟩
  · exact ⟨_, rfl⟩

theorem raiseAlarm_starts {s : State} {a : AlarmSource} (c : AlarmContent)
    (hm : s.img.alarmModes.get a.kind = .level) (hl : lastingKind a.kind = true) :
    (s.raiseAlarm a c).rq.repeats =
      (s.rq.repeats.filter fun r => r.source ≠ a) ++ [{ source := a, remaining := 4000, content := c }] := by
  rw [raiseAlarm_on c (by rw [hm]; decide), if_pos ⟨hm, hl⟩, ← placeReport_repeats s a c false]
  rfl

theorem raiseAlarm_startsNone {s : State} {a : AlarmSource} (c : AlarmContent)
    (h : s.img.alarmModes.get a.kind ≠ .level ∨ lastingKind a.kind = false) :
    (s.raiseAlarm a c).rq.repeats = s.rq.repeats := by
  by_cases hm : s.img.alarmModes.get a.kind = .off
  · rw [raiseAlarm_off s a c hm]
  · have hno : ¬(s.img.alarmModes.get a.kind = .level ∧ lastingKind a.kind = true) := fun hx =>
      h.elim (fun hne => hne hx.1) fun hf => absurd (hf.symm.trans hx.2) (by decide)
    rw [raiseAlarm_on c hm, if_neg hno, placeReport_repeats]

/-- A later report behind the alarm in the slot is no part of the frame on the line (R183). -/
theorem lineOut_later {s t : State} {f : ReportFrame} {p l : AlarmPlace} {later : Option AlarmPlace}
    (hf : s.slp.reportSlot = some f) (hb : f.body = .alarm p later)
    (ht : t.slp = { s.slp with reportSlot := some { f with body := .alarm p (some l) } })
    (hr : t.rq.results = s.rq.results) : t.lineOut = s.lineOut := by
  unfold State.lineOut
  have hsending : t.slp.transmitting = s.slp.transmitting := by rw [ht]
  rw [hsending]
  refine congrArg (Option.bind s.slp.transmitting) (funext fun slot => ?_)
  unfold State.frameAt State.kindCode
  rw [ht, hr]
  cases slot with
  | notice => rfl
  | result => rfl
  | report => simp only [hf, hb, Option.map_some, ReportBody.sent, ReportBody.kindIndex]
  | usage => rfl

/-- Where its place is not in the slot, an alarm touches the pending places alone of what waits (R183). -/
theorem raiseAlarm_unslotted {s : State} {a : AlarmSource} (c : AlarmContent)
    (hm : s.img.alarmModes.get a.kind ≠ .off) (hslot : s.slp.alarmInSlot a = false) :
    (s.raiseAlarm a c).slp = s.slp ∧
      ((∀ p ∈ s.rq.alarms, p.source ≠ a) → (s.raiseAlarm a c).rq.alarms = s.rq.alarms ++ [AlarmPlace.new a c false]) ∧
      ((∃ p ∈ s.rq.alarms, p.source = a) →
        (s.raiseAlarm a c).rq.alarms = s.rq.alarms.map fun p => if p.source = a then p.merge c false else p) := by
  obtain ⟨repeats, heq⟩ := raiseAlarm_places_on c hm
  rw [heq]
  refine ⟨?_, fun hidle => ?_, fun hpending => ?_⟩
  · by_cases hpending : ∃ p ∈ s.rq.alarms, p.source = a
    · rw [placeReport_merged c false hslot hpending]
    · rw [placeReport_new c false hslot fun p hp hsource => hpending ⟨p, hp, hsource⟩]
  · rw [placeReport_new c false hslot hidle]
  · rw [placeReport_merged c false hslot hpending]

/-- Where its place is in the slot, an alarm touches the later report alone of what waits, and no frame on the line (R183). -/
theorem raiseAlarm_slotted {s : State} {a : AlarmSource} (c : AlarmContent) {f : ReportFrame} {p : AlarmPlace}
    {later : Option AlarmPlace} (hm : s.img.alarmModes.get a.kind ≠ .off) (hf : s.slp.reportSlot = some f)
    (hb : f.body = .alarm p later) (hp : p.source = a) :
    (s.raiseAlarm a c).rq.alarms = s.rq.alarms ∧
      (s.raiseAlarm a c).slp =
        { s.slp with reportSlot := some { f with body := .alarm p (some (laterReport a c false later)) } } ∧
      (s.raiseAlarm a c).lineOut = s.lineOut := by
  obtain ⟨repeats, heq⟩ := raiseAlarm_places_on c hm
  rw [heq, placeReport_later c false hf hb hp]
  exact ⟨rfl, rfl, lineOut_later hf hb rfl rfl⟩

/-! ### The repeat timer (R182) -/

theorem exec_repeatTimer {s : State} {a : AlarmSource} {r : RepeatTimer} (hr : s.resetHeld = false)
    (ha : s.repeatOf a = some r) (hd : r.remaining ≤ 1) :
    ∃ t, exec (.repeatTimerExpiry a) s = .next t ∧ Offered (s.repeated r) t := by
  refine ⟨_, (if_neg (by rw [hr]; decide)).trans ?_, settle_offered _⟩
  rw [ha]
  exact congrArg Host.Outcome.next (if_pos hd)

theorem repeatOf_source {s : State} {a : AlarmSource} {r : RepeatTimer} (ha : s.repeatOf a = some r) : r.source = a := by
  have hfound := List.find?_some ha
  exact of_decide_eq_true hfound

/-- A repeat report and the timer's new start touch reports alone. -/
theorem repeats_reportsOnly (s : State) (a : AlarmSource) (c d : AlarmContent) :
    ReportsOnly s ((s.placeReport a c true).startRepeat a d) :=
  (placeReport_reportsOnly ..).trans (startRepeat_reportsOnly ..)

/-- REPEAT_TIMER_EXPIRY by the condition of its source: the timer stops, or a repeat report stands and it runs again (R182). -/
theorem repeatTimer_expires {s : State} {a : AlarmSource} {r : RepeatTimer} (hr : s.resetHeld = false)
    (ha : s.repeatOf a = some r) (hd : r.remaining ≤ 1) : ∃ t, exec (.repeatTimerExpiry a) s = .next t ∧
      (s.conditionHolds a = false → Offered (s.endCondition a) t) ∧
      (s.conditionHolds a = true →
        Offered ((s.placeReport a (s.conditionContent r.content) true).startRepeat a r.content) t) := by
  obtain ⟨t, hexec, hoff⟩ := exec_repeatTimer hr ha hd
  rw [State.repeated, repeatOf_source ha] at hoff
  refine ⟨t, hexec, fun hc => ?_, fun hc => ?_⟩
  · rwa [if_neg (by rw [hc]; decide)] at hoff
  · rwa [if_pos hc] at hoff

/-! ### LINE_DETACHED (R178) -/

/-- The carriage has ended the transmission and reported the detachment (R178). -/
def DetachReported (s t : State) (n : Nat) : Prop :=
  Raised s t (.lineDetached n) ∧ t.slp.detachSpan = none ∧ t.slp.transmitting = none ∧ t.slp.voidCount = 0

theorem ownCarried_reports {s : State} {n : Nat} (h : s.slp.detachSpan = some n) : DetachReported s s.ownCarried n := by
  unfold State.ownCarried
  dsimp only
  rw [h]
  dsimp only
  refine ⟨(pushEvent_raised _ _).before ⟨rfl, rfl⟩, ?_, ?_, ?_⟩ <;> rw [pushEvent_slp]

theorem DetachReported.before {s t u : State} {n : Nat} (x : DetachReported t u n) (h : NoEvent s t) : DetachReported s u n :=
  ⟨x.1.before h, x.2⟩

theorem DetachReported.offered {s t u : State} {n : Nat} (x : DetachReported s t n) (o : Offered t u) : DetachReported s u n := by
  obtain ⟨hraised, hspan, hidle, hcount⟩ := x
  obtain ⟨-, -, -, -, -, hidle'⟩ := o.lineSame
  exact ⟨hraised.after o.noEvent, o.detachSpan.trans hspan, hidle'.trans hidle, o.voidCount.trans hcount⟩

/-- What a carriage does before it frees the line raises nothing and reads no span: the report follows (R178). -/
theorem carried_reports {s u : State} {n : Nat} (hspan : u.slp.detachSpan = some n) (hq : NoEvent s u) :
    DetachReported s u.ownCarried.settle n :=
  ((ownCarried_reports hspan).before hq).offered (settle_offered _)

section Carriages
variable {s : State} {n : Nat} (hr : s.resetHeld = false) (hspan : s.slp.detachSpan = some n)
include hr hspan

theorem heldCarried_reports {serial : Serial} {c : Nat} (ht : s.transmits (.held serial c)) :
    ∃ t, exec (.held .own serial c) s = .next t ∧ DetachReported s t n := by
  obtain ⟨t, hexec, hoff⟩ := held_own s serial c hr ht
  have hreported : DetachReported s s.noticeCarried n :=
    (ownCarried_reports (s := { s with slp := { s.slp with noticeSlot := none } }) hspan).before ⟨rfl, rfl⟩
  exact ⟨t, hexec, hreported.offered hoff⟩

theorem resultCarried_reports {straps : Station} {r : Result} {rest : List Result}
    (ht : s.slp.transmitting = some .result) (hq : s.rq.results = r :: rest) (hno : r.isRestart ≠ true) :
    ∃ t, exec (.resultCarried straps) s = .next t ∧ DetachReported s t n := by
  refine ⟨_, (if_neg (by rw [hr]; decide)).trans ?_, carried_reports (u := s.resultGone rest) hspan ⟨rfl, rfl⟩⟩
  rw [ht, hq]
  exact congrArg (fun x : State => Host.Outcome.next x.settle) (if_neg hno)

theorem alarmCarried_reports {f : ReportFrame} {p : AlarmPlace} {l : Option AlarmPlace}
    (ht : s.slp.transmitting = some .report) (hf : s.slp.reportSlot = some f) (hb : f.body = .alarm p l) :
    ∃ t, exec .reportCarried s = .next t ∧ DetachReported s t n := by
  have hquiet : NoEvent s (s.reportGone f) := by
    cases l with
    | none => rw [reportGone_alarm s f p hb]; exact ⟨rfl, rfl⟩
    | some l => rw [reportGone_later s f p l hb]; exact ⟨rfl, rfl⟩
  refine ⟨_, (if_neg (by rw [hr]; decide)).trans ?_,
    carried_reports (u := s.reportGone f) ((reportGone_span s f).trans hspan) hquiet⟩
  rw [ht, hf]

theorem usageCarried_reports {f : UsageFrame} (ht : s.slp.transmitting = some .usage) (hf : s.slp.usageSlot = some f) :
    ∃ t, exec (if f.part = .first then .usageFirstPartCarried else .usageRecordCarried) s = .next t ∧
      DetachReported s t n := by
  cases hp : f.part with
  | first =>
    refine ⟨_, (if_neg (by rw [hr]; decide)).trans ?_, carried_reports (u := s.secondPart f) hspan ⟨rfl, rfl⟩⟩
    rw [ht, hf]
    dsimp only
    rw [hp]
    rfl
  | second =>
    obtain ⟨⟨-, hquiet⟩, -, -, hspan'⟩ := recordCarried_homeStep s f
    refine ⟨_, (if_neg (by rw [hr]; decide)).trans ?_,
      carried_reports (u := s.recordCarried f) (hspan'.trans hspan) hquiet⟩
    rw [ht, hf]
    dsimp only
    rw [hp]

end Carriages

/-! ### The frames sent (R173, R175) -/

theorem lineOut_idle {s : State} (h : s.slp.transmitting = none) : s.lineOut = none := by
  unfold State.lineOut
  rw [h]
  rfl

theorem lineOut_slot {s : State} {slot : Slot} (h : s.slp.transmitting = some slot) : s.lineOut = s.frameAt slot := by
  unfold State.lineOut
  rw [h]
  rfl

theorem frameAt_notice {s : State} {x : SlotNotice} (h : s.slp.noticeSlot = some x) : s.frameAt .notice = some
    { cls := 0, sender := s.slp.station, kind := s.kindCode .notice, dest := 255, tag := 0, data := .notice x.notice } := by
  unfold State.frameAt
  dsimp only
  rw [h]
  rfl

/-- A station number as a destination: the number itself (R173). -/
theorem frameAt_result {s : State} {r : Result} {rest : List Result} (h : s.rq.results = r :: rest) :
    s.frameAt .result = some
      { cls := 2, sender := s.slp.station, kind := s.kindCode .result, dest := BitVec.ofNat 8 r.requester.toNat,
        tag := r.tag, data := .result r.code r.data } := by
  unfold State.frameAt
  dsimp only
  rw [h, BitVec.ofNat_toNat]
  rfl

theorem frameAt_report {s : State} {f : ReportFrame} (h : s.slp.reportSlot = some f) : s.frameAt .report = some
    { cls := 3, sender := s.slp.station, kind := s.kindCode .report, dest := 255, tag := f.number, data := f.body.sent } := by
  unfold State.frameAt
  dsimp only
  rw [h]
  rfl

theorem frameAt_usage {s : State} {f : UsageFrame} (h : s.slp.usageSlot = some f) : s.frameAt .usage = some
    { cls := 4, sender := s.slp.station, kind := s.kindCode .usage, dest := 255, tag := f.number, data := .usage f.fields } := by
  unfold State.frameAt
  dsimp only
  rw [h]
  rfl

/-- The two frames of a record have the kinds 1 and 2 (R175). -/
theorem kindCode_usage {s : State} {f : UsageFrame} (h : s.slp.usageSlot = some f) :
    (f.part = .first → s.kindCode .usage = 1) ∧ (f.part = .second → s.kindCode .usage = 2) := by
  unfold State.kindCode
  dsimp only
  rw [h]
  dsimp only
  exact ⟨fun hp => by rw [hp], fun hp => by rw [hp]⟩

/-- Settles O17: an alarm by its mode and its place, the repeat timer by its condition, the detachment by the frame that
ends it, the refused claims, and the frame of each slot. -/
theorem alarmRaised : Obligations.AlarmRaised := by
  unfold Obligations.AlarmRaised
  refine ⟨fun s a c => ?_, fun s a r hr ha hd => ?_, fun s n hr hspan => ?_, ?_, fun s => ⟨lineOut_idle, fun slot ht => ?_⟩⟩
  · refine ⟨raiseAlarm_off s a c, raiseAlarm_unslotted c, fun hm f p later hf hb hp => ?_, raiseAlarm_starts c,
      raiseAlarm_startsNone c, ?_⟩
    · obtain ⟨halarms, hslp, hline⟩ := raiseAlarm_slotted c hm hf hb hp
      exact ⟨halarms, by rw [hslp]; cases later <;> rfl, hline⟩
    · obtain ⟨_, _, _, heq⟩ := raiseAlarm_reportsOnly s a c
      dsimp only
      rw [heq]
      exact ⟨rfl, rfl⟩
  · obtain ⟨t, hexec, hstops, hruns⟩ := repeatTimer_expires hr ha hd
    refine ⟨t, hexec, hstops, fun hc => ?_⟩
    have hoff := hruns hc
    have hreports := repeats_reportsOnly s a (s.conditionContent r.content) r.content
    obtain ⟨hplace, hlater⟩ := placeReport_stands s a (s.conditionContent r.content) true
    obtain ⟨-, hquiet⟩ := (hreports.homeStep 0).trans (hoff.homeStep 0)
    refine ⟨hoff.repeats.trans ?_, fun hslot => ?_, fun hslot => ?_, hoff.roster.trans hreports.roster,
      hoff.um.trans hreports.um, hoff.hu.trans hreports.hu, hoff.ua.trans hreports.ua, hoff.il.trans hreports.il,
      hoff.lw.trans hreports.lw, hquiet⟩
    · rw [← placeReport_repeats s a (s.conditionContent r.content) true]
      rfl
    · obtain ⟨n, hn, hone⟩ := hplace hslot
      exact ⟨n, hoff.places.mem_iff.2 hn, hone⟩
    · obtain ⟨f, p, l, hf, hbody⟩ := hlater hslot
      exact ⟨f, p, l, hoff.reportKept f hf, hbody⟩
  · refine ⟨fun serial c ht => heldCarried_reports hr hspan ht, fun straps r rest ht hq hother => ?_,
      fun f p l ht hf hb => alarmCarried_reports hr hspan ht hf hb, fun f ht hf => usageCarried_reports hr hspan ht hf⟩
    refine resultCarried_reports hr hspan ht hq fun hrestart => ?_
    obtain ⟨hk, hc⟩ := (isRestart_iff r).1 hrestart
    exact hother.elim (fun hn => hn hk) fun hn => hn hc
  · intro s r w p rest hr ho hk hw hc hp hspan hlo hhi
    exact oneReply_unclaimed s r w p rest hr ho hk hw hc hp hspan hlo hhi
  · rw [lineOut_slot ht]
    refine ⟨fun x hslot hx => ?_, fun r rest hslot hq => ?_, fun f hslot hf => ?_, fun f hslot hf => ?_⟩ <;> subst hslot
    · exact ⟨_, frameAt_notice hx⟩
    · exact ⟨_, frameAt_result hq⟩
    · refine ⟨_, _, frameAt_report hf, fun p later hb => ?_, fun e dropped hb => ?_⟩ <;> rw [hb] <;> rfl
    · obtain ⟨hfirst, hsecond⟩ := kindCode_usage hf
      refine ⟨fun hpart => ?_, fun hpart => ?_⟩
      · rw [frameAt_usage hf, hfirst hpart, UsageFrame.fields, hpart]
      · rw [frameAt_usage hf, hsecond hpart, UsageFrame.fields, hpart]

end Sys2Proof.Machine
end

section
/-! PROOFS. Stage 1 against the capacity of a map, and SET_PROFILE: obligations O11 and O52. -/

namespace Sys2Proof.Machine

/-! ### Stage 1 fits (R74) -/

/-- A stage-1 grant costs no more than the term of an assured share that its own share does not pass (R72, R73, R82). -/
theorem stage1_cost_le (kPoll : Nat) (i : AllocIn) (assured : Nat) (ha : i.assuredCap ≤ assured) :
    grantCost 0 (stage1 kPoll i) ≤ max assured 4 + 16 := by
  have hle := stage1_le kPoll i
  unfold grantCost Config.dataCost
  split_ifs <;> omega

/-- Settles O11: the floor fits the capacity, each grant fits the term of its entry, and so the sum fits. -/
theorem stageOneFits : Obligations.StageOneFits := by
  unfold Obligations.StageOneFits
  intro s n hfits hbooked
  refine ⟨admissionFloor_le_capacity s n hfits, fun h => ⟨assuredCap_le s h, bookedTerm_eligible _⟩, fun i hi => ?_,
    fun h => stage1_cost_le _ _ _ (assuredCap_le s h), stage1_fits s n hfits hbooked⟩
  obtain ⟨-, -, -, hcap, -⟩ := mem_allocInputs s i hi
  exact ⟨stage1_le s.img.kPoll i, hcap⟩

/-! ### SET_PROFILE (R82, R83, R85) -/

/-- A number of two bytes is read back. -/
theorem beNat_word (x : Nat) (hx : x < 65536) : beNat (beBytes 2 x) = x := by
  rw [beNat_beBytes]
  exact Nat.mod_eq_of_lt hx

theorem readProfile_write (serial : Serial) (a p w : Nat) (ha : a < 65536) (hp : p < 65536) (hw : w < 256) :
    readProfile (writeProfile serial a p w) = some (serial, { assured := a, peak := p, weight := w }) := by
  have hassured := bytesAt_mid (beBytes 8 serial.toNat) (beBytes 2 a) (beBytes 2 p ++ beBytes 1 w) 8 2
    (beBytes_length 8 _) (beBytes_length 2 _)
  have hpeak := bytesAt_mid (beBytes 8 serial.toNat ++ beBytes 2 a) (beBytes 2 p) (beBytes 1 w) 10 2
    (by simp [beBytes_length]) (beBytes_length 2 _)
  have hweight := bytesAt_end (beBytes 8 serial.toNat ++ beBytes 2 a ++ beBytes 2 p) (beBytes 1 w) 12 1
    (by simp [beBytes_length]) (beBytes_length 1 _)
  simp only [List.append_assoc] at hassured hpeak hweight
  unfold readProfile writeProfile
  rw [if_pos (by simp [beBytes_length])]
  simp only [List.append_assoc]
  rw [serialAt_write, hassured, hpeak, hweight, beNat_word a ha, beNat_word p hp, beNat_byte w hw]

theorem admitsChange_iff (s : State) (old new : Nat) :
    s.admitsChange old new = true ↔ new ≤ old ∨ s.ua.booked + (new - old) ≤ s.ua.floor := by
  unfold State.admitsChange
  rw [Bool.or_eq_true, decide_eq_true_eq, decide_eq_true_eq]

section Answers
variable (s : State) (p : Profile) (h : Nat)

theorem setProfileAt_busy (hs : (s.entry h).state.settable = false) :
    s.setProfileAt p h = s.refusedWith .busy := if_neg (by rw [hs]; decide)

theorem setProfileAt_inconsistent (hs : (s.entry h).state.settable = true)
    (hc : (clampProfile p).peak < (clampProfile p).assured) : s.setProfileAt p h = s.refusedWith .inconsistent :=
  (if_pos hs).trans (if_pos hc)

theorem setProfileAt_overbook (hs : (s.entry h).state.settable = true)
    (hc : ¬(clampProfile p).peak < (clampProfile p).assured)
    (ha : ¬s.admitsChange (term (s.entry h).prof.assured) (term (clampProfile p).assured) = true) :
    s.setProfileAt p h = s.refusedWith .overbook := (if_pos hs).trans ((if_neg hc).trans (if_neg ha))

/-- The profile takes the clamped values, and the booked sum the new term in place of the old (R82, R85). -/
def State.profiled (s : State) (c : Profile) (h : Nat) : State :=
  { s.setEntry h { s.entry h with profile := some c } with
    ua := { s.ua with booked := s.ua.booked - term (s.entry h).prof.assured + term c.assured } }

theorem setProfileAt_taken (hs : (s.entry h).state.settable = true)
    (hc : ¬(clampProfile p).peak < (clampProfile p).assured)
    (ha : s.admitsChange (term (s.entry h).prof.assured) (term (clampProfile p).assured) = true) :
    s.setProfileAt p h = (s.profiled (clampProfile p) h, .ok, .profile (clampProfile p)) :=
  (if_pos hs).trans ((if_neg hc).trans (if_pos ha))

end Answers

/-- Settles O52: SET_PROFILE answers by the first of its answers that applies. -/
theorem profileSet : Obligations.ProfileSet := by
  unfold Obligations.ProfileSet
  intro s hd serial a p w htakes ha hp hw
  refine ⟨_, request_takes _ hd _ _ s htakes _ (readProfile_write serial a p w ha hp hw), fun hf => ?_, fun h hf =>
    ⟨fun hna hnl => ?_, fun hs => ?_⟩⟩
  · exact offered_of_answer rfl (onHome_none s serial _ hf) rfl
  · have hno : (s.entry h).state.settable = false :=
      Bool.eq_false_iff.2 fun hh => ((settable_iff _).1 hh).elim hna hnl
    exact offered_of_answer rfl ((onHome_some s serial _ h hf).trans (setProfileAt_busy _ _ h hno)) rfl
  · have hyes : (s.lineHeard.entry h).state.settable = true := (settable_iff _).2 hs
    refine ⟨fun hc => ?_, fun hc hlt hover => ?_, fun hc hfits => ?_⟩
    · exact offered_of_answer rfl ((onHome_some s serial _ h hf).trans (setProfileAt_inconsistent _ _ h hyes hc)) rfl
    · refine offered_of_answer rfl ((onHome_some s serial _ h hf).trans
        (setProfileAt_overbook _ _ h hyes (Nat.not_lt.2 hc) ?_)) rfl
      rw [admitsChange_iff]
      exact fun hadmit => hadmit.elim (Nat.not_le.2 hlt) (Nat.not_le.2 hover)
    · exact offered_of_answer rfl ((onHome_some s serial _ h hf).trans
        (setProfileAt_taken _ _ h hyes (Nat.not_lt.2 hc) ((admitsChange_iff _ _ _).2 hfits))) rfl

end Sys2Proof.Machine
end

section
/-! PROOFS. The booked sum and the loaded image, and the moves that keep both: a home whose term stands, a home
whose term is booked anew, and every change that reads neither (R81 to R83). -/

namespace Sys2Proof.Machine

/-! ### The term of an entry (R82) -/

/-- The term follows from the profile and from whether the state counts. -/
theorem bookedTerm_congr {e e' : Entry} (hs : e'.state.booked = e.state.booked) (hp : e'.profile = e.profile) :
    e'.bookedTerm = e.bookedTerm := by
  unfold Entry.bookedTerm Entry.prof
  rw [hs, hp]

theorem bookedTerm_of_booked {e : Entry} (hb : e.state.booked = true) : e.bookedTerm = term e.prof.assured := if_pos hb

theorem bookedTerm_of_free {e : Entry} (hs : e.state = .free) : e.bookedTerm = 0 := by
  unfold Entry.bookedTerm
  rw [hs]
  rfl

theorem post_bookedTerm (e : Entry) (k : MsgKind) : (e.post k).bookedTerm = e.bookedTerm := by
  obtain ⟨m, b, hp⟩ := post_else e k
  rw [hp]
  rfl

theorem toActive_bookedTerm {e : Entry} (hb : e.state.booked = true) : e.toActive.bookedTerm = e.bookedTerm :=
  bookedTerm_congr hb.symm rfl

theorem toClosing_bookedTerm (e : Entry) (release : Bool) : (e.toClosing release).bookedTerm = 0 := by
  unfold Entry.bookedTerm
  rw [toClosing_state]
  rfl

theorem takeAck_bookedTerm (e : Entry) (img : Image) (k : Option MsgKind) : (e.takeAck img k).bookedTerm = e.bookedTerm := by
  unfold Entry.takeAck
  split <;> rfl

theorem correct_bookedTerm (e : Entry) (img : Image) (d : Int) : (e.correct img d).bookedTerm = e.bookedTerm := by
  unfold Entry.correct
  dsimp only
  split
  · rfl
  · exact post_bookedTerm _ _

/-- A delay stored, and an ADJUST posted where it differs, leave the term (R61, R132). -/
theorem stored_bookedTerm (e : Entry) (img : Image) (d : Int) (c : Prop) [Decidable c] (k : MsgKind) :
    (if c then e.storeDelay img d else (e.storeDelay img d).post k).bookedTerm = e.bookedTerm := by
  split
  · rfl
  · exact post_bookedTerm _ _

/-! ### The sum of the terms -/

/-- The sum of the terms of all entries (R82). -/
def State.termSum (s : State) : Nat := (handles.map fun h => (s.entry h).bookedTerm).sum

theorem bookedInv_iff (s : State) : BookedInv s ↔ s.ua.booked = s.termSum ∧ s.ua.booked ≤ s.ua.floor := Iff.rfl

theorem termSum_congr {s t : State} (h : ∀ k, (t.entry k).bookedTerm = (s.entry k).bookedTerm) : t.termSum = s.termSum :=
  congrArg List.sum (List.map_congr_left fun k _ => h k)

/-- The sum splits into the term at one handle and the terms at the others. -/
theorem termSum_split (s : State) (h : Nat) (hh : h ∈ handles) :
    s.termSum = (s.entry h).bookedTerm + ((handles.erase h).map fun k => (s.entry k).bookedTerm).sum :=
  (List.sum_map_erase (fun k => (s.entry k).bookedTerm) hh).symm

/-- Where one entry is written, the sum moves by the change of its term. -/
theorem termSum_rewritten {s t : State} (h : Nat) (others : ∀ k, k ≠ h → t.entry k = s.entry k) :
    t.termSum + (s.entry h).bookedTerm = s.termSum + (t.entry h).bookedTerm := by
  by_cases hh : h ∈ handles
  · have hrest : (handles.erase h).map (fun k => (t.entry k).bookedTerm) =
        (handles.erase h).map fun k => (s.entry k).bookedTerm := by
      refine List.map_congr_left fun k hk => ?_
      rw [others k (List.Nodup.mem_erase_iff handles_nodup |>.1 hk).1]
    rw [termSum_split s h hh, termSum_split t h hh, hrest]
    omega
  · have hout : ¬(1 ≤ h ∧ h ≤ 64) := fun hr => hh ((mem_handles h).2 hr)
    have hsame : t.entry h = s.entry h := (entry_outside t h hout).trans (entry_outside s h hout).symm
    have hsum : t.termSum = s.termSum := termSum_congr fun k => by
      by_cases hk : k = h
      · rw [hk, hsame]
      · rw [others k hk]
    rw [hsum, hsame]

/-- The sum holds the term of each entry. -/
theorem bookedTerm_le_termSum (s : State) (h : Nat) : (s.entry h).bookedTerm ≤ s.termSum := by
  by_cases hh : h ∈ handles
  · rw [termSum_split s h hh]
    exact Nat.le_add_right _ _
  · rw [entry_outside s h fun hr => hh ((mem_handles h).2 hr)]
    exact Nat.zero_le _

/-! ### What a step keeps of the books -/

/-- From s to t the law of the booked sum, where P holds, and the law of the loaded image are kept. -/
structure Books (P : Prop) (s t : State) : Prop where
  booked : P → BookedInv s → BookedInv t
  image : ImageInv s → ImageInv t

section Books
variable {P : Prop} {s t u : State}

theorem Books.refl (s : State) : Books P s s := ⟨fun _ h => h, fun h => h⟩

theorem Books.trans (a : Books P s t) (b : Books P t u) : Books P s u :=
  ⟨fun p h => b.booked p (a.booked p h), fun h => b.image (a.image h)⟩

theorem Books.ite {c : Prop} [Decidable c] (a : c → Books P s t) (b : ¬c → Books P s u) :
    Books P s (if c then t else u) := by
  split
  next h => exact a h
  next h => exact b h

theorem Books.foldl {α : Type} (f : State → α → State) (hf : ∀ s a, Books P s (f s a)) (s : State) (xs : List α) :
    Books P s (xs.foldl f s) := by
  induction xs generalizing s with
  | nil => exact .refl s
  | cons x xs ih => exact (hf s x).trans (ih (f s x))

theorem imageInv_of_same (hf : t.ua.floor = s.ua.floor) (hi : t.il.image = s.il.image) (h : ImageInv s) : ImageInv t := by
  intro img himg
  rw [hf]
  exact h img (hi ▸ himg)

/-- Every term, the booked sum, the floor and the image stand. -/
theorem books_of_terms (ht : ∀ k, (t.entry k).bookedTerm = (s.entry k).bookedTerm) (hb : t.ua.booked = s.ua.booked)
    (hf : t.ua.floor = s.ua.floor) (hi : t.il.image = s.il.image) : Books P s t := by
  refine ⟨fun _ h => ?_, imageInv_of_same hf hi⟩
  rw [bookedInv_iff] at h ⊢
  rw [hb, hf, termSum_congr ht]
  exact h

/-- Neither the roster nor the allocator nor the image is written. -/
theorem books_of_roster (hr : t.roster = s.roster) (hu : t.ua = s.ua) (hi : t.il.image = s.il.image) : Books P s t :=
  books_of_terms (fun k => congrArg Entry.bookedTerm (entry_of_roster s t hr k)) (congrArg Allocator.booked hu)
    (congrArg Allocator.floor hu) hi

/-- One entry is written and its term booked in place of the old one, within the floor where the sum grows. -/
theorem books_of_rebooked (h : Nat) (others : ∀ k, k ≠ h → t.entry k = s.entry k)
    (hb : t.ua.booked = s.ua.booked - (s.entry h).bookedTerm + (t.entry h).bookedTerm)
    (hfits : (t.entry h).bookedTerm ≤ (s.entry h).bookedTerm ∨
      s.ua.booked + ((t.entry h).bookedTerm - (s.entry h).bookedTerm) ≤ s.ua.floor)
    (hf : t.ua.floor = s.ua.floor) (hi : t.il.image = s.il.image) : Books P s t := by
  refine ⟨fun _ hinv => ?_, imageInv_of_same hf hi⟩
  rw [bookedInv_iff] at hinv ⊢
  obtain ⟨hsum, hfloor⟩ := hinv
  have hle := bookedTerm_le_termSum s h
  have hmove := termSum_rewritten h others
  rw [hf]
  omega

/-- Every entry of the roster is rewritten and keeps its term. -/
theorem books_of_map (f : Nat → Entry → Entry) (hr : t.roster = tableMap f s.roster)
    (hf : ∀ h e, (f h e).bookedTerm = e.bookedTerm) (hb : t.ua.booked = s.ua.booked) (hfl : t.ua.floor = s.ua.floor)
    (hi : t.il.image = s.il.image) : Books P s t := by
  refine books_of_terms (fun k => ?_) hb hfl hi
  have hentry : t.entry k = if 1 ≤ k ∧ k ≤ 64 then f k (s.entry k) else Entry.free := by
    unfold State.entry
    rw [hr, tableGet_tableMap]
  rw [hentry]
  split
  next => exact hf k _
  next hk => rw [entry_outside s k hk]

theorem ReportsOnly.books (x : ReportsOnly s t) : Books P s t :=
  books_of_roster x.roster x.ua (congrArg ImageLoader.image x.il)

theorem settle_books (s : State) : Books P s s.settle := books_of_roster (by simp) (by simp) (by simp)

end Books

/-! ### The shared operations -/

section Shared
variable {P : Prop}

theorem queueNotice_books (s : State) (n : Notice) : Books P s (s.queueNotice n) := books_of_roster rfl rfl rfl

theorem withdraw_books (s : State) (test : Notice → Bool) : Books P s (s.withdraw test) := books_of_roster rfl rfl rfl

theorem pushEvent_books (s : State) (e : Event) : Books P s (s.pushEvent e) :=
  books_of_roster (by simp) (by simp) (by simp)

theorem setAcct_books (s : State) (h : Nat) (a : Option Account) : Books P s (s.setAcct h a) := books_of_roster rfl rfl rfl

theorem changeAcct_books (s : State) (h : Nat) (a : Account) : Books P s (s.changeAcct h a) :=
  (setAcct_books s h _).trans (changeAcct_reportsOnly s h a).books

theorem setDrift_books (s : State) (h : Nat) (d : Drift) : Books P s (s.setDrift h d) := books_of_roster rfl rfl rfl

theorem setPhase_books (s : State) (h : Nat) (p : Phase) : Books P s (s.setPhase h p) := setDrift_books s h _

theorem raiseAlarm_books (s : State) (a : AlarmSource) (c : AlarmContent) : Books P s (s.raiseAlarm a c) :=
  (raiseAlarm_reportsOnly s a c).books

theorem endCondition_books (s : State) (a : AlarmSource) : Books P s (s.endCondition a) :=
  (endCondition_reportsOnly s a).books

theorem startCredit_books (s : State) (h : Nat) : Books P s (s.startCredit h) := (startCredit_reportsOnly s h).books

/-- An entry is written and its term stands. -/
theorem setEntry_books (s : State) (h : Nat) (e : Entry) (he : e.bookedTerm = (s.entry h).bookedTerm) :
    Books P s (s.setEntry h e) := by
  refine books_of_terms (fun k => ?_) rfl rfl rfl
  rw [entry_setEntry]
  split
  next hk => rw [he, hk.1]
  next => rfl

/-- An entry that counts still counts where it is rewritten in a state that counts. -/
theorem setEntry_booked (s : State) (h : Nat) (e : Entry) (hs : (s.entry h).state.booked = true)
    (he : e.state.booked = true) : ((s.setEntry h e).entry h).state.booked = true := by
  rw [entry_setEntry]
  split
  · exact he
  · exact hs

/-- A FREE entry has no term, so its former one leaves the sum (R45, R82). -/
theorem freeEntry_books (s : State) (h : Nat) : Books P s (s.freeEntry h) := by
  have hfree : ((s.freeEntry h).entry h).bookedTerm = 0 := by
    rw [freeEntry_entry, if_pos rfl]
    rfl
  refine books_of_rebooked h (fun k hk => by rw [freeEntry_entry, if_neg hk]) ?_ (.inl ?_) rfl rfl
  · rw [hfree]
    rfl
  · rw [hfree]
    exact Nat.zero_le _

/-- A CLOSING entry has no term either (R43, R82). -/
theorem enterClosing_books (s : State) (h : Nat) (kind : RecordKind) (release : Bool) :
    Books P s (s.enterClosing h kind release) := by
  have hclosing : ((s.enterClosing h kind release).entry h).bookedTerm = 0 := by
    rw [enterClosing_entry]
    split
    next => exact toClosing_bookedTerm _ _
    next hout =>
      rw [entry_outside s h fun hr => hout ⟨rfl, hr⟩]
      rfl
  refine books_of_rebooked h (fun k hk => by rw [enterClosing_entry, if_neg fun x => hk x.1]) ?_ (.inl ?_) rfl rfl
  · rw [hclosing]
    rfl
  · rw [hclosing]
    exact Nat.zero_le _

/-- A FREE entry takes a home that is admitted, and its term is booked (R22, R82, R83). -/
theorem takeEntry_books (s : State) (h : Nat) (e : Entry) (hfree : s.freeHandle = some h) (hb : e.state.booked = true)
    (ha : s.admits e.prof.assured = true) : Books P s (s.takeEntry h e) := by
  have hentry (k : Nat) := takeEntry_entry s h k e (freeHandle_range s h hfree)
  have hold := bookedTerm_of_free (freeHandle_free s h hfree)
  have hnew : ((s.takeEntry h e).entry h).bookedTerm = term e.prof.assured := by
    rw [hentry, if_pos rfl, bookedTerm_of_booked hb]
  refine books_of_rebooked h (fun k hk => by rw [hentry, if_neg hk]) ?_ (.inr ?_) rfl rfl
  · rw [hold, hnew]
    rfl
  · rw [hold, hnew]
    exact of_decide_eq_true ha

theorem release_books (s : State) (h : Nat) (reason : ReleaseReason) (release : Bool) :
    Books P s (s.release h reason release) := (enterClosing_books s h _ release).trans (pushEvent_books _ _)

theorem drainClose_books (s : State) (h : Nat) : Books P s (s.drainClose h) :=
  .ite (fun _ => enterClosing_books s h .restart true) fun _ => .refl s

theorem enterLost_books (s : State) (h : Nat) (hb : (s.entry h).state.booked = true) : Books P s (s.enterLost h) :=
  (setEntry_books s h _ (toLost_bookedTerm _ _ hb)).trans
    ((setPhase_books _ h .off).trans ((endCondition_books _ _).trans (raiseAlarm_books _ _ _)))

theorem loseHome_books (s : State) (h : Nat) (hb : (s.entry h).state.booked = true) : Books P s (s.loseHome h) :=
  (enterLost_books s h hb).trans (drainClose_books _ h)

theorem setDriftHold_books (s : State) (h : Nat) : Books P s (s.setDriftHold h) := by
  have hset := setEntry_books (P := P) s h { s.entry h with
    holds := { (s.entry h).holds with drift := true }, rangeAttempts := 0, reRangeIdle := (s.entry h).idle } rfl
  exact hset.trans ((setPhase_books _ h .seeking).trans (raiseAlarm_books _ _ _))

theorem clearDriftHold_books (s : State) (h : Nat) : Books P s (s.clearDriftHold h) := by
  have hset := setEntry_books (P := P) s h { s.entry h with
    holds := { (s.entry h).holds with drift := false }, idle := (s.entry h).reRangeIdle, reRangeIdle := 0 } rfl
  exact hset.trans ((setPhase_books _ h .off).trans (endCondition_books _ _))

theorem toActive_books (s : State) (h : Nat) (hb : (s.entry h).state.booked = true) :
    Books P s (s.setEntry h (s.entry h).toActive) := setEntry_books s h _ (toActive_bookedTerm hb)

theorem choices_books (s : State) (n : Nat) : Books P s { s with choices := n } := books_of_roster rfl rfl rfl

/-- An entry returns from its move, by its counts to ACTIVE, under the DRIFT hold or to LOST (R26, R37, R93). -/
theorem returnActive_books (s : State) (h : Nat) (hb : (s.entry h).state.booked = true) : Books P s (s.returnActive h) := by
  have hact := toActive_books (P := P) s h hb
  have hbooked : ((s.setEntry h (s.entry h).toActive).entry h).state.booked = true := setEntry_booked s h _ hb rfl
  have hdrift := hact.trans (setDriftHold_books _ h)
  have hdrifting : (((s.setEntry h (s.entry h).toActive).setDriftHold h).entry h).state.booked = true := by
    rw [setDriftHold_entry _ _ (handle_of_state s h fun hf => by rw [hf] at hb; cases hb)]
    exact hbooked
  have hlost := hact.trans (loseHome_books _ h hbooked)
  unfold State.returnActive
  dsimp only
  split_ifs
  · exact hact.trans (drainClose_books _ h)
  · exact hdrift.trans (drainClose_books _ h)
  · exact hlost
  · exact hlost.trans (choices_books _ _)
  · exact (hdrift.trans (loseHome_books _ h hdrifting)).trans (choices_books _ _)

/-- After a reset nothing is booked and no image is loaded (R86, R187). -/
theorem powerOn_books (s : State) (straps : Station) : Books P s (s.powerOn straps) := by
  refine ⟨fun _ _ => ⟨?_, Nat.le_refl _⟩, fun _ img himg => ?_⟩
  · refine reset_booked.1.trans (congrArg List.sum (List.map_congr_left fun k _ => ?_))
    rw [reset_entry, powerOn_entry]
  · have hno : (none : Option Image) = some img := himg
    cases hno

end Shared

end Sys2Proof.Machine
end

section
/-! PROOFS. The books through the line, the upstream path, enrolment, the start of a cycle and the hunt. -/

namespace Sys2Proof.Machine

section Engines
variable {P : Prop}

/-! ### The line (R59, R169, R174, R178, R183) -/

theorem lineHeard_books (s : State) : Books P s s.lineHeard := books_of_roster rfl rfl rfl

theorem ownCarried_books (s : State) : Books P s s.ownCarried := books_of_roster (by simp) (by simp) (by simp)

theorem freePlaceOf_books (s : State) (h : Nat) : Books P s (s.freePlaceOf h) := books_of_roster rfl rfl rfl

theorem dropClaim_books (s : State) (serial : Serial) (h : Nat) : Books P s (s.dropClaim serial h) := by
  rw [dropClaim_eq]
  exact (freePlaceOf_books s h).trans ((freeEntry_books _ h).trans (withdraw_books _ _))

theorem dropUncarried_books (s : State) : Books P s s.dropUncarried := by
  refine .foldl _ (fun t c => ?_) s _
  split
  · exact .refl t
  · split
    · exact .refl t
    · exact .ite (fun _ => .refl t) fun _ => dropClaim_books t _ _

/-- The port's, the ports' and the Request Handler's own fields hold nothing of the books. -/
theorem line_books (s : State) (p : LinePort) (o : Ports) (q : RequestHandler) :
    Books P s { s with slp := p, ports := o, rq := q } := books_of_roster rfl rfl rfl

theorem noticeCarried_books (s : State) : Books P s s.noticeCarried :=
  (line_books s _ s.ports s.rq).trans (ownCarried_books _)

theorem detachIfDue_books (s : State) : Books P s s.detachIfDue :=
  .ite (fun _ => .refl s) fun _ => (line_books s _ s.ports s.rq).trans (dropUncarried_books _)

theorem removeWithdrawn_books (s : State) : Books P s s.removeWithdrawn := by
  have hslot := line_books (P := P) s { s.slp with noticeSlot := none } s.ports s.rq
  unfold State.removeWithdrawn
  split
  · exact .refl s
  · split
    · dsimp only
      split
      · split
        · exact hslot
        · exact .ite (fun _ => hslot.trans (freeEntry_books _ _)) fun _ => hslot
      · exact hslot
    · exact .refl s

theorem reportGone_books (s : State) (f : ReportFrame) : Books P s (s.reportGone f) := by
  unfold State.reportGone
  dsimp only
  split
  all_goals exact line_books s _ s.ports _

theorem recordCarried_books (s : State) (f : UsageFrame) : Books P s (s.recordCarried f) := by
  have hslot := line_books (P := P) s { s.slp with usageSlot := none } s.ports s.rq
  unfold State.recordCarried
  dsimp only
  split
  · exact hslot
  · split
    · exact hslot
    · exact .ite (fun _ => hslot.trans ((setAcct_books _ f.handle _).trans (freeEntry_books _ _))) fun _ =>
        hslot.trans (setAcct_books _ f.handle _)

/-! ### The stages of a clean burst (R17, R32, R60, R91, R94, R132) -/

theorem clearOutstanding_books (s : State) (r : WindowRef) : Books P s (s.clearOutstanding r) := books_of_roster rfl rfl rfl

theorem openAccount_books (s : State) (h : Nat) : Books P s (s.openAccount h) :=
  (setAcct_books s h _).trans (startCredit_books _ h)

theorem confirmed_books (s : State) (h : Nat) (d : Int) (hb : (s.entry h).state.booked = true) :
    Books P s (s.confirmed h d) :=
  (setEntry_books s h _ ((stored_bookedTerm _ _ _ _ _).trans (toActive_bookedTerm hb))).trans
    ((openAccount_books _ h).trans ((pushEvent_books _ _).trans (drainClose_books _ h)))

theorem confirmAttempt_books (s : State) (h : Nat) : Books P s (s.confirmAttempt h) :=
  .ite (fun _ => setEntry_books s h _ rfl) fun _ => freeEntry_books s h

theorem confirmBurst_books (s : State) (h : Nat) (d : Int) (hb : (s.entry h).state.booked = true) :
    Books P s (s.confirmBurst h d) := .ite (fun _ => confirmed_books s h d hb) fun _ => confirmAttempt_books s h

theorem tryTaking_books (s : State) (h : Nat) (hb : (s.entry h).state.booked = true) : Books P s (s.tryTaking h) := by
  unfold State.tryTaking
  dsimp only
  split
  · refine .ite (fun _ => (setEntry_books s h _ ?_).trans (queueNotice_books _ _)) fun _ => .refl s
    exact bookedTerm_congr hb.symm rfl
  · exact .refl s
  · exact .refl s

theorem arrivalBurst_books (s : State) (h : Nat) (d : Int) (hb : (s.entry h).state.booked = true) :
    Books P s (s.arrivalBurst h d) := by
  refine .ite (fun _ => .refl s) fun _ => .ite (fun _ => ?_) fun _ => setEntry_books s h _ (post_bookedTerm _ _)
  refine (setEntry_books s h _ ?_).trans (tryTaking_books _ h (setEntry_booked s h _ hb ?_))
  · exact stored_bookedTerm (s.entry h) _ _ _ _
  · dsimp only
    split
    · exact hb
    · rw [post_state]
      exact hb

theorem recontacted_books (s : State) (h : Nat) (hb : (s.entry h).state.booked = true) : Books P s (s.recontacted h) :=
  (toActive_books s h hb).trans ((endCondition_books _ _).trans (drainClose_books _ h))

theorem rangeBurst_books (s : State) (h : Nat) (d : Int) : Books P s (s.rangeBurst h d) := by
  unfold State.rangeBurst
  split
  next hs => exact confirmBurst_books s h d (by rw [hs]; rfl)
  next hs => exact arrivalBurst_books s h d (by rw [hs]; rfl)
  next hs => exact recontacted_books s h (by rw [hs]; rfl)
  all_goals exact .refl s

theorem countUpPacket_books (s : State) (h : Nat) (p : UpPacket) : Books P s (s.countUpPacket h p) := by
  unfold State.countUpPacket
  split
  · exact .refl s
  · exact changeAcct_books s h _

theorem takePackets_books (s : State) (h : Nat) (ps : List UpPacket) : Books P s (s.takePackets h ps) :=
  .ite (fun _ => (Books.foldl _ (fun t p => countUpPacket_books t h p) s _).trans (line_books _ _ _ _)) fun _ => .refl s

theorem handOver_books (s : State) (h : Nat) (hb : (s.entry h).state.booked = true) : Books P s (s.handOver h) := by
  have hterm : Entry.bookedTerm { s.entry h with state := .handed } = (s.entry h).bookedTerm := bookedTerm_congr hb.symm rfl
  have hturn := (setEntry_books (P := P) s h _ hterm).trans (endCredit_reportsOnly _ h).books
  unfold State.handOver
  dsimp only
  split
  · exact hturn.trans (queueNotice_books _ _)
  · exact hturn
  · exact hturn

/-! ### The timing judgement (R90 to R95) -/

theorem judgeOffset_books (s : State) (h : Nat) (d : Int) : Books P s (s.judgeOffset h d) := by
  have hset := setEntry_books (P := P) s h { s.entry h with misplaced := min 3 ((s.entry h).misplaced + 1) } rfl
  have htrip := Books.ite (c := (s.entry h).misplaced = 2) (fun _ => hset.trans (setDrift_books _ h
    { (s.setEntry h { s.entry h with misplaced := min 3 ((s.entry h).misplaced + 1) }).drift h with
      tripOffset := some d })) fun _ => hset
  exact .ite (fun _ => setEntry_books s h _ rfl) fun _ => .ite
    (fun _ => setEntry_books s h _ (correct_bookedTerm _ _ _)) fun _ => .ite
    (fun _ => htrip.trans (setDriftHold_books _ h)) fun _ => htrip

theorem measureDrift_books (s : State) (h : Nat) (d : Int) : Books P s (s.measureDrift h d) :=
  (setEntry_books s h _ (post_bookedTerm { s.entry h with misplaced := 0 } _)).trans (setPhase_books _ h _)

theorem judge_books (s : State) (h : Nat) (before : HomeState) (kind : WindowKind) (acked : Option MsgKind) (d : Int) :
    Books P s (s.judge h before kind acked d) := by
  unfold State.judge
  dsimp only
  split
  case h_1 =>
    refine .ite (fun _ => setEntry_books s h _ rfl) fun _ => ?_
    split
    · exact judgeOffset_books s h d
    · exact .ite (fun _ => measureDrift_books s h d) fun _ => .refl s
    · exact .ite (fun _ => (clearDriftHold_books s h).trans (judgeOffset_books _ h d)) fun _ => .refl s
  case h_2 => exact judgeOffset_books s h d
  case h_3 => exact judgeOffset_books s h d
  all_goals exact .refl s

/-! ### The whole path (R17) -/

theorem cleanBurst_books (s : State) (h : Nat) (map : CycleNo) (kind : WindowKind) (d : Int) (ack : Bool) (report : Nat)
    (ps : List UpPacket) : Books P s (s.cleanBurst h map kind d ack report ps) := by
  have hheard : Books P s ((s.noteOffset h d).setEntry h
      (((s.entry h).heard report).takeAck s.img ((s.entry h).acknowledges map ack))) :=
    (setDrift_books s h _).trans (setEntry_books _ h _ (takeAck_bookedTerm _ _ _))
  have hburst := Books.ite (c := kind = .range) (fun _ => hheard.trans (rangeBurst_books _ h d))
    fun _ => hheard.trans (takePackets_books _ h ps)
  unfold State.cleanBurst
  dsimp only
  split
  · exact (Books.ite (fun hs => hburst.trans (handOver_books _ h (by rw [hs]; rfl))) fun _ => hburst).trans
      (judge_books _ _ _ _ _ _)
  all_goals exact hburst.trans (judge_books _ _ _ _ _ _)

theorem rangeMissed_books (s : State) (h : Nat) : Books P s (s.rangeMissed h) := by
  refine .ite (fun _ => confirmAttempt_books s h) fun _ => .ite (fun hc => ?_) fun _ => .refl s
  have hb : (s.entry h).state.booked = true := by rw [hc.1]; rfl
  have hset := setEntry_books (P := P) s h { s.entry h with
    rangeAttempts := min Config.rerangeAttempts ((s.entry h).rangeAttempts + 1) } rfl
  exact .ite (fun _ => hset) fun _ => hset.trans (loseHome_books _ h (setEntry_booked s h _ hb hb))

theorem dataMissed_books (s : State) (h : Nat) : Books P s (s.dataMissed h) := by
  refine .ite (fun hc => ?_) fun _ => .refl s
  have hb := booked_of_served _ hc
  have hset := setEntry_books (P := P) s h { s.entry h with missed := min Config.missedLimit ((s.entry h).missed + 1) } rfl
  exact .ite (fun _ => hset.trans (loseHome_books _ h (setEntry_booked s h _ hb hb))) fun _ => hset

theorem observeBurst_books (s : State) (r : WindowRef) (w : Window) (o : BurstObs) : Books P s (s.observeBurst r w o) := by
  have hmissed := Books.ite (c := r.kind = .range) (fun _ => rangeMissed_books (P := P) s r.handle)
    fun _ => dataMissed_books s r.handle
  refine .ite (fun _ => .refl s) fun _ => ?_
  split
  · exact cleanBurst_books s _ _ _ _ _ _ _
  · exact hmissed
  · exact hmissed

/-! ### Enrolment (R51 to R58) -/

theorem setPlace_books (s : State) (i : Nat) (c : Option Capture) : Books P s (s.setPlace i c) := books_of_roster rfl rfl rfl

/-- The term a claim books is the one that was admitted (R53, R84). -/
theorem startClaim_books (s : State) (i : Nat) (r : Reply) : Books P s (s.startClaim i r) := by
  refine .ite (fun _ => setPlace_books s i _) fun _ => ?_
  split
  · exact (setPlace_books s i _).trans (pushEvent_books _ _)
  next h hfree =>
    refine .ite (fun ha => ?_) fun _ => (setPlace_books s i _).trans (pushEvent_books _ _)
    exact (takeEntry_books s h (claimEntry s.img r.serial (replyRoundTrip r s.img.rLow)) hfree rfl ha).trans
      ((setPlace_books _ i _).trans (queueNotice_books _ _))

theorem judgeCapture_books (s : State) (p : Nat × Reply) : Books P s (s.judgeCapture p) :=
  .ite (fun _ => (setPlace_books s _ _).trans (pushEvent_books _ _)) fun _ => startClaim_books s p.1 p.2

theorem discovered_books (s : State) (o : DiscoverObs) : Books P s (s.discovered o) := by
  unfold State.discovered
  split
  · exact .ite (fun _ => (Books.foldl _ (fun t (p : Nat × Reply) => setPlace_books t p.1 _) s _).trans
      (.foldl _ judgeCapture_books _ _)) fun _ => .refl s
  · exact .refl s
  · exact .refl s

theorem claimCarried_books (s : State) (serial : Serial) : Books P s (s.claimCarried serial) := books_of_roster rfl rfl rfl

theorem raiseDuplicate_books (s : State) (h : Nat) (serial : Serial) (other : Nat) :
    Books P s (s.raiseDuplicate h serial other) := raiseAlarm_books s _ _

theorem answerHeld_books (s : State) (h : Nat) (serial : Serial) (other : Nat) :
    Books P s (s.answerHeld h serial other) := by
  have hset := setEntry_books (P := P) s h { s.entry h with duplicates := satAdd 255 (s.entry h).duplicates 1 } rfl
  exact .ite (fun _ => .refl s) fun _ => hset.trans ((queueNotice_books _ _).trans (raiseDuplicate_books _ h serial other))

theorem claimHeard_books (s : State) (serial : Serial) (other : Nat) : Books P s (s.claimHeard serial other) := by
  unfold State.claimHeard
  split
  · exact .refl s
  next h _ =>
    split
    case h_1 => exact .ite (fun _ => .refl s) fun _ => dropClaim_books s serial h
    case h_9 => exact release_books s h _ _
    case h_10 => exact .refl s
    case h_11 => exact .refl s
    all_goals exact answerHeld_books s h serial other

theorem heldHeard_books (s : State) (serial : Serial) (holder : Nat) : Books P s (s.heldHeard serial holder) := by
  unfold State.heldHeard
  split
  · exact .refl s
  next h _ =>
    split
    case h_1 => exact dropClaim_books s serial h
    case h_2 => exact freeEntry_books s h
    case h_10 => exact .refl s
    case h_11 => exact .refl s
    all_goals exact raiseDuplicate_books s h serial holder

theorem toConfirming_bookedTerm {e : Entry} (hb : e.state.booked = true) (serial : Serial) (h : Nat) :
    (e.toConfirming serial h).bookedTerm = e.bookedTerm := (post_bookedTerm _ _).trans (bookedTerm_congr hb.symm rfl)

theorem claimHeldOut_books (s : State) (h : Nat) (serial : Serial) (hb : (s.entry h).state.booked = true) :
    Books P s (s.claimHeldOut h serial) :=
  .ite (fun _ => (freePlaceOf_books s h).trans (freeEntry_books _ h)) fun _ =>
    (freePlaceOf_books s h).trans (setEntry_books _ h _ (toConfirming_bookedTerm hb serial h))

/-! ### The start of a cycle (R1, R10, R33, R35, R39) -/

theorem tick_books (s : State) : Books P s s.tick := books_of_map (fun _ e => e.tick) rfl (fun _ _ => rfl) rfl rfl rfl

/-- The Hunt Unit's own fields hold nothing of the books. -/
theorem huntFields_books (s : State) (hu : Hunt) : Books P s { s with hu := hu } := books_of_roster rfl rfl rfl

theorem cycle_books (s : State) (cb : CycleBuilder) : Books P s { s with cb := cb } := books_of_roster rfl rfl rfl

theorem reachMap_books (s : State) : Books P s s.reachMap := by
  unfold State.reachMap
  dsimp only
  have hreached := cycle_books (P := P) s { s.cb with reached := some (s.cb.cycle - 2) }
  refine .ite (fun _ => ?_) fun _ => cycle_books s _
  split
  · exact .ite (fun _ => hreached.trans ((huntFields_books _ _).trans (queueNotice_books _ _))) fun _ => hreached
  · exact hreached
  · exact hreached

theorem advanceRecontact_bookedTerm (e : Entry) : e.advanceRecontact.bookedTerm = e.bookedTerm := by
  unfold Entry.advanceRecontact
  split <;> rfl

theorem afterBuild_bookedTerm (e : Entry) (n : CycleNo) (granted served : Bool) :
    (e.afterBuild n granted served).bookedTerm = e.bookedTerm := by
  unfold Entry.afterBuild
  split <;> rfl

theorem advanceRecontacts_books (s : State) : Books P s s.advanceRecontacts :=
  books_of_map (fun _ e => e.advanceRecontact) rfl (fun _ e => advanceRecontact_bookedTerm e) rfl rfl rfl

/-- The build moves the rotating pointer alone of what the allocator owns (R76). -/
theorem buildMap_books (s : State) (n : CycleNo) : Books P s (s.buildMap n) := by
  refine (advanceRecontacts_books s).trans ?_
  unfold State.buildMap
  dsimp only
  exact books_of_map (fun h e => e.afterBuild n ((s.advanceRecontacts.mapFor n).windows.any fun w => w.handle = h)
    (s.advanceRecontacts.rangeServed.contains h)) rfl (fun _ e => afterBuild_bookedTerm e n _ _) rfl rfl rfl

/-! ### The ends of messages (R33) -/

theorem messageFailed_books (s : State) (h : Nat) (kind : MsgKind) : Books P s (s.messageFailed h kind) := by
  have hempty := setEntry_books (P := P) s h { s.entry h with mailbox := none } rfl
  unfold State.messageFailed
  dsimp only
  split
  · exact .ite (fun _ => hempty.trans (setPhase_books _ h _)) fun _ => hempty
  · exact .ite (fun _ => hempty.trans (freeEntry_books _ h)) fun _ => hempty
  · split
    · rw [setEntry_setEntry]
      exact (setEntry_books s h _ (by rfl)).trans (queueNotice_books _ _)
    · exact hempty
  · exact hempty

/-! ### The hunt (R105 to R120) -/

theorem openHunt_books (s : State) : Books P s s.openHunt := books_of_roster (by simp) (by simp) (by simp)

theorem suspect_books (s : State) : Books P s s.suspect := .ite (fun _ => huntFields_books s _) fun _ => openHunt_books s

theorem takeDeferred_books (s : State) : Books P s s.takeDeferred := books_of_roster (by simp) (by simp) (by simp)

theorem yieldOpening_books (s : State) : Books P s s.yieldOpening := books_of_roster (by simp) (by simp) (by simp)

theorem setFlag_books (s : State) (id : HuntId) : Books P s (s.setFlag id) := huntFields_books s _

theorem setOwner_books (s : State) (o : OwnerPart) : Books P s (s.setOwner o) := huntFields_books s _

theorem endStray_books (s : State) : Books P s s.endStray := books_of_roster rfl rfl rfl

theorem emptyHistory_books (s : State) : Books P s s.emptyHistory := books_of_roster rfl rfl rfl

theorem join_books (s : State) (id : HuntId) (role : Role) : Books P s (s.join id role) :=
  (huntFields_books s _).trans ((endStray_books _).trans (queueNotice_books _ _))

theorem ownOpen_books (s : State) (id : HuntId) : Books P s (s.ownOpen id) := by
  have hflag : Books P s { s.setFlag id with hu := { (s.setFlag id).hu with opening := false } } := huntFields_books s _
  exact .ite (fun _ => .ite (fun _ => hflag.trans (join_books _ _ _)) fun _ =>
    hflag.trans ((huntFields_books _ _).trans (endStray_books _))) fun _ => hflag

theorem otherOpen_books (s : State) (id : HuntId) : Books P s (s.otherOpen id) :=
  let hflag := (setFlag_books s id).trans (yieldOpening_books _)
  .ite (fun _ => hflag.trans (join_books _ _ _)) fun _ => hflag

theorem joinHeard_books (s : State) (id : HuntId) (channel count : Nat) : Books P s (s.joinHeard id channel count) := by
  unfold State.joinHeard
  split
  · exact .ite (fun _ => setOwner_books s _) fun _ => .refl s
  · exact .refl s
  · exact .refl s

theorem queueStep_books (s : State) (id : HuntId) (o : OwnerPart) (sel : Selector) : Books P s (s.queueStep id o sel) :=
  (setOwner_books s _).trans (queueNotice_books _ _)

theorem queueClose_books (s : State) (id : HuntId) (o : OwnerPart) (outcome : HuntOutcome) :
    Books P s (s.queueClose id o outcome) := (setOwner_books s _).trans (queueNotice_books _ _)

theorem joinsOver_books (s : State) (id : HuntId) (o : OwnerPart) : Books P s (s.joinsOver id o) :=
  .ite (fun _ => setOwner_books s _) fun _ => .ite (fun _ => queueClose_books s id _ _) fun _ => queueStep_books s id _ _

/-- HUNT set on some homes and cleared from the others leaves every term (R114). -/
theorem applyStep_books (s : State) (k : Nat) (sel : Selector) : Books P s (s.applyStep k sel) :=
  books_of_map (fun h e => { e with holds := { e.holds with hunt := (s.darkened sel).contains h } }) rfl (fun _ _ => rfl) rfl
    rfl rfl

theorem ownStep_books (s : State) (src : Source) : Books P s (s.ownStep src) := by
  unfold State.ownStep
  split
  · exact setOwner_books s _
  all_goals exact .refl s

theorem stepHeard_books (s : State) (src : Source) (k : Nat) (sel : Selector) : Books P s (s.stepHeard src k sel) := by
  have hguard : Books P s (if s.hu.role = .participant ∧ s.draining = true then s
      else { s with hu := { s.hu with guardTimer := some Config.guardCycles } }) :=
    .ite (fun _ => .refl s) fun _ => huntFields_books s _
  have hown := hguard.trans (ownStep_books _ src)
  exact .ite (fun _ => hown.trans (applyStep_books _ k sel)) fun _ => hown

theorem readyHeard_books (s : State) (id : HuntId) (channel step : Nat) (named : Option HomeRef) :
    Books P s (s.readyHeard id channel step named) := by
  unfold State.readyHeard
  split
  · exact .ite (fun _ => setOwner_books s _) fun _ => .refl s
  · exact .refl s
  · exact .refl s

theorem actOn_books (s : State) (id : HuntId) (o : OwnerPart) (d : Decision) : Books P s (s.actOn id o d) := by
  unfold State.actOn
  split
  · exact queueStep_books s id o _
  · exact queueStep_books s id _ _
  · exact queueClose_books s id o _

theorem measure_books (s : State) (o : OwnerPart) (light : Bool) : Books P s (s.measure o light) := by
  have howner := setOwner_books (P := P) s (o.tallied light)
  refine .ite (fun _ => .ite (fun _ => howner) fun _ => .ite (fun _ => howner) fun _ => ?_) fun _ => .refl s
  split
  · exact howner
  · exact actOn_books s _ _ _

/-! ### The stray history (R97 to R99) -/

theorem light_books (s : State) (lw : LightWatch) : Books P s { s with lw := lw } := books_of_roster rfl rfl rfl

theorem handOn_books (s : State) : Books P s s.handOn := .ite (fun _ => suspect_books s) fun _ => .refl s

theorem strayEntry_books (s : State) (light : Bool) : Books P s (s.strayEntry light) := by
  have hentered := light_books (P := P) s { s.lw with history := enterOutcome s.lw.history light }
  have hcond := light_books (P := P) s { s.lw with history := enterOutcome s.lw.history light, condition := true }
  exact .ite (fun _ => (Books.ite (fun _ => hcond) fun _ => hcond.trans (raiseAlarm_books _ _ _)).trans (handOn_books _))
    fun _ => .ite (fun _ => hentered.trans (endStray_books _)) fun _ => hentered

theorem quietTaken_books (s : State) (light : Bool) : Books P s (s.quietTaken light) := by
  unfold State.quietTaken
  split
  · exact strayEntry_books s light
  · exact measure_books s _ light
  · exact .refl s

/-! ### Closing (R106, R119, R120) -/

theorem leaveHunt_books (s : State) : Books P s s.leaveHunt :=
  books_of_map (fun _ e => { e with holds := { e.holds with hunt := false } }) rfl (fun _ _ => rfl) rfl rfl rfl

theorem endHunt_books (s : State) (outcome : HuntOutcome) : Books P s (s.endHunt outcome) := by
  unfold State.endHunt
  split
  · exact .refl s
  · exact leaveHunt_books s
  · exact (leaveHunt_books s).trans ((raiseAlarm_books _ _ _).trans (emptyHistory_books _))

theorem foundHere_books (s : State) (id : HuntId) (r : HomeRef) : Books P s (s.foundHere id r) :=
  (Books.ite (fun _ => setEntry_books s r.handle _ (by rfl)) fun _ => .refl s).trans (raiseAlarm_books _ _ _)

theorem takeFound_books (s : State) (id : HuntId) (outcome : HuntOutcome) : Books P s (s.takeFound id outcome) := by
  unfold State.takeFound
  split
  · exact .ite (fun _ => foundHere_books s id _) fun _ => .refl s
  all_goals exact .refl s

theorem clearFlag_books (s : State) : Books P s s.clearFlag := huntFields_books s _

theorem closeHeard_books (s : State) (id : HuntId) (outcome : HuntOutcome) : Books P s (s.closeHeard id outcome) := by
  unfold State.closeHeard
  split
  · exact takeFound_books s id outcome
  · exact .ite (fun _ => (clearFlag_books s).trans ((endHunt_books _ _).trans
      ((takeFound_books _ _ _).trans (takeDeferred_books _)))) fun _ => .refl s

end Engines

end Sys2Proof.Machine
end

section
/-! PROOFS. The books through handover, start-up and draining, and the requests. -/

namespace Sys2Proof.Machine

section Engines
variable {P : Prop}

/-! ### Handover (R126 to R137) -/

theorem movedOut_books (s : State) (e : Entry) (serial : Serial) (o : MoveOutcome) : Books P s (s.movedOut e serial o) :=
  pushEvent_books s _

/-- The term an arrival books is the one that was admitted (R84, R128). -/
theorem considerOffer_books (s : State) (serial : Serial) (source : Nat) (p : Profile) (eqDelay : Nat) :
    Books P s (s.considerOffer serial source p eqDelay) := by
  refine .ite (fun _ => queueNotice_books s _) fun _ => ?_
  split
  · exact queueNotice_books s _
  next h hfree =>
    exact .ite (fun ha => (takeEntry_books s h (arrivingEntry s.img serial source p eqDelay h) hfree rfl ha).trans
      (queueNotice_books _ _)) fun _ => queueNotice_books s _

theorem offerHeard_books (s : State) (serial : Serial) (source target : Nat) (p : Profile) (eqDelay : Nat) :
    Books P s (s.offerHeard serial source target p eqDelay) := by
  unfold State.offerHeard
  split
  case h_1 => exact .refl s
  case h_2 => exact .refl s
  case h_5 => exact .ite (fun _ => considerOffer_books s serial source p eqDelay) fun _ => .refl s
  all_goals exact .ite (fun _ => queueNotice_books s _) fun _ => .refl s

theorem toTuning_bookedTerm {e : Entry} (hb : e.state.booked = true) (channel newHandle : Nat) :
    (e.toTuning channel newHandle).bookedTerm = e.bookedTerm := (post_bookedTerm _ _).trans (bookedTerm_congr hb.symm rfl)

theorem acceptHeard_books (s : State) (serial : Serial) (channel newHandle : Nat) :
    Books P s (s.acceptHeard serial channel newHandle) := by
  unfold State.acceptHeard
  split
  · exact .refl s
  next h _ =>
    exact .ite (fun hc => setEntry_books s h _ (toTuning_bookedTerm (by rw [hc.1]; rfl) channel newHandle)) fun _ => .refl s

theorem refuseHeard_books (s : State) (serial : Serial) (channel : Nat) (reason : RefuseReason) :
    Books P s (s.refuseHeard serial channel reason) := by
  unfold State.refuseHeard
  split
  · exact .refl s
  next h _ =>
    exact .ite (fun hc => (returnActive_books s h (by rw [hc.1]; rfl)).trans (movedOut_books _ _ _ _)) fun _ => .refl s

theorem accountHeard_books (s : State) (serial : Serial) (source : Nat) (a : Account) :
    Books P s (s.accountHeard serial source a) := by
  unfold State.accountHeard
  split
  · exact .refl s
  next h _ =>
    refine .ite (fun hc => ?_) fun _ => .refl s
    have hb : (s.entry h).state.booked = true := by rw [hc.1]; rfl
    exact (setAcct_books s h _).trans ((setEntry_books _ h _ (by rfl)).trans
      (tryTaking_books _ h (setEntry_booked _ h _ hb hb)))

theorem takenCarried_books (s : State) (serial : Serial) : Books P s (s.takenCarried serial) := by
  unfold State.takenCarried
  split
  · exact .refl s
  next h _ =>
    exact .ite (fun hs => (toActive_books s h (by rw [hs]; rfl)).trans ((setAcct_books _ h _).trans
      ((startCredit_books _ h).trans ((pushEvent_books _ _).trans (drainClose_books _ h))))) fun _ => .refl s

theorem takenHeard_books (s : State) (serial : Serial) (channel : Nat) : Books P s (s.takenHeard serial channel) := by
  unfold State.takenHeard
  split
  · exact .refl s
  next h _ =>
    exact .ite (fun _ => (enterClosing_books s h _ _).trans ((withdraw_books _ _).trans (movedOut_books _ _ _ _)))
      fun _ => .refl s

theorem reclaimCarried_books (s : State) (serial : Serial) : Books P s (s.reclaimCarried serial) := by
  unfold State.reclaimCarried
  split
  · exact .refl s
  next h _ =>
    dsimp only
    split
    case h_1 hs _ => exact (returnActive_books s h (by rw [hs]; rfl)).trans (movedOut_books _ _ _ _)
    case h_2 hs =>
      exact (enterLost_books s h (by rw [hs]; rfl)).trans ((startCredit_books _ h).trans ((movedOut_books _ _ _ _).trans
        (drainClose_books _ h)))
    case h_3 => exact .refl s

theorem reclaimHeard_books (s : State) (serial : Serial) (source : Nat) : Books P s (s.reclaimHeard serial source) := by
  unfold State.reclaimHeard
  split
  · exact .refl s
  next h _ => exact .ite (fun _ => (freeEntry_books s h).trans (withdraw_books _ _)) fun _ => .refl s

theorem queueReclaim_books (s : State) (h : Nat) (serial : Serial) (cause : ReclaimCause) :
    Books P s (s.queueReclaim h serial cause) := (setEntry_books s h _ (by rfl)).trans (queueNotice_books _ _)

theorem handoverExpired_books (s : State) (h : Nat) (serial : Serial) : Books P s (s.handoverExpired h serial) := by
  unfold State.handoverExpired
  dsimp only
  split
  case h_1 hs =>
    exact (returnActive_books s h (by rw [hs]; rfl)).trans ((withdraw_books _ _).trans (movedOut_books _ _ _ _))
  case h_2 => exact (setEntry_books s h (s.entry h).dropTune rfl).trans (queueReclaim_books _ h serial .timeout)
  case h_3 => exact (withdraw_books s _).trans (queueReclaim_books _ h serial .timeout)
  all_goals exact .refl s

/-! ### Start-up (R188 to R191) -/

/-- The Image Loader's fields but the image are no books. -/
theorem startup_books (s : State) (il : ImageLoader) (hi : il.image = s.il.image) : Books P s { s with il := il } :=
  books_of_roster rfl rfl hi

theorem enterFault_books (s : State) (reason : FaultReason) (usable : Option Nat) (clash : Option (Nat × Station)) :
    Books P s (s.enterFault reason usable clash) := (startup_books s { s.il with
      startup := .configFault, fault := some reason, usableChannel := usable, drainTimer := none, listenTimer := none }
      rfl).trans (pushEvent_books _ _)

/-- Every field of a good image passes its check (R188). -/
theorem fieldChecks_pass {ws : List ImageWord} (hgood : firstBadField ws = none) : ∀ c ∈ fieldChecks ws, c.2 = true := by
  unfold firstBadField at hgood
  rw [Option.map_eq_none_iff, List.find?_eq_none] at hgood
  intro c hc
  simpa using hgood c hc

/-- The ranges of the checks are those of a good image, and leave room for the default profile's term (R81, R189). -/
theorem readImage_good {ws : List ImageWord} (hgood : firstBadField ws = none) : (readImage ws).Good := by
  have hpass := fieldChecks_pass hgood
  simp only [fieldChecks, List.forall_mem_cons, Bool.and_eq_true, Bool.or_eq_true, decide_eq_true_eq, beq_iff_eq] at hpass
  obtain ⟨hchannel, -, ⟨hhigh, hreach⟩, ⟨hdisc, hsmall⟩, hpdisc, ⟨hqlo, hqhi⟩, ⟨hplo, hphi⟩, ⟨hklo, hkhi⟩, hline,
    ⟨⟨⟨⟨hassured, hpeak⟩, hpeakhi⟩, hwlo⟩, hwhi⟩, -, hclaim, hhand, hlost, ⟨hslo, hshi⟩, -⟩ := hpass
  unfold smallestDiscover at hsmall
  simp only [Image.Good, readImage, admissionFloor, term, smallestDiscover, Config.cycleWords, Config.guardWords,
    Config.rangeWords, Config.minPayload, Config.dataCost]
  omega

/-- A good image is taken while every entry is FREE, so nothing is booked against its floor (R81, R188, R190). -/
theorem takeImage_books (s : State) (img : Image) (hgood : img.Good) (hb : s.builds = false) (hp : P → RosterLaw s) :
    Books P s (s.takeImage img) := by
  refine ⟨fun p hinv => ?_, fun _ x hx => ?_⟩
  · rw [bookedInv_iff] at hinv ⊢
    have hsum : s.termSum = 0 := List.sum_eq_zero fun x hx => by
      obtain ⟨h, -, rfl⟩ := List.mem_map.1 hx
      exact bookedTerm_of_free ((hp p).closed hb h)
    have hnone : s.ua.booked = 0 := hinv.1.trans hsum
    refine ⟨hinv.1, ?_⟩
    have hua : (s.takeImage img).ua.booked = s.ua.booked := rfl
    rw [hua, hnone]
    exact Nat.zero_le _
  · have himg : some img = some x := hx
    cases himg
    exact ⟨hgood, rfl⟩

theorem loaded_books (s : State) (ws : List ImageWord) (hb : s.builds = false) (hp : P → RosterLaw s) :
    Books P s (s.loaded ws) := by
  unfold State.loaded
  refine .ite (fun _ => ?_) fun _ => enterFault_books s _ _ _
  split
  · exact enterFault_books s _ _ _
  next hgood => exact takeImage_books s _ (readImage_good hgood) hb hp

theorem answerPresent_books (s : State) : Books P s s.answerPresent := .ite (fun _ => .refl s) fun _ => queueNotice_books s _

theorem presentHeard_books (s : State) (station : Station) (incumbent : Bool) :
    Books P s (s.presentHeard station incumbent) := by
  have hclash : Books P s (s.clash station) := enterFault_books s _ _ _
  unfold State.presentHeard
  split
  case h_1 => exact .refl s
  case h_2 => exact .refl s
  case h_3 =>
    exact .ite (fun _ => hclash.trans (withdraw_books _ _)) fun _ => .ite (fun _ => hclash) fun _ => answerPresent_books s
  all_goals exact .ite (fun _ => .refl s) fun _ => answerPresent_books s

theorem presentCarried_books (s : State) (incumbent : Bool) : Books P s (s.presentCarried incumbent) :=
  .ite (fun _ => startup_books s _ rfl) fun _ => .refl s

/-! ### Draining (R140, R192) -/

theorem drainEntry_books (s : State) (h : Nat) : Books P s (s.drainEntry h) := by
  have hclosed := enterClosing_books (P := P) s h .restart true
  have hfreed := (freeEntry_books (P := P) s h).trans (withdraw_books _ (isTargetNoticeOf ((s.entry h).serial.getD 0)))
  unfold State.drainEntry
  dsimp only
  split
  case h_1 => exact hclosed
  case h_2 => exact hclosed
  case h_3 => exact .ite (fun _ => hclosed.trans (withdraw_books _ _)) fun _ => hclosed.trans (queueNotice_books _ _)
  case h_4 => exact .ite (fun _ => hclosed) fun _ => hclosed.trans (queueNotice_books _ _)
  case h_5 => exact hfreed
  case h_6 => exact .ite (fun _ => withdraw_books s _) fun _ => hfreed
  all_goals exact .refl s

theorem enterDraining_books (s : State) : Books P s s.enterDraining :=
  (startup_books s { s.il with startup := .draining, drainTimer := some Config.drainCycles } rfl).trans
    (.foldl State.drainEntry drainEntry_books _ handles)

theorem restarted_books (s : State) (straps : Station) : Books P s (s.restarted straps) := by
  unfold State.restarted
  split
  · exact powerOn_books s straps
  · exact powerOn_books s straps
  · exact enterDraining_books s
  · exact .refl s
  · exact .refl s

theorem repeated_books (s : State) (r : RepeatTimer) : Books P s (s.repeated r) :=
  .ite (fun _ => ((placeReport_reportsOnly s _ _ true).trans (startRepeat_reportsOnly _ _ _)).books)
    fun _ => endCondition_books s _

/-! ### The answers to requests (R29, R42, R83, R85, R126, R157, R158, R161) -/

/-- The state an answer leaves keeps the books. -/
def AnswerBooks (P : Prop) (s : State) (a : Answer) : Prop := Books P s a.1

theorem AnswerBooks.ite {s : State} {a b : Answer} {c : Prop} [Decidable c] (ha : c → AnswerBooks P s a)
    (hb : ¬c → AnswerBooks P s b) : AnswerBooks P s (if c then a else b) := by
  split
  next h => exact ha h
  next h => exact hb h

theorem refusedWith_books (s : State) (code : ResultCode) : AnswerBooks P s (s.refusedWith code) := Books.refl s

theorem done_books {s t : State} (h : Books P s t) : AnswerBooks P s t.done := h

theorem onHome_books (s : State) (serial : Serial) (act : Nat → Answer) (hact : ∀ h, AnswerBooks P s (act h)) :
    AnswerBooks P s (s.onHome serial act) := by
  unfold State.onHome
  split
  · exact refusedWith_books s _
  · exact hact _

theorem settable_booked {st : HomeState} (h : st.settable = true) : st.booked = true := by
  rcases (settable_iff st).1 h with rfl | rfl <;> rfl

/-- A new profile's term is booked in place of the old one where the change is admitted (R82, R83). -/
theorem profiled_books (s : State) (c : Profile) (h : Nat) (hb : (s.entry h).state.booked = true)
    (ha : s.admitsChange (term (s.entry h).prof.assured) (term c.assured) = true) : Books P s (s.profiled c h) := by
  have hrange := handle_of_state s h fun hf => by rw [hf] at hb; cases hb
  have hentry : (s.profiled c h).entry h = { s.entry h with profile := some c } := entry_setEntry_self s h _ hrange
  have hold := bookedTerm_of_booked hb
  have hnew : ((s.profiled c h).entry h).bookedTerm = term c.assured := by
    rw [hentry]
    exact bookedTerm_of_booked (e := { s.entry h with profile := some c }) hb
  have hua : (s.profiled c h).ua.booked = s.ua.booked - term (s.entry h).prof.assured + term c.assured := rfl
  refine books_of_rebooked h (fun k hk => entry_setEntry_other s h k _ hk) (by rw [hua, hold, hnew]) ?_ rfl rfl
  rw [hold, hnew]
  exact (admitsChange_iff s _ _).1 ha

theorem setProfileAt_books (s : State) (p : Profile) (h : Nat) : AnswerBooks P s (s.setProfileAt p h) :=
  .ite (fun hs => .ite (fun _ => refusedWith_books s _) fun _ => .ite
    (fun ha => profiled_books s (clampProfile p) h (settable_booked hs) ha) fun _ => refusedWith_books s _)
    fun _ => refusedWith_books s _

theorem setAccountAt_books (s : State) (a : AccountArgs) (h : Nat) : AnswerBooks P s (s.setAccountAt a h) := by
  refine .ite (fun _ => ?_) fun _ => refusedWith_books s _
  split
  · exact refusedWith_books s _
  · exact done_books (changeAcct_books s h _)
  · exact done_books (.refl s)

theorem refillAt_books (s : State) (amount h : Nat) : AnswerBooks P s (s.refillAt amount h) := by
  refine .ite (fun _ => ?_) fun _ => refusedWith_books s _
  split
  · exact changeAcct_books s h _
  · exact done_books (.refl s)

theorem startMove_books (s : State) (h : Nat) (serial : Serial) (target : Nat) (hs : (s.entry h).state = .active) :
    Books P s (s.startMove h serial target) := by
  refine (setEntry_books s h _ (bookedTerm_congr ?_ ?_)).trans (queueNotice_books _ _)
  · rw [hs]
    rfl
  · rfl

theorem moveAt_books (s : State) (serial : Serial) (target h : Nat) : AnswerBooks P s (s.moveAt serial target h) := by
  have hno (code : ResultCode) := refusedWith_books (P := P) s code
  refine .ite (fun _ => hno _) fun _ => .ite (fun _ => hno _) fun _ => .ite (fun _ => hno _) fun hc =>
    .ite (fun _ => hno _) fun _ => done_books (startMove_books s h serial target ?_)
  exact Decidable.not_not.1 fun hs => hc (.inl hs)

theorem holdRequest_books (s : State) (serial : Serial) (code : Nat) (flag : Byte) :
    AnswerBooks P s (s.holdRequest serial code flag) :=
  .ite (fun _ => onHome_books s serial _ fun h => done_books (setEntry_books s h _ (by rfl))) fun _ =>
    .ite (fun _ => refusedWith_books s _) fun _ => onHome_books s serial _ fun _ => refusedWith_books s _

/-- The Usage Meter's and the Enrolment Engine's own fields hold nothing of the books. -/
theorem meter_books (s : State) (um : UsageMeter) (ee : Enrolment) : Books P s { s with um := um, ee := ee } :=
  books_of_roster rfl rfl rfl

theorem closePeriods_books (s : State) (p : Nat) : Books P s (s.closePeriods p) := by
  have hclose (t : State) (h : Nat) : Books P t (t.closeAccount p h) := by
    unfold State.closeAccount
    split
    · exact .refl t
    · exact .ite (fun _ => changeAcct_books t h _) fun _ => .refl t
  have hclosed := Books.foldl (State.closeAccount p) hclose s handles
  unfold State.closePeriods
  dsimp only
  generalize handles.foldl (State.closeAccount p) s = t at hclosed ⊢
  exact hclosed.trans (meter_books t _ t.ee)

theorem discovery_books (s : State) (f : Config.FlagReading) : AnswerBooks P s (s.discovery f) := by
  unfold State.discovery
  split
  · exact .ite (fun _ => refusedWith_books s _) fun _ => done_books (meter_books s s.um _)
  · exact done_books (meter_books s s.um _)
  · exact refusedWith_books s _

end Engines

end Sys2Proof.Machine
end

section
/-! PROOFS. The books through every command, and obligation O6. -/

namespace Sys2Proof.Machine

/-- Where the command has a next state, the books are kept there. -/
def BooksStep (P : Prop) (s : State) (o : Host.Outcome State Fault Refusal) : Prop := ∀ t, o = .next t → Books P s t

section Commands
variable {P : Prop}

/-! ### One command -/

theorem Books.next {s t : State} (h : Books P s t) : BooksStep P s (.next t) := by
  intro u hu
  cases hu
  exact h

theorem Books.settled {s t : State} (h : Books P s t) : BooksStep P s (.next t.settle) := (h.trans (settle_books t)).next

theorem booksStep_stays (s : State) : BooksStep P s (.next s) := (Books.refl s).next

theorem BooksStep.ite {s : State} {a b : Host.Outcome State Fault Refusal} {c : Prop} [Decidable c]
    (ha : c → BooksStep P s a) (hb : ¬c → BooksStep P s b) : BooksStep P s (if c then a else b) := by
  split
  next h => exact ha h
  next h => exact hb h

/-- A command whose effect is settled, or which changes nothing. -/
theorem Books.settledIf {s t : State} {c : Prop} [Decidable c] (h : c → Books P s t) :
    BooksStep P s (.next (if c then t.settle else s)) :=
  (Books.ite (fun hc => (h hc).trans (settle_books t)) fun _ => .refl s).next

/-- A command that does nothing where a condition holds. -/
theorem booksStep_unless {s : State} {c : Prop} [Decidable c] {o : Host.Outcome State Fault Refusal}
    (h : ¬c → BooksStep P s o) : BooksStep P s (if c then .next s else o) := .ite (fun _ => booksStep_stays s) h

/-- A command that does nothing unless a condition holds. -/
theorem booksStep_when {s : State} {c : Prop} [Decidable c] {o : Host.Outcome State Fault Refusal}
    (h : c → BooksStep P s o) : BooksStep P s (if c then o else .next s) := .ite h fun _ => booksStep_stays s

theorem hearNotice_books (src : Source) (n : Notice) (act : State → State) (s : State) (hact : ∀ t, Books P t (act t)) :
    BooksStep P s (hearNotice src n act s) := by
  refine booksStep_unless fun _ => ?_
  split
  · exact booksStep_when fun _ => ((noticeCarried_books s).trans (hact _)).settled
  · exact ((lineHeard_books s).trans (hact _)).settled

theorem answer_books {α : Type} (s : State) (kind : RequestKind) (args : Option α) (act : α → State → Answer)
    (hact : ∀ a t, AnswerBooks P t (act a t)) : AnswerBooks P s (s.answer kind args act) := by
  refine .ite (fun _ => refusedWith_books s _) fun _ => ?_
  split
  · exact refusedWith_books s _
  · exact hact _ s

theorem request_books {α : Type} (kind : RequestKind) (hd : RequestHeader) (args : Option α)
    (act : α → State → Answer) (s : State) (hact : ∀ a t, AnswerBooks P t (act a t)) :
    BooksStep P s (request kind hd args act s) := by
  have hheard := lineHeard_books (P := P) s
  refine booksStep_unless fun _ => .ite (fun _ => .ite (fun _ => (line_books s s.slp _ s.rq).next) fun _ =>
    .ite (fun _ => hheard.next) fun _ => ?_) fun _ => hheard.next
  have hanswered := hheard.trans (answer_books _ kind args act hact)
  exact (hanswered.trans (line_books _ _ _ _)).settled

theorem broadcast_books {α : Type} (hd : RequestHeader) (args : Option α) (act : α → State → State) (s : State)
    (hact : ∀ a t, Books P t (act a t)) : BooksStep P s (broadcast hd args act s) := by
  have hheard := lineHeard_books (P := P) s
  refine booksStep_unless fun _ => .ite (fun _ => .ite (fun _ => (line_books s s.slp _ s.rq).next) fun _ =>
    .ite (fun _ => hheard.next) fun _ => .ite (fun _ => hheard.next) fun _ => ?_) fun _ => hheard.next
  split
  · exact hheard.next
  · exact (hheard.trans (hact _ _)).settled

/-! ### The commands of the part's own blocks -/

/-- An image is loaded in LOADING, with the roster all FREE (R188, R190). -/
theorem execImageLoadComplete_books (ws : List ImageWord) (s : State) (hp : P → RosterLaw s) :
    BooksStep P s (execImageLoadComplete ws s) :=
  booksStep_unless fun _ => booksStep_when fun hc => (loaded_books s ws (builds_of_loading hc.1) hp).settled

theorem execNoImage_books (s : State) : BooksStep P s (execNoImage s) :=
  booksStep_unless fun _ => booksStep_when fun _ => (enterFault_books s _ _ _).settled

theorem execCycleStart_books (s : State) : BooksStep P s (execCycleStart s) := by
  have hbegun : Books P s s.tick.reachMap.emptyDownstream :=
    (tick_books s).trans ((reachMap_books _).trans (line_books _ _ _ _))
  exact booksStep_unless fun _ => (Books.ite (fun _ => hbegun.trans (buildMap_books _ _)) fun _ => hbegun).settled

theorem execMessageFailure_books (h : Nat) (s : State) : BooksStep P s (execMessageFailure h s) := by
  refine booksStep_unless fun _ => ?_
  split
  · exact booksStep_stays s
  · exact Books.settledIf fun _ => messageFailed_books s h _

theorem execReleaseDropped_books (h : Nat) (s : State) : BooksStep P s (execReleaseDropped h s) := by
  refine booksStep_unless fun _ => ?_
  split
  · exact booksStep_stays s
  · exact Books.settledIf fun _ => setEntry_books s h _ rfl

theorem execDataRangeObservation_books (r : WindowRef) (o : BurstObs) (s : State) :
    BooksStep P s (execDataRangeObservation r o s) := by
  refine booksStep_unless fun _ => booksStep_when fun _ => ?_
  split
  · exact booksStep_stays s
  · have hopened : Books P s (s.opened r) := books_of_roster rfl rfl rfl
    exact booksStep_when fun _ => (hopened.trans (observeBurst_books _ _ _ _)).settled

theorem execDiscoverObservation_books (r : WindowRef) (o : DiscoverObs) (s : State) :
    BooksStep P s (execDiscoverObservation r o s) := by
  refine booksStep_unless fun _ => booksStep_when fun _ => ?_
  split
  · exact booksStep_stays s
  · exact Books.settledIf fun _ => (clearOutstanding_books s r).trans (discovered_books _ o)

theorem execQuietObservation_books (r : WindowRef) (light : Bool) (s : State) :
    BooksStep P s (execQuietObservation r light s) := by
  refine booksStep_unless fun _ => booksStep_when fun _ => ?_
  split
  · exact booksStep_stays s
  · exact ((clearOutstanding_books s r).trans (quietTaken_books _ light)).settled

theorem execDownstreamPacket_books (h label bytes : Nat) (s : State) :
    BooksStep P s (execDownstreamPacket h label bytes s) := by
  have hdiscarded := line_books (P := P) s s.slp { s.ports with opticalOut := none } s.rq
  refine booksStep_unless fun _ => ?_
  split
  · exact hdiscarded.next
  · exact .ite (fun _ => ((changeAcct_books s h _).trans (line_books _ _ _ _)).settled) fun _ => hdiscarded.next

theorem execClaimHoldExpiry_books (h : Nat) (s : State) : BooksStep P s (execClaimHoldExpiry h s) := by
  refine booksStep_unless fun _ => ?_
  split
  · exact booksStep_when fun hc => (claimHeldOut_books s h _ (by rw [hc.2]; rfl)).settled
  · exact booksStep_stays s
  · exact booksStep_stays s

theorem execLostTimerExpiry_books (h : Nat) (s : State) : BooksStep P s (execLostTimerExpiry h s) :=
  booksStep_unless fun _ => Books.settledIf fun _ => release_books s h _ _

theorem execHandoverTimerExpiry_books (h : Nat) (s : State) : BooksStep P s (execHandoverTimerExpiry h s) := by
  refine booksStep_unless fun _ => ?_
  split
  · exact booksStep_stays s
  · exact Books.settledIf fun _ => handoverExpired_books s h _

theorem execInboundTimerExpiry_books (h : Nat) (s : State) : BooksStep P s (execInboundTimerExpiry h s) := by
  refine booksStep_unless fun _ => ?_
  split
  · exact booksStep_stays s
  · exact Books.settledIf fun _ => (freeEntry_books s h).trans (withdraw_books _ _)

theorem execGuardExpiry_books (s : State) : BooksStep P s (execGuardExpiry s) :=
  booksStep_unless fun _ => Books.settledIf fun _ =>
    (clearFlag_books s).trans ((endHunt_books _ _).trans (takeDeferred_books _))

theorem execJoinTimerExpiry_books (s : State) : BooksStep P s (execJoinTimerExpiry s) := by
  refine booksStep_unless fun _ => ?_
  split
  · exact Books.settledIf fun _ => joinsOver_books s _ _
  all_goals exact booksStep_stays s

theorem execReadyTimerExpiry_books (s : State) : BooksStep P s (execReadyTimerExpiry s) := by
  refine booksStep_unless fun _ => ?_
  split
  · exact Books.settledIf fun _ => Books.ite (fun _ => setOwner_books s _) fun _ => queueClose_books s _ _ _
  all_goals exact booksStep_stays s

theorem execListeningTimerExpiry_books (s : State) : BooksStep P s (execListeningTimerExpiry s) :=
  booksStep_unless fun _ => booksStep_when fun _ => (startup_books s _ (by rfl)).next

theorem execRepeatTimerExpiry_books (a : AlarmSource) (s : State) : BooksStep P s (execRepeatTimerExpiry a s) := by
  refine booksStep_unless fun _ => ?_
  split
  · exact booksStep_stays s
  · exact Books.settledIf fun _ => repeated_books s _

/-! ### The commands of the line -/

theorem execCarriedIgnoredFrame_books (cls : BitVec 3) (sender : Station) (kind : BitVec 4) (s : State) :
    BooksStep P s (execCarriedIgnoredFrame cls sender kind s) := booksStep_unless fun _ => (lineHeard_books s).next

theorem execFrameCheckFailed_books (f : RawFrame) (s : State) : BooksStep P s (execFrameCheckFailed f s) :=
  booksStep_unless fun _ => booksStep_unless fun _ => (line_books s s.slp _ s.rq).next

theorem execLineIdleContend_books (rival : Option (BitVec 11)) (s : State) :
    BooksStep P s (execLineIdleContend rival s) := by
  refine booksStep_unless fun _ => booksStep_when fun _ => ?_
  split
  · exact booksStep_stays s
  · exact booksStep_when fun _ => (line_books s _ s.ports s.rq).next

theorem execOwnFrameVoided_books (droveVoid : Bool) (s : State) : BooksStep P s (execOwnFrameVoided droveVoid s) := by
  refine booksStep_unless fun _ => ?_
  split
  · exact booksStep_stays s
  · have hvoided := line_books (P := P) s
      { s.slp with transmitting := none, voidCount := satAdd Config.voidLimit s.slp.voidCount 1 }
      { s.ports with voidDriven := droveVoid } s.rq
    exact ((Books.ite (fun _ => hvoided.trans (removeWithdrawn_books _)) fun _ => hvoided).trans
      (detachIfDue_books _)).settled

theorem execDetachTimerExpiry_books (s : State) : BooksStep P s (execDetachTimerExpiry s) :=
  booksStep_unless fun _ => booksStep_when fun _ => (line_books s _ s.ports s.rq).settled

theorem execResultCarried_books (straps : Station) (s : State) : BooksStep P s (execResultCarried straps s) := by
  refine booksStep_unless fun _ => ?_
  split
  next rest _ _ =>
    have hcarried := (line_books (P := P) s s.slp s.ports { s.rq with results := rest }).trans (ownCarried_books _)
    exact (Books.ite (fun _ => hcarried.trans (restarted_books _ straps)) fun _ => hcarried).settled
  · exact booksStep_stays s

theorem execReportCarried_books (s : State) : BooksStep P s (execReportCarried s) := by
  refine booksStep_unless fun _ => ?_
  split
  · exact ((reportGone_books s _).trans (ownCarried_books _)).settled
  · exact booksStep_stays s

theorem execUsageFirstPartCarried_books (s : State) : BooksStep P s (execUsageFirstPartCarried s) := by
  refine booksStep_unless fun _ => ?_
  split
  · split
    · exact ((line_books s _ s.ports s.rq).trans (ownCarried_books _)).settled
    · exact booksStep_stays s
  · exact booksStep_stays s

theorem execUsageRecordCarried_books (s : State) : BooksStep P s (execUsageRecordCarried s) := by
  refine booksStep_unless fun _ => ?_
  split
  · split
    · exact ((recordCarried_books s _).trans (ownCarried_books _)).settled
    · exact booksStep_stays s
  · exact booksStep_stays s

theorem execDrainComplete_books (straps : Station) (s : State) : BooksStep P s (execDrainComplete straps s) :=
  booksStep_unless fun _ => booksStep_when fun _ => (powerOn_books s straps).next

theorem execDrainTimerExpiry_books (straps : Station) (s : State) : BooksStep P s (execDrainTimerExpiry straps s) :=
  booksStep_unless fun _ => booksStep_when fun _ => (powerOn_books s straps).next

/-! ### The carried notices -/

/-- A notice whose carriage acts by its source: as the own one, or as another's. -/
theorem hearNotice_bySource (src : Source) (n : Notice) (own : State → State) (other : Station → State → State)
    (s : State) (hown : ∀ t, Books P t (own t)) (hother : ∀ x t, Books P t (other x t)) :
    BooksStep P s (hearNotice src n (fun t => match src with
      | .own => own t
      | .other x => other x t) s) := by
  refine hearNotice_books src n _ s fun t => ?_
  cases src with
  | own => exact hown t
  | other x => exact hother x t

theorem execClaim_books (src : Source) (serial : Serial) (channel : Nat) (s : State) :
    BooksStep P s (execClaim src serial channel s) :=
  hearNotice_bySource src _ _ _ s (fun t => claimCarried_books t serial) fun _ t => claimHeard_books t serial channel

theorem execHeld_books (src : Source) (serial : Serial) (channel : Nat) (s : State) :
    BooksStep P s (execHeld src serial channel s) :=
  hearNotice_bySource src _ _ _ s (fun t => .refl t) fun _ t => heldHeard_books t serial channel

theorem execOffer_books (src : Source) (serial : Serial) (source target assured peak weight eqDelay : Nat) (s : State) :
    BooksStep P s (execOffer src serial source target assured peak weight eqDelay s) :=
  hearNotice_bySource src _ _ _ s (fun t => .refl t) fun _ t => offerHeard_books t serial source target _ eqDelay

theorem execAccept_books (src : Source) (serial : Serial) (channel newHandle : Nat) (s : State) :
    BooksStep P s (execAccept src serial channel newHandle s) :=
  hearNotice_bySource src _ _ _ s (fun t => .refl t) fun _ t => acceptHeard_books t serial channel newHandle

theorem execRefuse_books (src : Source) (serial : Serial) (channel : Nat) (reason : RefuseReason) (s : State) :
    BooksStep P s (execRefuse src serial channel reason s) :=
  hearNotice_bySource src _ _ _ s (fun t => .refl t) fun _ t => refuseHeard_books t serial channel reason

theorem execAccount_books (src : Source) (serial : Serial) (source : Nat) (mode : Mode)
    (credit base lowWater residueUp residueDown period : Nat) (s : State) :
    BooksStep P s (execAccount src serial source mode credit base lowWater residueUp residueDown period s) :=
  hearNotice_bySource src _ _ _ s (fun t => .refl t) fun _ t => accountHeard_books t serial source _

theorem execTaken_books (src : Source) (serial : Serial) (channel : Nat) (s : State) :
    BooksStep P s (execTaken src serial channel s) :=
  hearNotice_bySource src _ _ _ s (fun t => takenCarried_books t serial) fun _ t => takenHeard_books t serial channel

theorem execReclaim_books (src : Source) (serial : Serial) (source : Nat) (s : State) :
    BooksStep P s (execReclaim src serial source s) :=
  hearNotice_bySource src _ _ _ s (fun t => reclaimCarried_books t serial) fun _ t => reclaimHeard_books t serial source

theorem execPresent_books (src : Source) (channel : Nat) (incumbent : Bool) (s : State) :
    BooksStep P s (execPresent src channel incumbent s) :=
  hearNotice_bySource src _ _ _ s (fun t => presentCarried_books t incumbent) fun x t =>
    .ite (fun _ => presentHeard_books t x incumbent) fun _ => .refl t

theorem execHuntOpen_books (src : Source) (id : HuntId) (s : State) : BooksStep P s (execHuntOpen src id s) := by
  refine hearNotice_books src _ _ s fun t => .ite (fun _ => .refl t) fun _ => ?_
  cases src with
  | own => exact ownOpen_books t id
  | other x => exact otherOpen_books t id

theorem execHuntStep_books (src : Source) (id : HuntId) (step : Nat) (selector : Selector) (s : State) :
    BooksStep P s (execHuntStep src id step selector s) := by
  refine hearNotice_books src _ _ s fun t => ?_
  split
  · exact (setFlag_books t id).trans (yieldOpening_books _)
  · exact .ite (fun _ => stepHeard_books t src step selector) fun _ => .refl t

theorem execHuntJoin_books (src : Source) (id : HuntId) (channel count : Nat) (s : State) :
    BooksStep P s (execHuntJoin src id channel count s) :=
  hearNotice_books src _ _ s fun t => joinHeard_books t id channel count

theorem execHuntReady_books (src : Source) (id : HuntId) (channel step : Nat) (named : Option HomeRef) (s : State) :
    BooksStep P s (execHuntReady src id channel step named s) :=
  hearNotice_books src _ _ s fun t => readyHeard_books t id channel step named

theorem execHuntClose_books (src : Source) (id : HuntId) (outcome : HuntOutcome) (s : State) :
    BooksStep P s (execHuntClose src id outcome s) := hearNotice_books src _ _ s fun t => closeHeard_books t id outcome

/-! ### The requests -/

theorem execSetProfile_books (hd : RequestHeader) (d : List Byte) (s : State) : BooksStep P s (execSetProfile hd d s) :=
  request_books _ hd _ _ s fun a t => onHome_books t a.1 _ fun h => setProfileAt_books t a.2 h

theorem execSetAccount_books (hd : RequestHeader) (d : List Byte) (s : State) : BooksStep P s (execSetAccount hd d s) :=
  request_books _ hd _ _ s fun a t => onHome_books t a.serial _ fun h => setAccountAt_books t a h

theorem execRefill_books (hd : RequestHeader) (d : List Byte) (s : State) : BooksStep P s (execRefill hd d s) :=
  request_books _ hd _ _ s fun a t => onHome_books t a.1 _ fun h => refillAt_books t a.2 h

theorem execMove_books (hd : RequestHeader) (d : List Byte) (s : State) : BooksStep P s (execMove hd d s) :=
  request_books _ hd _ _ s fun a t => .ite (fun _ => refusedWith_books t _) fun _ => .ite (fun _ => refusedWith_books t _)
    fun _ => onHome_books t a.1 _ fun h => moveAt_books t a.1 a.2 h

theorem execRemove_books (hd : RequestHeader) (d : List Byte) (s : State) : BooksStep P s (execRemove hd d s) :=
  request_books _ hd _ _ s fun serial t => onHome_books t serial _ fun h =>
    .ite (fun _ => done_books (release_books t h .removed true)) fun _ => refusedWith_books t _

theorem execHold_books (hd : RequestHeader) (d : List Byte) (s : State) : BooksStep P s (execHold hd d s) :=
  request_books _ hd _ _ s fun a t => holdRequest_books t a.1 a.2.1 a.2.2

theorem execClearHold_books (hd : RequestHeader) (d : List Byte) (s : State) : BooksStep P s (execClearHold hd d s) :=
  request_books _ hd _ _ s fun a t => holdRequest_books t a.1 a.2.1 a.2.2

theorem execQueryHome_books (hd : RequestHeader) (d : List Byte) (s : State) : BooksStep P s (execQueryHome hd d s) :=
  request_books _ hd _ _ s fun a t => .ite (fun _ => onHome_books t a.1 _ fun _ => Books.refl t) fun _ =>
    .ite (fun _ => refusedWith_books t _) fun _ => onHome_books t a.1 _ fun _ => refusedWith_books t _

theorem execListHomes_books (hd : RequestHeader) (d : List Byte) (s : State) : BooksStep P s (execListHomes hd d s) :=
  request_books _ hd _ _ s fun _ t => .ite (fun _ => refusedWith_books t _) fun _ => Books.refl t

theorem execSetTariff_books (hd : RequestHeader) (d : List Byte) (guardPin : Bool) (s : State) :
    BooksStep P s (execSetTariff hd d guardPin s) :=
  request_books _ hd _ _ s fun _ t => .ite (fun _ => refusedWith_books t _) fun _ => .ite (fun _ => refusedWith_books t _)
    fun _ => .ite (fun _ => refusedWith_books t _) fun _ => done_books (meter_books t _ t.ee)

theorem execFixTariff_books (hd : RequestHeader) (d : List Byte) (guardPin : Bool) (s : State) :
    BooksStep P s (execFixTariff hd d guardPin s) :=
  request_books _ hd _ _ s fun _ t => .ite (fun _ => refusedWith_books t _) fun _ => .ite (fun _ => refusedWith_books t _)
    fun _ => done_books (meter_books t _ t.ee)

theorem execSetDiscovery_books (hd : RequestHeader) (d : List Byte) (s : State) : BooksStep P s (execSetDiscovery hd d s) :=
  request_books _ hd _ _ s fun b t => discovery_books t (readFlag b)

theorem execStartHunt_books (hd : RequestHeader) (d : List Byte) (s : State) : BooksStep P s (execStartHunt hd d s) :=
  request_books _ hd _ _ s fun _ t => .ite (fun _ => refusedWith_books t _) fun _ => .ite (fun _ => refusedWith_books t _)
    fun _ => .ite (fun _ => done_books (.refl t)) fun _ => done_books (openHunt_books t)

theorem execRestart_books (hd : RequestHeader) (d : List Byte) (s : State) : BooksStep P s (execRestart hd d s) :=
  request_books _ hd _ _ s fun _ t => .ite (fun _ => refusedWith_books t _) fun _ => done_books (.refl t)

theorem execBand_books (hd : RequestHeader) (d : List Byte) (s : State) : BooksStep P s (execBand hd d s) :=
  broadcast_books hd _ _ s fun _ t => .ite (fun _ => .refl t) fun _ => meter_books t _ t.ee

theorem execClosePeriod_books (hd : RequestHeader) (d : List Byte) (s : State) : BooksStep P s (execClosePeriod hd d s) :=
  broadcast_books hd _ _ s fun p t => .ite (fun _ => .refl t) fun _ => closePeriods_books t p

theorem execSetFreeLabels_books (hd : RequestHeader) (d : List Byte) (s : State) :
    BooksStep P s (execSetFreeLabels hd d s) := broadcast_books hd _ _ s fun _ t => meter_books t _ t.ee

/-! ### Every command -/

theorem exec_books (i : Instr) (s : State) (hp : P → RosterLaw s) : BooksStep P s (exec i s) := by
  cases i with
  | powerOnReset straps => exact (powerOn_books s straps).next
  | resetAsserted => exact Books.next (books_of_roster rfl rfl rfl)
  | imageLoadComplete words => exact execImageLoadComplete_books words s hp
  | noImage => exact execNoImage_books s
  | cycleStart => exact execCycleStart_books s
  | messageFailure handle => exact execMessageFailure_books handle s
  | releaseDropped handle => exact execReleaseDropped_books handle s
  | dataRangeObservation window obs => exact execDataRangeObservation_books window obs s
  | discoverObservation window obs => exact execDiscoverObservation_books window obs s
  | quietObservation window light => exact execQuietObservation_books window light s
  | downstreamPacket handle label bytes => exact execDownstreamPacket_books handle label bytes s
  | claim src serial channel => exact execClaim_books src serial channel s
  | held src serial channel => exact execHeld_books src serial channel s
  | offer src serial source target assured peak weight eqDelay =>
    exact execOffer_books src serial source target assured peak weight eqDelay s
  | accept src serial channel newHandle => exact execAccept_books src serial channel newHandle s
  | refuse src serial channel reason => exact execRefuse_books src serial channel reason s
  | account src serial source mode credit base lowWater residueUp residueDown period =>
    exact execAccount_books src serial source mode credit base lowWater residueUp residueDown period s
  | taken src serial channel => exact execTaken_books src serial channel s
  | reclaim src serial source => exact execReclaim_books src serial source s
  | huntOpen src id => exact execHuntOpen_books src id s
  | huntJoin src id channel count => exact execHuntJoin_books src id channel count s
  | huntStep src id step selector => exact execHuntStep_books src id step selector s
  | huntReady src id channel step named => exact execHuntReady_books src id channel step named s
  | huntClose src id outcome => exact execHuntClose_books src id outcome s
  | present src channel incumbent => exact execPresent_books src channel incumbent s
  | carriedIgnoredFrame cls sender kind => exact execCarriedIgnoredFrame_books cls sender kind s
  | frameCheckFailed frame => exact execFrameCheckFailed_books frame s
  | lineIdleContend rival => exact execLineIdleContend_books rival s
  | ownFrameVoided droveVoid => exact execOwnFrameVoided_books droveVoid s
  | detachTimerExpiry => exact execDetachTimerExpiry_books s
  | resultCarried straps => exact execResultCarried_books straps s
  | reportCarried => exact execReportCarried_books s
  | usageFirstPartCarried => exact execUsageFirstPartCarried_books s
  | usageRecordCarried => exact execUsageRecordCarried_books s
  | drainComplete straps => exact execDrainComplete_books straps s
  | drainTimerExpiry straps => exact execDrainTimerExpiry_books straps s
  | claimHoldExpiry handle => exact execClaimHoldExpiry_books handle s
  | lostTimerExpiry handle => exact execLostTimerExpiry_books handle s
  | handoverTimerExpiry handle => exact execHandoverTimerExpiry_books handle s
  | inboundTimerExpiry handle => exact execInboundTimerExpiry_books handle s
  | guardExpiry => exact execGuardExpiry_books s
  | joinTimerExpiry => exact execJoinTimerExpiry_books s
  | readyTimerExpiry => exact execReadyTimerExpiry_books s
  | listeningTimerExpiry => exact execListeningTimerExpiry_books s
  | repeatTimerExpiry source => exact execRepeatTimerExpiry_books source s
  | setProfile hd data => exact execSetProfile_books hd data s
  | setAccount hd data => exact execSetAccount_books hd data s
  | refill hd data => exact execRefill_books hd data s
  | move hd data => exact execMove_books hd data s
  | remove hd data => exact execRemove_books hd data s
  | hold hd data => exact execHold_books hd data s
  | clearHold hd data => exact execClearHold_books hd data s
  | queryHome hd data => exact execQueryHome_books hd data s
  | listHomes hd data => exact execListHomes_books hd data s
  | setTariff hd data guardPin => exact execSetTariff_books hd data guardPin s
  | fixTariff hd data guardPin => exact execFixTariff_books hd data guardPin s
  | setDiscovery hd data => exact execSetDiscovery_books hd data s
  | startHunt hd data => exact execStartHunt_books hd data s
  | restart hd data => exact execRestart_books hd data s
  | band hd data => exact execBand_books hd data s
  | closePeriod hd data => exact execClosePeriod_books hd data s
  | setFreeLabels hd data => exact execSetFreeLabels_books hd data s

/-- A step takes the command at the front of the queue and executes it, or idles. -/
theorem step_books (s t : State) (hstep : step s = .next t) (hp : P → RosterLaw s) : Books P s t := by
  have hqueue : Books P s s.dequeue := books_of_roster rfl rfl rfl
  have hlaw : RosterLaw s → RosterLaw s.dequeue := fun x =>
    ⟨x.free, x.serial, x.unique, x.reach, x.delay, x.claim, x.hunted, x.closed⟩
  unfold step at hstep
  split at hstep
  next => cases hstep; exact .refl s
  next c _ _ => exact hqueue.trans (exec_books c s.dequeue (fun p => hlaw (hp p)) t hstep)

end Commands

/-- Settles O6: every operation keeps the booked sum and the image; where a load brings a new floor the roster law
has every entry FREE. -/
theorem bookedKept : Obligations.BookedKept := by
  unfold Obligations.BookedKept
  constructor
  · intro s t hroster hbooked hstep
    exact (step_books (P := True) s t hstep fun _ => (rosterInv_iff s).1 hroster).booked trivial hbooked
  · intro s t himage hstep
    exact (step_books (P := False) s t hstep False.elim).image himage

end Sys2Proof.Machine
end

section
/-! PROOFS. The observation of a QUIET window (R97 to R99, R117): what enters the stray history, what is handed on, and
what the owner measures. Obligation O25. -/

namespace Sys2Proof.Machine

/-! ### The observation by the role (R97) -/

theorem exec_quiet (s : State) (r : WindowRef) (w : Window) (light : Bool) (hr : s.resetHeld = false)
    (ho : s.observable r = true) (hk : r.kind = .quiet) (hw : s.findWindow r = some w) :
    ∃ t, exec (.quietObservation r light) s = .next t ∧ Offered ((s.clearOutstanding r).quietTaken light) t := by
  refine ⟨((s.clearOutstanding r).quietTaken light).settle, ?_, settle_offered _⟩
  change execQuietObservation r light s = _
  unfold execQuietObservation
  rw [if_neg (by rw [hr]; decide), if_pos ⟨ho, hk⟩, hw]

theorem quietTaken_noRole (s : State) (light : Bool) (hrole : s.hu.role = .noRole) :
    s.quietTaken light = s.strayEntry light := by
  unfold State.quietTaken; rw [hrole]

theorem quietTaken_participant (s : State) (light : Bool) (hrole : s.hu.role = .participant) : s.quietTaken light = s := by
  unfold State.quietTaken; rw [hrole]

theorem quietTaken_owner (s : State) (o : OwnerPart) (light : Bool) (hrole : s.hu.role = .owner o) :
    s.quietTaken light = s.measure o light := by
  unfold State.quietTaken; rw [hrole]

/-! ### The owner's measurement (R117) -/

/-- Outside MEASURING the owner discards the observation. -/
theorem measure_discards (s : State) (o : OwnerPart) (light : Bool) (hphase : o.phase ≠ .measuring) :
    s.measure o light = s := if_neg fun h => hphase h.1

/-- One of the first three quiet windows is tallied and nothing more. -/
theorem measure_tallies (s : State) (o : OwnerPart) (light : Bool) (hphase : o.phase = .measuring) (htally : o.tally < 3) :
    s.measure o light = s.setOwner (o.tallied light) := by
  unfold State.measure Config.measureWindows
  rw [if_pos ⟨hphase, by omega⟩]
  refine if_pos ?_
  change o.tally + 1 < 4
  omega

/-! ### The stray history (R97 to R99) -/

/-- With this outcome the history holds S_thr or more LIGHT outcomes (R98). -/
def State.straysWith (s : State) (light : Bool) : Bool := s.img.sThr ≤ lightCount (enterOutcome s.lw.history light)

/-- The outcome is entered and the stray condition holds or not by the new history (R97, R98). -/
def State.outcomeEntered (s : State) (light : Bool) : State :=
  { s with lw := { s.lw with history := enterOutcome s.lw.history light, condition := s.straysWith light } }

/-- The outcome becomes a suspicion (R99). -/
def State.suspectsWith (s : State) (light : Bool) : Bool := s.straysWith light && s.img.autoHunt && s.operating

/-- Where S_thr LIGHT outcomes stand, the condition holds, STRAY_LIGHT is raised at its start, and the suspicion may go on. -/
theorem strayEntry_strays (s : State) (light : Bool) (hs : s.straysWith light = true) :
    s.strayEntry light = State.handOn (if s.lw.condition = true then s.outcomeEntered light
      else (s.outcomeEntered light).raiseAlarm { kind := .strayLight, handle := 0 }
        (.strayLight (lightCount (enterOutcome s.lw.history light)) s.img.sThr)) := by
  rw [State.outcomeEntered, hs]
  exact if_pos hs

/-- With fewer, the condition ends where it held. -/
theorem strayEntry_clears (s : State) (light : Bool) (hs : s.straysWith light = false) :
    s.strayEntry light = if s.lw.condition = true then
        (s.outcomeEntered light).endCondition { kind := .strayLight, handle := 0 }
      else s.outcomeEntered light := by
  rw [State.outcomeEntered, hs]
  refine (if_neg (Bool.eq_false_iff.1 hs)).trans ?_
  cases hc : s.lw.condition with
  | true => rfl
  | false => rw [if_neg (by decide), if_neg (by decide), ← hc]

/-- A suspicion goes on with auto-hunt set and the part OPERATING, which no report changes (R99). -/
theorem ReportsOnly.handOn {s u : State} {light : Bool} (hu : ReportsOnly (s.outcomeEntered light) u)
    (hs : s.straysWith light = true) : u.handOn = if s.suspectsWith light = true then u.suspect else u := by
  unfold State.handOn State.suspectsWith State.operating State.img
  simp only [hu.il, hs, Bool.true_and, Bool.and_eq_true]
  rfl

/-- The stray test of an outcome, said once: the history and the condition are written, no more than reports follow, and
a suspicion is handed on. At the start of the condition STRAY_LIGHT is raised. -/
theorem strayEntry_tested (s : State) (light : Bool) :
    ∃ u, ReportsOnly (s.outcomeEntered light) u ∧
      s.strayEntry light = (if s.suspectsWith light = true then u.suspect else u) ∧
      (s.straysWith light = true → s.lw.condition = false → s.img.alarmModes.strayLight ≠ .off →
        ∃ p ∈ u.places, p.1 = { kind := .strayLight, handle := 0 }) := by
  cases hs : s.straysWith light with
  | true =>
    rw [strayEntry_strays s light hs]
    cases s.lw.condition with
    | true => exact ⟨_, .refl _, (ReportsOnly.refl _).handOn hs, fun _ h => nomatch h⟩
    | false =>
      have honly := raiseAlarm_reportsOnly (s.outcomeEntered light) { kind := .strayLight, handle := 0 }
        (.strayLight (lightCount (enterOutcome s.lw.history light)) s.img.sThr)
      exact ⟨_, honly, honly.handOn hs, fun _ _ hmode => raiseAlarm_places _ _ _ hmode⟩
  | false =>
    have hnone : s.suspectsWith light = false := by rw [State.suspectsWith, hs, Bool.false_and, Bool.false_and]
    rw [strayEntry_clears s light hs, hnone]
    cases s.lw.condition with
    | true => exact ⟨_, endCondition_reportsOnly _ _, rfl, fun h => nomatch h⟩
    | false => exact ⟨_, .refl _, rfl, fun h => nomatch h⟩

/-- Settles O25: without a suspicion an outcome writes the history and the condition alone; a participant discards it, and
the owner tallies it or discards it by its phase. -/
theorem quietTaken : Obligations.QuietTaken := by
  unfold Obligations.QuietTaken
  refine ⟨fun s r w light hr ho hk hw => ?_, fun s r w light o hr ho hk hw hrole => ?_⟩
  · obtain ⟨t, hexec, hoff⟩ := exec_quiet s r w light hr ho hk hw
    refine ⟨t, hexec, fun hrole hauto => ?_, fun hrole => ?_⟩
    · obtain ⟨u, hu, hentry, hraised⟩ := strayEntry_tested (s.clearOutstanding r) light
      have hnone : (s.clearOutstanding r).suspectsWith light = false := by
        rw [State.suspectsWith, show (s.clearOutstanding r).img.autoHunt = false from hauto, Bool.and_false,
          Bool.false_and]
      rw [quietTaken_noRole (s.clearOutstanding r) light hrole, hentry, hnone, if_neg (by decide)] at hoff
      have hlw : t.lw = ((s.clearOutstanding r).outcomeEntered light).lw := hoff.lw.trans hu.lw
      refine ⟨congrArg LightWatch.history hlw, congrArg LightWatch.condition hlw, fun hcond hbefore hmode => ?_,
        hoff.hu.trans hu.hu, hoff.roster.trans hu.roster, hoff.um.trans hu.um, ?_⟩
      · have hstray : (s.clearOutstanding r).straysWith light = true := (congrArg LightWatch.condition hlw).symm.trans hcond
        obtain ⟨p, hp, hsource⟩ := hraised hstray hbefore hmode
        exact ⟨p, hoff.places.mem_iff.2 hp, hsource⟩
      · exact ((hu.homeStep 0).trans (hoff.homeStep 0)).2
    · rwa [quietTaken_participant (s.clearOutstanding r) light hrole] at hoff
  · obtain ⟨t, hexec, hoff⟩ := exec_quiet s r w light hr ho hk hw
    rw [quietTaken_owner (s.clearOutstanding r) o light hrole] at hoff
    refine ⟨t, hexec, fun hphase => ?_, fun hphase htally => ?_⟩
    · rwa [measure_discards _ o light hphase] at hoff
    · rwa [measure_tallies _ o light hphase htally] at hoff

end Sys2Proof.Machine
end

section
/-! PROOFS. The rogue hunt at this terminator (R105 to R111, R117 to R119): a hunt heard of, a suspicion and its re-test,
the end of a hunt, and the owner's fourth quiet window. Obligation O34. -/

namespace Sys2Proof.Machine

/-! ### Opening (R107, R110) -/

/-- The hunt id this station's next HUNT_OPEN carries (R107). -/
def State.nextHunt (s : State) : HuntId := { station := s.slp.station, count := s.hu.openCount }

/-- With no hunt at hand an OPERATING part offers HUNT_OPEN, and no other part does (R107). -/
theorem openHunt_operating (s : State) (hrole : s.hu.role = .noRole) (hflag : s.hu.flag = none)
    (hopening : s.hu.opening = false) :
    s.openHunt.hu = { s.hu with
        opening := s.operating, openCount := if s.operating = true then s.hu.openCount + 1 else s.hu.openCount } ∧
      s.openHunt.outgoing .hunt = s.outgoing .hunt ++ if s.operating = true then [.huntOpen s.nextHunt] else [] := by
  cases hop : s.operating with
  | true =>
    rw [openHunt_opens s hrole hflag hopening (of_decide_eq_true hop)]
    exact ⟨rfl, queueNotice_outgoing _ _ _⟩
  | false =>
    have hstays : s.openHunt = s := by
      unfold State.openHunt
      rw [hop]
      exact if_neg fun ⟨_, _, _, h⟩ => nomatch h
    rw [hstays, if_neg (by decide), if_neg (by decide), List.append_nil, ← hopening]
    exact ⟨rfl, rfl⟩

/-- While its own offer stands the part opens nothing further (R107). -/
theorem openHunt_standing (s : State) (hopening : s.hu.opening = true) : s.openHunt = s := by
  unfold State.openHunt
  rw [hopening]
  exact if_neg fun ⟨_, _, h, _⟩ => nomatch h

/-- A suspicion raised while a hunt runs is deferred and opens nothing (R107). -/
theorem suspect_defers (s : State) (h : s.hu.flag.isSome = true) :
    s.suspect = { s with hu := { s.hu with deferred := true } } := if_pos h

theorem suspect_opens (s : State) (h : s.hu.flag = none) : s.suspect = s.openHunt := by
  unfold State.suspect
  rw [h]
  exact if_neg (by decide)

/-- The suspicion is no longer deferred (R110). -/
def State.undeferred (s : State) : State := { s with hu := { s.hu with deferred := false } }

/-- A deferred suspicion taken up with the flag clear: HUNT_OPEN is offered by the history as it stands (R110). -/
theorem takeDeferred_retests (s : State) (hrole : s.hu.role = .noRole) (hflag : s.hu.flag = none)
    (hopening : s.hu.opening = false) (hdeferred : s.hu.deferred = true) :
    s.takeDeferred.hu = { s.hu with
        deferred := false, opening := s.retest && s.operating,
        openCount := if (s.retest && s.operating) = true then s.hu.openCount + 1 else s.hu.openCount } ∧
      s.takeDeferred.outgoing .hunt =
        s.outgoing .hunt ++ if (s.retest && s.operating) = true then [.huntOpen s.nextHunt] else [] := by
  have htaken : s.takeDeferred = if s.retest = true then s.undeferred.openHunt else s.undeferred := if_pos hdeferred
  rw [htaken]
  cases s.retest with
  | false =>
    have hstays : s.undeferred.hu = { s.hu with deferred := false, opening := false } :=
      congrArg (fun b => { s.hu with deferred := false, opening := b }) hopening
    rw [if_neg (by decide), Bool.false_and, if_neg (by decide), if_neg (by decide), List.append_nil]
    exact ⟨hstays, rfl⟩
  | true => exact openHunt_operating s.undeferred hrole hflag hopening

/-- Without a deferred suspicion nothing is taken up. -/
theorem takeDeferred_none (s : State) (h : s.hu.deferred = false) : s.takeDeferred = s := if_neg (by rw [h]; decide)

/-! ### A suspicion (R99, R107) -/

/-- A QUIET outcome at the role NONE becomes a suspicion or not, and a suspicion opens a hunt, waits, or finds its offer
standing. -/
theorem strayEntry_suspects (s : State) (light : Bool) (hrole : s.hu.role = .noRole) :
    (s.suspectsWith light = true → s.hu.flag = none → s.hu.opening = false →
      (s.strayEntry light).hu = { s.hu with opening := true, openCount := s.hu.openCount + 1 } ∧
      (s.strayEntry light).outgoing .hunt = s.outgoing .hunt ++ [.huntOpen s.nextHunt]) ∧
    (s.suspectsWith light = true → s.hu.flag.isSome = true →
      (s.strayEntry light).hu = { s.hu with deferred := true } ∧
      (s.strayEntry light).outgoing .hunt = s.outgoing .hunt) ∧
    (s.suspectsWith light = false ∨ (s.hu.flag = none ∧ s.hu.opening = true) →
      (s.strayEntry light).hu = s.hu ∧ (s.strayEntry light).outgoing .hunt = s.outgoing .hunt) := by
  obtain ⟨u, honly, hentry, -⟩ := strayEntry_tested s light
  have hhu : u.hu = s.hu := honly.hu
  have hout : u.outgoing .hunt = s.outgoing .hunt := honly.outgoing .hunt
  rw [hentry]
  refine ⟨fun hs hflag hopening => ?_, fun hs hflag => ?_, ?_⟩
  · have hop : u.operating = true := by
      rw [State.operating, honly.il]
      exact (Bool.and_eq_true_iff.1 hs).2
    have hnext : u.nextHunt = s.nextHunt := by
      obtain ⟨_, _, _, rfl⟩ := honly
      rfl
    have hopens := openHunt_operating u (hhu ▸ hrole) (hhu ▸ hflag) (hhu ▸ hopening)
    rw [hop, if_pos rfl, if_pos rfl, hout, hhu, hnext] at hopens
    rwa [if_pos hs, suspect_opens u (hhu ▸ hflag)]
  · rw [if_pos hs, suspect_defers u (hhu ▸ hflag), ← hhu]
    exact ⟨rfl, hout⟩
  · rintro (hs | ⟨hflag, hopening⟩)
    · rw [if_neg (by rw [hs]; decide)]
      exact ⟨hhu, hout⟩
    · rw [suspect_opens u (hhu ▸ hflag), openHunt_standing u (hhu ▸ hopening), ite_self]
      exact ⟨hhu, hout⟩

/-! ### Another station's HUNT_OPEN (R105, R108, R111) -/

/-- The notices as a hunt heard of leaves them: the own offer withdrawn where one stands (R108). -/
def State.yielded (s : State) : State := if s.hu.opening then s.withdraw isOpen else s

theorem lineHeard_yielded (s : State) (who : Producer) : s.lineHeard.yielded.outgoing who = s.yielded.outgoing who := by
  unfold State.yielded
  rw [lineHeard_hu]
  split <;> rfl

/-- What a hunt heard of with the flag clear does at every terminator: the flag and the guard are set, the own offer
yields to a deferred suspicion, and no home, account or capture changes (R105, R108). -/
structure HuntNoted (s : State) (id : HuntId) (v : State) : Prop where
  flag : v.hu.flag = some id
  guardTimer : v.hu.guardTimer = some 400
  opening : v.hu.opening = false
  deferred : v.hu.deferred = (s.hu.deferred || s.hu.opening)
  openCount : v.hu.openCount = s.hu.openCount
  history : v.lw.history = s.lw.history
  roster : v.roster = s.roster
  um : v.um = s.um
  ua : v.ua = s.ua
  ee : v.ee = s.ee
  noEvent : NoEvent s v

/-- The terminator has noted the hunt, and its part in hunts, its stray condition and its image are as they were. -/
structure HuntNotedOnly (s : State) (id : HuntId) (v : State) : Prop extends HuntNoted s id v where
  role : v.hu.role = s.hu.role
  frozen : v.hu.frozen = s.hu.frozen
  huntId : v.hu.huntId = s.hu.huntId
  condition : v.lw.condition = s.lw.condition
  il : v.il = s.il
  outgoing : v.outgoing .hunt = s.yielded.outgoing .hunt

theorem yieldOpening_notes (s : State) (id : HuntId) : HuntNotedOnly s id (s.setFlag id).yieldOpening := by
  cases ho : s.hu.opening with
  | true =>
    have hyielded : s.yielded = s.withdraw isOpen := if_pos ho
    have hyields : (s.setFlag id).yieldOpening = State.withdraw
        { s.setFlag id with hu := { (s.setFlag id).hu with opening := false, deferred := true } } isOpen := if_pos ho
    rw [hyields]
    refine { flag := rfl, guardTimer := rfl, opening := rfl, deferred := ?_, openCount := rfl, history := rfl, roster := rfl,
             um := rfl, ua := rfl, ee := rfl, noEvent := ⟨rfl, rfl⟩, role := rfl, frozen := rfl, huntId := rfl,
             condition := rfl, il := rfl, outgoing := ?_ }
    · rw [ho, Bool.or_true]; rfl
    · rw [hyielded]; rfl
  | false =>
    have hyielded : s.yielded = s := if_neg (by rw [ho]; decide)
    have hyields : (s.setFlag id).yieldOpening = s.setFlag id := if_neg (by rw [State.setFlag, ho]; decide)
    rw [hyields]
    refine { flag := rfl, guardTimer := rfl, opening := ho, deferred := ?_, openCount := rfl, history := rfl, roster := rfl,
             um := rfl, ua := rfl, ee := rfl, noEvent := ⟨rfl, rfl⟩, role := rfl, frozen := rfl, huntId := rfl,
             condition := rfl, il := rfl, outgoing := ?_ }
    · rw [ho, Bool.or_false]; rfl
    · rw [hyielded]; rfl

/-- The candidate list reads the roster alone. -/
theorem candidates_of_roster {s t : State} (h : t.roster = s.roster) : t.candidates = s.candidates := by
  unfold State.candidates
  simp only [entry_of_roster s t h]

theorem channel_of_il {s t : State} (h : t.il = s.il) : t.channel = s.channel := by
  unfold State.channel State.img
  rw [h]

/-- Joining queues HUNT_JOIN with the count of the frozen list (R111). -/
theorem join_outgoing (s : State) (id : HuntId) (role : Role) :
    (s.join id role).outgoing .hunt = s.outgoing .hunt ++ [.huntJoin id s.channel s.candidates.length] :=
  queueNotice_outgoing _ _ _

/-- A hunt that is joined is noted as well. -/
theorem HuntNoted.join {s v : State} {id : HuntId} (x : HuntNoted s id v) (role : Role) : HuntNoted s id (v.join id role) :=
  ⟨x.flag, x.guardTimer, x.opening, x.deferred, x.openCount, x.history, x.roster, x.um, x.ua, x.ee, x.noEvent⟩

theorem HuntNoted.offered {s v t : State} {id : HuntId} (x : HuntNoted s id v) (o : Offered v t) : HuntNoted s id t := by
  have hhu := o.hu
  have hlw := o.lw
  exact ⟨hhu ▸ x.flag, hhu ▸ x.guardTimer, hhu ▸ x.opening, hhu ▸ x.deferred, hhu ▸ x.openCount, hlw ▸ x.history,
    o.roster.trans x.roster, o.um.trans x.um, o.ua.trans x.ua, o.ee.trans x.ee,
    o.events.trans x.noEvent.1, o.dropped.trans x.noEvent.2⟩

theorem otherOpen_joins (s : State) (id : HuntId) (hrole : s.hu.role = .noRole) (hop : s.operating = true) :
    s.otherOpen id = (s.setFlag id).yieldOpening.join id .participant := if_pos ⟨hop, hrole⟩

theorem otherOpen_notes (s : State) (id : HuntId) (h : s.hu.role ≠ .noRole ∨ s.operating = false) :
    s.otherOpen id = (s.setFlag id).yieldOpening := by
  refine if_neg fun ⟨hop, hrole⟩ => ?_
  obtain h | h := h
  · exact h hrole
  · rw [hop] at h; cases h

theorem otherOpen_noted (s : State) (id : HuntId) : HuntNoted s id (s.otherOpen id) := by
  have hnoted := (yieldOpening_notes s id).toHuntNoted
  unfold State.otherOpen
  dsimp only
  split
  · exact hnoted.join _
  · exact hnoted

/-- Another station's HUNT_OPEN is acted on with the flag clear alone (R105). -/
theorem huntOpen_other (s : State) (st : Station) (id : HuntId) (hr : s.resetHeld = false) :
    ∃ t, exec (.huntOpen (.other st) id) s = .next t ∧
      Offered (if s.hu.flag.isSome = true then s.lineHeard else s.lineHeard.otherOpen id) t :=
  ⟨_, hearNotice_other st (.huntOpen id) (fun t => if t.hu.flag.isSome then t else t.otherOpen id) s hr, settle_offered _⟩

/-- A terminator that joins a hunt heard of: PARTICIPANT with the list of its homes frozen, its stray condition ended,
HUNT_JOIN behind the notices left (R111). -/
theorem otherOpen_joined (s : State) (id : HuntId) (hrole : s.hu.role = .noRole) (hop : s.operating = true) :
    (s.otherOpen id).hu.role = .participant ∧ (s.otherOpen id).hu.huntId = some id ∧
      (s.otherOpen id).hu.frozen = s.candidates ∧ (s.otherOpen id).lw.condition = false ∧
      (s.otherOpen id).outgoing .hunt =
        s.yielded.outgoing .hunt ++ [.huntJoin id s.channel s.candidates.length] := by
  have hnotes := yieldOpening_notes s id
  have hlist := candidates_of_roster hnotes.roster
  rw [otherOpen_joins s id hrole hop]
  refine ⟨rfl, rfl, hlist, rfl, ?_⟩
  rw [join_outgoing, hnotes.outgoing, hlist, channel_of_il hnotes.il]

/-! ### The end of a hunt (R106, R119, R120) -/

/-- The state out of its hunt, but for what becomes of the roster: the notices withdrawn, the record emptied (R106, R119). -/
def State.outOfHunt (s : State) (roster : Vector Entry 64) : State :=
  { s with
    roster := roster, slp := s.slp.withdraw fun n => n.producer = .hunt
    hu := { s.hu with role := .noRole, huntId := none, opening := false, frozen := [], awaiting := none } }

/-- Leaving a hunt writes the roster, the notices and the hunt record alone. -/
theorem leaveHunt_writes (s : State) : ∃ roster, s.leaveHunt = s.outOfHunt roster := by
  refine ⟨s.clearHunt.roster, ?_⟩
  unfold State.leaveHunt State.outOfHunt State.withdraw State.clearHunt
  dsimp only

/-- Leaving a hunt clears HUNT from every entry (R106, R119). -/
theorem leaveHunt_entry (s : State) (h : Nat) :
    s.leaveHunt.entry h = { s.entry h with holds := { (s.entry h).holds with hunt := false } } := by
  have hroster : s.leaveHunt.roster = s.clearHunt.roster := by
    unfold State.leaveHunt State.withdraw
    dsimp only
  rw [entry_of_roster s.clearHunt s.leaveHunt hroster]
  unfold State.clearHunt
  rw [entry_tableMap s (fun _ e => { e with holds := { e.holds with hunt := false } }) fun _ => rfl]

/-- Leaving a hunt withdraws every hunt notice (R106, R119, R177). -/
theorem leaveHunt_outgoing (s : State) (ht : s.slp.transmitting ≠ some .notice) : s.leaveHunt.outgoing .hunt = [] := by
  have hwithdrawn : s.leaveHunt.outgoing .hunt = (s.withdraw fun n => n.producer = .hunt).outgoing .hunt := by
    obtain ⟨roster, hleft⟩ := leaveHunt_writes s
    rw [hleft]
    rfl
  rw [hwithdrawn, withdraw_outgoing_idle s _ ht, List.filter_eq_nil_iff]
  intro n hn
  rw [producer_of_outgoing hn]
  decide

/-- The state whose hunt notices are those the end of a hunt leaves: a participant's are withdrawn (R106, R119). -/
def State.huntDropped (s : State) : State :=
  if s.hu.role = .participant then s.withdraw fun n => n.producer = .hunt else s

/-- `v` is `s` with its hunt ended at a terminator that does not own it, as far as the re-test reads (R106, R110). -/
structure HuntLeft (s v : State) : Prop where
  flag : v.hu.flag = none
  role : v.hu.role = .noRole
  opening : v.hu.opening = false
  deferred : v.hu.deferred = s.hu.deferred
  openCount : v.hu.openCount = s.hu.openCount
  lw : v.lw = s.lw
  il : v.il = s.il
  station : v.slp.station = s.slp.station
  outgoing : v.outgoing .hunt = s.huntDropped.outgoing .hunt

theorem endHunt_leaves (s : State) (outcome : HuntOutcome) (hrole : s.hu.role.isOwner = false)
    (hopening : s.hu.opening = false) : HuntLeft s (s.clearFlag.endHunt outcome) := by
  unfold State.endHunt
  cases hr : s.hu.role with
  | noRole =>
    have hdropped : s.huntDropped = s := if_neg (by rw [hr]; decide)
    rw [show s.clearFlag.hu.role = .noRole from hr]
    exact ⟨rfl, hr, hopening, rfl, rfl, rfl, rfl, rfl, by rw [hdropped]; rfl⟩
  | participant =>
    have hdropped : s.huntDropped = s.withdraw fun n => n.producer = .hunt := if_pos hr
    obtain ⟨roster, hleft⟩ := leaveHunt_writes s.clearFlag
    rw [show s.clearFlag.hu.role = .participant from hr]
    dsimp only
    rw [hleft]
    exact ⟨rfl, rfl, rfl, rfl, rfl, rfl, rfl, rfl, by rw [hdropped]; rfl⟩
  | owner o => rw [hr] at hrole; cases hrole

/-- A FOUND close writes the roster and raises an alarm at most (R120). -/
theorem takeFound_reportsOnly (s : State) (id : HuntId) (outcome : HuntOutcome) :
    ∃ roster, ReportsOnly { s with roster := roster } (s.takeFound id outcome) := by
  unfold State.takeFound
  split
  · split
    · unfold State.foundHere
      dsimp only
      split
      · exact ⟨_, raiseAlarm_reportsOnly _ _ _⟩
      · exact ⟨s.roster, raiseAlarm_reportsOnly _ _ _⟩
    · exact ⟨s.roster, .refl s⟩
  · exact ⟨s.roster, .refl s⟩
  · exact ⟨s.roster, .refl s⟩
  · exact ⟨s.roster, .refl s⟩

theorem HuntLeft.found {s v : State} (x : HuntLeft s v) (id : HuntId) (outcome : HuntOutcome) :
    HuntLeft s (v.takeFound id outcome) := by
  obtain ⟨roster, slot, places, repeats, hv⟩ := takeFound_reportsOnly v id outcome
  rw [hv]
  exact ⟨x.flag, x.role, x.opening, x.deferred, x.openCount, x.lw, x.il, x.station, x.outgoing⟩

/-- The hunt has ended here and the deferred suspicion was taken up: HUNT_OPEN is offered where the history of `s` still
holds S_thr LIGHT outcomes and the part is OPERATING (R110). -/
def Retested (s t : State) : Prop :=
  let again : Bool := s.img.sThr ≤ lightCount s.lw.history && s.operating
  t.hu.flag = none ∧ t.hu.role = .noRole ∧ t.hu.deferred = false ∧ t.hu.opening = again ∧
    t.lw.history = s.lw.history ∧
    t.outgoing .hunt = s.huntDropped.outgoing .hunt ++
      (if again then [.huntOpen { station := s.slp.station, count := s.hu.openCount }] else []) ∧
    t.hu.openCount = (if again then s.hu.openCount + 1 else s.hu.openCount)

theorem HuntLeft.retested {s v t : State} (x : HuntLeft s v) (hdeferred : s.hu.deferred = true)
    (o : Offered v.takeDeferred t) : Retested s t := by
  obtain ⟨hhu, hout⟩ := takeDeferred_retests v x.role x.flag x.opening (x.deferred.trans hdeferred)
  have hagain : (v.retest && v.operating) = (decide (s.img.sThr ≤ lightCount s.lw.history) && s.operating) := by
    unfold State.retest State.operating State.img
    rw [x.lw, x.il]
  have hnext : v.nextHunt = { station := s.slp.station, count := s.hu.openCount } := by
    rw [State.nextHunt, x.station, x.openCount]
  rw [hagain, x.openCount] at hhu
  rw [hagain, x.outgoing, hnext] at hout
  have ht := o.hu.trans hhu
  have hlw : t.lw = s.lw := o.lw.trans ((takeDeferred_lw v).trans x.lw)
  unfold Retested
  rw [ht, hlw]
  exact ⟨x.flag, x.role, rfl, rfl, rfl, (o.notices .hunt).trans hout, rfl⟩

/-- A close of the flag's hunt clears the flag, ends the hunt here, brings what was found, and re-tests (R110, R119, R120). -/
theorem closeHeard_flagged (s : State) (id : HuntId) (outcome : HuntOutcome) (hflag : s.hu.flag = some id) :
    s.closeHeard id outcome = ((s.clearFlag.endHunt outcome).takeFound id outcome).takeDeferred := by
  unfold State.closeHeard
  rw [hflag]
  exact if_pos rfl

theorem huntClose_other (s : State) (st : Station) (id : HuntId) (outcome : HuntOutcome) (hr : s.resetHeld = false) :
    ∃ t, exec (.huntClose (.other st) id outcome) s = .next t ∧ Offered (s.lineHeard.closeHeard id outcome) t :=
  ⟨_, hearNotice_other st (.huntClose id outcome) (fun t => t.closeHeard id outcome) s hr, settle_offered _⟩

/-- The guard's expiry ends the flag's hunt as ABANDONED (R106). -/
theorem guardExpiry_ends (s : State) (id : HuntId) (n : Nat) (hr : s.resetHeld = false) (hflag : s.hu.flag = some id)
    (hguard : s.hu.guardTimer = some n) (hn : n ≤ 1) :
    ∃ t, exec .guardExpiry s = .next t ∧ Offered (s.clearFlag.endHunt .abandoned).takeDeferred t := by
  refine ⟨_, ?_, settle_offered _⟩
  change execGuardExpiry s = _
  unfold execGuardExpiry
  rw [if_neg (by rw [hr]; decide), hflag, hguard, if_pos ⟨rfl, decide_eq_true hn⟩]

/-! ### The own close (R119) -/

theorem huntClose_own (s : State) (id : HuntId) (outcome : HuntOutcome) (hr : s.resetHeld = false)
    (ht : s.transmits (.huntClose id outcome)) :
    ∃ t, exec (.huntClose .own id outcome) s = .next t ∧ Offered (s.noticeCarried.closeHeard id outcome) t :=
  ⟨_, hearNotice_own (.huntClose id outcome) (fun t => t.closeHeard id outcome) s hr ht.sending, settle_offered _⟩

/-- After an own carriage nothing is in transmission (R174). -/
theorem noticeCarried_transmitting (s : State) : s.noticeCarried.slp.transmitting = none := by
  unfold State.noticeCarried State.ownCarried
  dsimp only
  split
  · rfl
  · rw [pushEvent_slp]

theorem takeFound_unfound (s : State) (id : HuntId) (outcome : HuntOutcome) (h : ∀ c r, outcome ≠ .found c r) :
    s.takeFound id outcome = s := by
  cases outcome with
  | found c r => exact absurd rfl (h c r)
  | notFound => rfl
  | inconclusive => rfl
  | abandoned => rfl

/-- The owner's hunt ends: it leaves the hunt, raises HUNT_ENDED and empties its history (R119). -/
def State.huntEnded (s : State) (outcome : HuntOutcome) (o : OwnerPart) : State :=
  (s.leaveHunt.raiseAlarm { kind := .huntEnded, handle := 0 }
    (.huntEnded s.hu.huntId outcome o.stepsCarried)).emptyHistory

theorem endHunt_owner (s : State) (outcome : HuntOutcome) (o : OwnerPart) (hrole : s.hu.role = .owner o) :
    s.endHunt outcome = s.huntEnded outcome o := by
  unfold State.endHunt
  rw [hrole]
  rfl

/-- HUNT_ENDED stands as the owner's hunt ends (R119, R182). -/
theorem huntEnded_alarmed (s : State) (outcome : HuntOutcome) (o : OwnerPart) :
    Alarmed s (s.huntEnded outcome o) { kind := .huntEnded, handle := 0 }
      (.huntEnded s.hu.huntId outcome o.stepsCarried) := by
  obtain ⟨roster, hleft⟩ := leaveHunt_writes s
  have hraised := raiseAlarm_alarmed s.leaveHunt { kind := .huntEnded, handle := 0 }
    (.huntEnded s.hu.huntId outcome o.stepsCarried)
  have hsame := hraised.of_same (s' := s) (by rw [hleft]; rfl) (by rw [hleft]; rfl) (by rw [hleft]; rfl)
  exact hsame.mono (fun _ hx => hx) fun _ hf => hf

/-- Out of its hunt with an empty history, the owner changes in its reports alone (R100, R119). -/
theorem huntEnded_reports (s : State) (outcome : HuntOutcome) (o : OwnerPart) : ∃ roster,
    ReportsOnly { s.outOfHunt roster with lw := { s.lw with history := [], condition := false } }
      (s.huntEnded outcome o) := by
  obtain ⟨roster, hleft⟩ := leaveHunt_writes s
  obtain ⟨slot, places, repeats, hraised⟩ := raiseAlarm_reportsOnly (s.outOfHunt roster) { kind := .huntEnded, handle := 0 }
    (.huntEnded s.hu.huntId outcome o.stepsCarried)
  refine ⟨roster, ?_⟩
  unfold State.huntEnded
  rw [hleft, hraised]
  exact ⟨_, _, _, rfl⟩

theorem huntEnded_entry (s : State) (outcome : HuntOutcome) (o : OwnerPart) (h : Nat) :
    (s.huntEnded outcome o).entry h = { s.entry h with holds := { (s.entry h).holds with hunt := false } } := by
  have hroster : (s.huntEnded outcome o).roster = s.leaveHunt.roster := by
    unfold State.huntEnded
    rw [emptyHistory_roster, (raiseAlarm_reportsOnly _ _ _).roster]
  rw [entry_of_roster _ _ hroster, leaveHunt_entry]

theorem huntEnded_outgoing (s : State) (outcome : HuntOutcome) (o : OwnerPart) (ht : s.slp.transmitting ≠ some .notice) :
    (s.huntEnded outcome o).outgoing .hunt = [] := by
  have hraised := (raiseAlarm_reportsOnly s.leaveHunt { kind := .huntEnded, handle := 0 }
    (.huntEnded s.hu.huntId outcome o.stepsCarried)).outgoing .hunt
  exact (outgoing_of_slp (emptyHistory_slp _) .hunt).trans (hraised.trans (leaveHunt_outgoing s ht))

/-- The own close that finds nothing, with no suspicion deferred, ends the hunt and no more. -/
theorem closeHeard_own (s : State) (id : HuntId) (outcome : HuntOutcome) (o : OwnerPart) (hflag : s.hu.flag = some id)
    (hrole : s.hu.role = .owner o) (hdeferred : s.hu.deferred = false) (hunfound : ∀ c r, outcome ≠ .found c r) :
    s.closeHeard id outcome = s.clearFlag.huntEnded outcome o := by
  rw [closeHeard_flagged s id outcome hflag, endHunt_owner s.clearFlag outcome o hrole, takeFound_unfound _ _ _ hunfound]
  refine takeDeferred_none _ ?_
  obtain ⟨roster, hreports⟩ := huntEnded_reports s.clearFlag outcome o
  rw [hreports.hu]
  exact hdeferred

/-! ### The fourth quiet window (R117, R118) -/

/-- The measurement is complete: its fourth window counted, with this light seen in any of the four (R117). -/
def OwnerPart.measured (o : OwnerPart) (present : Bool) : OwnerPart := { o with tally := 4, lightSeen := present }

theorem tallied_fourth (o : OwnerPart) (light : Bool) (htally : o.tally = 3) :
    o.tallied light = o.measured (o.lightSeen || light) := by
  rw [OwnerPart.tallied, htally]
  rfl

/-- In DRAINING the fourth window is counted and nothing decided (R122; log entry 21). -/
theorem measure_draining (s : State) (o : OwnerPart) (light : Bool) (hphase : o.phase = .measuring) (htally : o.tally = 3)
    (hd : s.draining = true) : s.measure o light = s.setOwner (o.measured (o.lightSeen || light)) := by
  unfold State.measure Config.measureWindows
  rw [if_pos ⟨hphase, by omega⟩, tallied_fourth o light htally]
  exact (if_neg (Nat.lt_irrefl 4)).trans (if_pos hd)

/-- Otherwise the owner acts on its decision (R118). -/
theorem measure_acts (s : State) (o : OwnerPart) (light : Bool) (id : HuntId) (hphase : o.phase = .measuring)
    (htally : o.tally = 3) (hd : s.draining = false) (hid : s.hu.huntId = some id) :
    s.measure o light = s.actOn id (o.measured (o.lightSeen || light)) (o.decide (o.lightSeen || light)) := by
  unfold State.measure Config.measureWindows
  rw [if_pos ⟨hphase, by omega⟩, tallied_fourth o light htally, hid]
  exact (if_neg (Nat.lt_irrefl 4)).trans (if_neg (by rw [hd]; decide))

/-! ### O34 -/

/-- HUNT_OPEN heard from another station (R105, R108, R111). -/
theorem huntOpen_heard (s : State) (st : Station) (id : HuntId) (hr : s.resetHeld = false) :
    ∃ t, exec (.huntOpen (.other st) id) s = .next t ∧ (s.hu.flag.isSome = true → Offered s.lineHeard t) ∧
      (s.hu.flag = none → HuntNoted s id t ∧
        (s.hu.role = .noRole → s.operating = true →
          t.hu.role = .participant ∧ t.hu.huntId = some id ∧ t.hu.frozen = s.candidates ∧ t.lw.condition = false ∧
          t.outgoing .hunt = s.yielded.outgoing .hunt ++ [.huntJoin id s.channel s.candidates.length]) ∧
        (s.hu.role ≠ .noRole ∨ s.operating = false →
          t.hu.role = s.hu.role ∧ t.hu.frozen = s.hu.frozen ∧ t.hu.huntId = s.hu.huntId ∧
          t.lw.condition = s.lw.condition ∧ t.outgoing .hunt = s.yielded.outgoing .hunt)) := by
  obtain ⟨t, hexec, hoff⟩ := huntOpen_other s st id hr
  refine ⟨t, hexec, fun hflag => ?_, fun hflag => ?_⟩
  · rwa [if_pos hflag] at hoff
  · rw [hflag, if_neg (by decide)] at hoff
    have hnoted := (otherOpen_noted s.lineHeard id).offered hoff
    refine ⟨⟨hnoted.flag, hnoted.guardTimer, hnoted.opening, hnoted.deferred, hnoted.openCount, hnoted.history,
      hnoted.roster, hnoted.um, hnoted.ua, hnoted.ee, hnoted.noEvent⟩, fun hrole hop => ?_, fun hstays => ?_⟩
    · obtain ⟨hpart, hid, hlist, hcond, hout⟩ := otherOpen_joined s.lineHeard id hrole hop
      rw [lineHeard_yielded] at hout
      rw [hoff.hu, hoff.lw]
      exact ⟨hpart, hid, hlist, hcond, (hoff.notices .hunt).trans hout⟩
    · rw [otherOpen_notes s.lineHeard id hstays] at hoff
      have hnotes := yieldOpening_notes s.lineHeard id
      rw [hoff.hu, hoff.lw]
      exact ⟨hnotes.role, hnotes.frozen, hnotes.huntId, hnotes.condition,
        (hoff.notices .hunt).trans (hnotes.outgoing.trans (lineHeard_yielded s .hunt))⟩

/-- The own close that found nothing, at its owner (R119). -/
theorem ownClose_ends (s : State) (id : HuntId) (outcome : HuntOutcome) (o : OwnerPart) (hr : s.resetHeld = false)
    (ht : s.transmits (.huntClose id outcome)) (hflag : s.hu.flag = some id) (hrole : s.hu.role = .owner o)
    (hdeferred : s.hu.deferred = false) (hunfound : ∀ c r, outcome ≠ .found c r) :
    ∃ t, exec (.huntClose .own id outcome) s = .next t ∧ t.hu.flag = none ∧ t.hu.role = .noRole ∧ t.hu.frozen = [] ∧
      t.hu.awaiting = none ∧ t.outgoing .hunt = [] ∧ t.lw.history = [] ∧ t.lw.condition = false ∧
      (∀ h, t.entry h = { s.entry h with holds := { (s.entry h).holds with hunt := false } }) ∧
      Alarmed s t { kind := .huntEnded, handle := 0 } (.huntEnded s.hu.huntId outcome o.stepsCarried) ∧
      NoEvent s.noticeCarried t ∧ t.um = s.um ∧ t.ua = s.ua ∧ t.ee = s.ee := by
  obtain ⟨t, hexec, hoff⟩ := huntClose_own s id outcome hr ht
  have hcarried := noticeCarried_noticesOnly s
  have hhu := hcarried.hu
  rw [closeHeard_own s.noticeCarried id outcome o (hhu ▸ hflag) (hhu ▸ hrole) (hhu ▸ hdeferred) hunfound] at hoff
  obtain ⟨roster, hends⟩ := huntEnded_reports s.noticeCarried.clearFlag outcome o
  have halarm := huntEnded_alarmed s.noticeCarried.clearFlag outcome o
  have hidle : s.noticeCarried.slp.transmitting ≠ some .notice := by
    rw [noticeCarried_transmitting]
    decide
  have hsame : Alarmed s.noticeCarried t { kind := .huntEnded, handle := 0 }
      (.huntEnded s.noticeCarried.hu.huntId outcome o.stepsCarried) := (halarm.offered hoff).of_same rfl rfl rfl
  rw [hhu] at hsame
  have hthu := hoff.hu.trans hends.hu
  have htlw := hoff.lw.trans hends.lw
  refine ⟨t, hexec, by rw [hthu]; rfl, by rw [hthu]; rfl, by rw [hthu]; rfl, by rw [hthu]; rfl, ?_, by rw [htlw],
    by rw [htlw], fun h => ?_, hsame.noticesBefore hcarried, ?_, ?_, ?_, ?_⟩
  · exact (hoff.notices .hunt).trans (huntEnded_outgoing s.noticeCarried.clearFlag outcome o hidle)
  · rw [hoff.entry h, huntEnded_entry]
    exact congrArg (fun e : Entry => { e with holds := { e.holds with hunt := false } }) (hcarried.entry h)
  · exact ((hends.homeStep 0).trans (hoff.homeStep 0)).2
  · exact hoff.um.trans (hends.um.trans hcarried.um)
  · exact hoff.ua.trans (hends.ua.trans hcarried.ua)
  · obtain ⟨_, _, _, hended⟩ := hends
    rw [hoff.ee, hended]
    simp [State.noticeCarried, State.outOfHunt]

/-- A deferred suspicion is re-tested when the flag clears, by a close or by the guard (R106, R110). -/
theorem deferred_retested (s : State) (st : Station) (id : HuntId) (outcome : HuntOutcome) (hr : s.resetHeld = false)
    (hflag : s.hu.flag = some id) (hrole : s.hu.role.isOwner = false) (hopening : s.hu.opening = false)
    (hdeferred : s.hu.deferred = true) :
    (∃ t, exec (.huntClose (.other st) id outcome) s = .next t ∧ Retested s t) ∧
      ∀ n, s.hu.guardTimer = some n → n ≤ 1 → ∃ t, exec .guardExpiry s = .next t ∧ Retested s t := by
  refine ⟨?_, fun n hguard hn => ?_⟩
  · obtain ⟨t, hexec, hoff⟩ := huntClose_other s st id outcome hr
    rw [closeHeard_flagged s.lineHeard id outcome hflag] at hoff
    have hleft := endHunt_leaves s.lineHeard outcome hrole hopening
    have hdropped : s.lineHeard.huntDropped.outgoing .hunt = s.huntDropped.outgoing .hunt := by
      unfold State.huntDropped
      rw [lineHeard_hu]
      split <;> rfl
    have hfound : HuntLeft s (s.lineHeard.clearFlag.endHunt outcome) :=
      ⟨hleft.flag, hleft.role, hleft.opening, hleft.deferred, hleft.openCount, hleft.lw, hleft.il, hleft.station,
        hleft.outgoing.trans hdropped⟩
    exact ⟨t, hexec, (hfound.found id outcome).retested hdeferred hoff⟩
  · obtain ⟨t, hexec, hoff⟩ := guardExpiry_ends s id n hr hflag hguard hn
    exact ⟨t, hexec, (endHunt_leaves s .abandoned hrole hopening).retested hdeferred hoff⟩

/-- Settles O34: each event by the reads it makes of the hunt record; the owner's fourth window by its decision. -/
theorem huntOpenHeard : Obligations.HuntOpenHeard := by
  unfold Obligations.HuntOpenHeard
  refine ⟨fun s st id hr => ?_, fun s r w light hr ho hk hw hrole => ?_, deferred_retested, ownClose_ends,
    fun s r w light o id hr ho hk hw hrole hid hphase htally => ?_⟩
  · obtain ⟨t, hexec, hignored, hheard⟩ := huntOpen_heard s st id hr
    refine ⟨t, hexec, hignored, fun hflag => ?_⟩
    obtain ⟨hnoted, hjoins, hstays⟩ := hheard hflag
    exact ⟨hnoted.flag, hnoted.guardTimer, hnoted.opening, hnoted.deferred, hnoted.openCount, hnoted.history,
      hnoted.roster, hnoted.um, hnoted.ua, hnoted.ee, hnoted.noEvent, hjoins, hstays⟩
  · obtain ⟨t, hexec, hoff⟩ := exec_quiet s r w light hr ho hk hw
    rw [quietTaken_noRole (s.clearOutstanding r) light hrole] at hoff
    have hsuspects := strayEntry_suspects (s.clearOutstanding r) light hrole
    rw [← hoff.hu, ← hoff.notices .hunt] at hsuspects
    exact ⟨t, hexec, hsuspects⟩
  · obtain ⟨t, hexec, hoff⟩ := exec_quiet s r w light hr ho hk hw
    rw [quietTaken_owner (s.clearOutstanding r) o light hrole] at hoff
    refine ⟨t, hexec, fun hd => ?_, fun hd => ?_⟩
    · rwa [measure_draining (s.clearOutstanding r) o light hphase htally hd] at hoff
    · rw [measure_acts (s.clearOutstanding r) o light id hphase htally hd hid] at hoff
      refine ⟨fun sel hdec => ?_, fun c l j sel hdec => ?_, fun outcome hdec => ?_⟩ <;>
        · rw [hdec] at hoff
          exact hoff

end Sys2Proof.Machine
end

section
/-! PROOFS. The hunt record through a step: what keeps it together, the dead marks of a step that frees homes, and the
moves that keep both (R103 to R106). -/

namespace Sys2Proof.Machine

/-! ### The law of the hunt record (R103 to R106) -/

/-- A frozen list is ascending, without duplicates, at most 64 long, and names handles of the roster (R104, R111). -/
def CandidateList (ps : List Position) : Prop :=
  (ps.map fun p => p.home.handle).Pairwise (· < ·) ∧ ps.length ≤ 64 ∧ ∀ p ∈ ps, 1 ≤ p.home.handle ∧ p.home.handle ≤ 64

/-- The clauses of `HuntInv`. -/
structure HuntLaw (s : State) : Prop where
  idle : s.hu.role = .noRole →
    (∀ h, (s.entry h).holds.hunt = false) ∧ s.hu.frozen = [] ∧ s.hu.awaiting = none ∧ s.hu.huntId = none
  taken : s.hu.role ≠ .noRole → s.hu.flag.isSome = true ∧ s.hu.huntId = s.hu.flag
  guard : s.hu.guardTimer.isSome = s.hu.flag.isSome
  list : CandidateList s.hu.frozen

theorem huntInv_iff (s : State) : HuntInv s ↔ HuntLaw s := by
  constructor
  · rintro ⟨hidle, htaken, hguard, hascending, hlength, hrange⟩
    exact ⟨hidle, htaken, hguard, hascending, hlength, hrange⟩
  · rintro ⟨hidle, htaken, hguard, hascending, hlength, hrange⟩
    exact ⟨hidle, htaken, hguard, hascending, hlength, hrange⟩

theorem candidateList_nil : CandidateList [] := ⟨.nil, Nat.zero_le _, fun _ h => nomatch h⟩

/-- The law of the list reads its handles alone. -/
theorem CandidateList.congr {ps qs : List Position} (x : CandidateList ps)
    (h : qs.map (fun p => p.home.handle) = ps.map fun p => p.home.handle) : CandidateList qs := by
  obtain ⟨hascending, hlength, hrange⟩ := x
  have hlen := congrArg List.length h
  rw [List.length_map, List.length_map] at hlen
  refine ⟨by rwa [h], hlen ▸ hlength, fun p hp => ?_⟩
  have hmem : p.home.handle ∈ qs.map fun p => p.home.handle := List.mem_map.2 ⟨p, hp, rfl⟩
  rw [h] at hmem
  obtain ⟨q, hq, hhandle⟩ := List.mem_map.1 hmem
  rw [← hhandle]
  exact hrange q hq

/-- The list frozen at a join is a candidate list (R104, R111). -/
theorem candidates_list (s : State) : CandidateList s.candidates := by
  have hhandles : s.candidates.map (fun p => p.home.handle) = handles.filter fun h => (s.entry h).state.frozen := by
    unfold State.candidates
    rw [List.map_map]
    exact List.map_id _
  have hascending : handles.Pairwise (· < ·) := List.pairwise_lt_range'
  refine ⟨by rw [hhandles]; exact hascending.filter _, ?_, fun p hp => ?_⟩
  · unfold State.candidates
    rw [List.length_map]
    exact List.length_filter_le _ _
  · have hmem : p.home.handle ∈ s.candidates.map fun p => p.home.handle := List.mem_map.2 ⟨p, hp, rfl⟩
    rw [hhandles] at hmem
    exact (mem_handles _).1 (List.mem_of_mem_filter hmem)

/-! ### The dead marks (R104) -/

/-- The list with every position dead whose handle is one of these (R104). -/
def withDead (freed : List Nat) (ps : List Position) : List Position :=
  ps.map fun p => { p with dead := p.dead || freed.contains p.home.handle }

theorem withDead_nil (ps : List Position) : withDead [] ps = ps := by
  unfold withDead
  simp

theorem withDead_withDead (freed more : List Nat) (ps : List Position) :
    withDead more (withDead freed ps) = withDead (freed ++ more) ps := by
  unfold withDead
  simp [Bool.or_assoc]

theorem withDead_handles (freed : List Nat) (ps : List Position) :
    (withDead freed ps).map (fun p => p.home.handle) = ps.map fun p => p.home.handle := by
  unfold withDead
  rw [List.map_map]
  rfl

/-- From s to t the list gains the dead marks of exactly the homes that are freed. -/
structure Marks (freed : List Nat) (s t : State) : Prop where
  list : t.hu.frozen = withDead freed s.hu.frozen
  free : ∀ h ∈ freed, (t.entry h).state = .free
  named : ∀ h, (s.entry h).state ≠ .free → (t.entry h).state = .free → h ∈ freed

/-- No home is freed and the list stands. -/
theorem marks_none {s t : State} (hf : t.hu.frozen = s.hu.frozen)
    (held : ∀ h, (s.entry h).state ≠ .free → (t.entry h).state ≠ .free) : Marks [] s t :=
  ⟨by rw [withDead_nil, hf], fun _ h => (nomatch h), fun h hl he => absurd he (held h hl)⟩

/-- Homes freed one after the other, where none is taken in between. -/
theorem Marks.trans {s t u : State} {freed more : List Nat} (a : Marks freed s t) (b : Marks more t u)
    (stays : ∀ h, (t.entry h).state = .free → (u.entry h).state = .free) : Marks (freed ++ more) s u := by
  refine ⟨by rw [b.list, a.list, withDead_withDead], fun h hm => ?_, fun h hl he => List.mem_append.2 ?_⟩
  · rcases List.mem_append.1 hm with hm | hm
    · exact stays h (a.free h hm)
    · exact b.free h hm
  · by_cases hmid : (t.entry h).state = .free
    · exact .inl (a.named h hl hmid)
    · exact .inr (b.named h hmid he)

/-! ### What a step keeps of the hunt -/

/-- From s to t the law of the hunt record is kept, and from join to close the list gains the marks of the freed homes. -/
structure HuntStands (s t : State) : Prop where
  law : HuntLaw s → HuntLaw t
  list : s.hu.role ≠ .noRole → t.hu.role ≠ .noRole → ∃ freed, Marks freed s t

/-- An operation that joins no hunt and takes in no home keeps the law, and as long as the hunt lasts its dead marks. -/
structure HuntSteady (s t : State) : Prop where
  law : HuntLaw s → HuntLaw t
  role : s.hu.role = .noRole → t.hu.role = .noRole
  free : ∀ h, (s.entry h).state = .free → (t.entry h).state = .free
  list : t.hu.role ≠ .noRole → ∃ freed, Marks freed s t

/-- Neither the roster nor the hunt record is written. -/
structure HuntUnread (s t : State) : Prop where
  roster : t.roster = s.roster
  hu : t.hu = s.hu

/-- As far as the hunt reads it the entry is the same: FREE or not, and under HUNT or not. -/
structure Entry.HuntSame (e e' : Entry) : Prop where
  state : e'.state = .free ↔ e.state = .free
  hunt : e'.holds.hunt = e.holds.hunt

theorem Entry.HuntSame.refl (e : Entry) : e.HuntSame e := ⟨Iff.rfl, rfl⟩

theorem Entry.HuntSame.trans {e f g : Entry} (a : e.HuntSame f) (b : f.HuntSame g) : e.HuntSame g :=
  ⟨b.state.trans a.state, b.hunt.trans a.hunt⟩

/-- An entry that is not FREE turns into another state that is not, under the same HUNT. -/
theorem Entry.HuntSame.of_held {e e' : Entry} (h : e.state ≠ .free) (h' : e'.state ≠ .free)
    (hh : e'.holds.hunt = e.holds.hunt) : e.HuntSame e' := ⟨⟨fun x => absurd x h', fun x => absurd x h⟩, hh⟩

section HuntSteady
variable {s t u v : State}

theorem HuntSteady.refl (s : State) : HuntSteady s s :=
  ⟨fun h => h, fun h => h, fun _ h => h, fun _ => ⟨[], marks_none rfl fun _ h => h⟩⟩

theorem HuntSteady.trans (a : HuntSteady s t) (b : HuntSteady t u) : HuntSteady s u := by
  refine ⟨fun h => b.law (a.law h), fun h => b.role (a.role h), fun h hf => b.free h (a.free h hf), fun hu => ?_⟩
  obtain ⟨more, hmore⟩ := b.list hu
  obtain ⟨freed, hfreed⟩ := a.list fun ht => hu (b.role ht)
  exact ⟨freed ++ more, hfreed.trans hmore b.free⟩

theorem HuntSteady.ite {c : Prop} [Decidable c] (a : c → HuntSteady s t) (b : ¬c → HuntSteady s u) :
    HuntSteady s (if c then t else u) := by
  split
  next h => exact a h
  next h => exact b h

theorem HuntSteady.foldl {α : Type} (f : State → α → State) (hf : ∀ s a, HuntSteady s (f s a)) (s : State) (xs : List α) :
    HuntSteady s (xs.foldl f s) := by
  induction xs generalizing s with
  | nil => exact .refl s
  | cons x xs ih => exact (hf s x).trans (ih (f s x))

theorem HuntSteady.stands (x : HuntSteady s t) : HuntStands s t := ⟨x.law, fun _ => x.list⟩

/-- The entries are the same as far as the hunt reads them; the record keeps its flag and its list, and in no role is one
taken or a map awaited. -/
theorem hunt_of_record (he : ∀ k, (s.entry k).HuntSame (t.entry k)) (hrole : t.hu.role = .noRole ↔ s.hu.role = .noRole)
    (hflag : t.hu.flag = s.hu.flag) (hid : t.hu.huntId = s.hu.huntId) (hfrozen : t.hu.frozen = s.hu.frozen)
    (hguard : s.hu.guardTimer.isSome = s.hu.flag.isSome → t.hu.guardTimer.isSome = s.hu.flag.isSome)
    (hawait : s.hu.awaiting = none → t.hu.awaiting = none) : HuntSteady s t := by
  refine ⟨fun x => ⟨fun hr => ?_, fun hr => ?_, ?_, ?_⟩, hrole.2, fun h => (he h).state.2, fun _ => ⟨[], ?_⟩⟩
  · obtain ⟨hhunt, hempty, hwait, hnone⟩ := x.idle (hrole.1 hr)
    exact ⟨fun h => (he h).hunt.trans (hhunt h), hfrozen.trans hempty, hawait hwait, hid.trans hnone⟩
  · rw [hid, hflag]
    exact x.taken fun hs => hr (hrole.2 hs)
  · rw [hflag]
    exact hguard x.guard
  · rw [hfrozen]
    exact x.list
  · exact marks_none hfrozen fun h hl hf => hl ((he h).state.1 hf)

/-- The entries are the same as far as the hunt reads them, and the record stands. -/
theorem hunt_of_entries (he : ∀ k, (s.entry k).HuntSame (t.entry k)) (hu : t.hu = s.hu) : HuntSteady s t := by
  refine hunt_of_record he ?_ ?_ ?_ ?_ ?_ ?_ <;> rw [hu]
  all_goals exact fun h => h

/-- Every entry of the roster is rewritten and the same as far as the hunt reads it. -/
theorem entries_of_map (f : Nat → Entry → Entry) (hr : t.roster = tableMap f s.roster)
    (hf : ∀ h (e : Entry), e.HuntSame (f h e)) (k : Nat) : (s.entry k).HuntSame (t.entry k) := by
  have hentry : t.entry k = if 1 ≤ k ∧ k ≤ 64 then f k (s.entry k) else Entry.free := by
    unfold State.entry
    rw [hr, tableGet_tableMap]
  rw [hentry]
  split
  next => exact hf k _
  next hk => rw [entry_outside s k hk]; exact .refl _

theorem HuntUnread.refl (s : State) : HuntUnread s s := ⟨rfl, rfl⟩

theorem HuntUnread.trans (a : HuntUnread s t) (b : HuntUnread t u) : HuntUnread s u :=
  ⟨b.roster.trans a.roster, b.hu.trans a.hu⟩

theorem HuntUnread.ite {c : Prop} [Decidable c] (a : c → HuntUnread s t) (b : ¬c → HuntUnread s u) :
    HuntUnread s (if c then t else u) := by
  split
  next h => exact a h
  next h => exact b h

theorem HuntUnread.foldl {α : Type} (f : State → α → State) (hf : ∀ s a, HuntUnread s (f s a)) (s : State) (xs : List α) :
    HuntUnread s (xs.foldl f s) := by
  induction xs generalizing s with
  | nil => exact .refl s
  | cons x xs ih => exact (hf s x).trans (ih (f s x))

theorem HuntUnread.entry (x : HuntUnread s t) (k : Nat) : t.entry k = s.entry k := entry_of_roster s t x.roster k

theorem HuntUnread.steady (x : HuntUnread s t) : HuntSteady s t :=
  hunt_of_entries (fun k => by rw [x.entry]; exact .refl _) x.hu

/-- Between writes that the hunt does not read, what stands stands. -/
theorem HuntStands.between (a : HuntUnread s t) (x : HuntStands t u) (b : HuntUnread u v) : HuntStands s v := by
  refine ⟨fun h => b.steady.law (x.law (a.steady.law h)), fun hs hv => ?_⟩
  rw [b.hu] at hv
  rw [← a.hu] at hs
  obtain ⟨freed, hlist, hfree, hnamed⟩ := x.list hs hv
  rw [a.hu] at hlist
  refine ⟨freed, by rw [b.hu, hlist], fun h hm => ?_, fun h hl he => ?_⟩
  · rw [b.entry]
    exact hfree h hm
  · rw [b.entry] at he
    rw [← a.entry] at hl
    exact hnamed h hl he

/-- Homes are taken in and none is freed: the record stands, and a new home is under no HUNT hold. -/
structure TakesIn (s t : State) : Prop where
  hu : t.hu = s.hu
  held : ∀ h, (s.entry h).state ≠ .free → (t.entry h).state ≠ .free
  hunt : ∀ h, (s.entry h).holds.hunt = false → (t.entry h).holds.hunt = false

theorem TakesIn.trans (a : TakesIn s t) (b : TakesIn t u) : TakesIn s u :=
  ⟨b.hu.trans a.hu, fun h hl => b.held h (a.held h hl), fun h hf => b.hunt h (a.hunt h hf)⟩

theorem HuntUnread.takesIn (x : HuntUnread s t) : TakesIn s t :=
  ⟨x.hu, fun h hl => by rwa [x.entry], fun h hf => by rwa [x.entry]⟩

theorem TakesIn.ite {c : Prop} [Decidable c] (a : c → TakesIn s t) (b : ¬c → TakesIn s u) :
    TakesIn s (if c then t else u) := by
  split
  next h => exact a h
  next h => exact b h

theorem TakesIn.foldl {α : Type} (f : State → α → State) (hf : ∀ s a, TakesIn s (f s a)) (s : State) (xs : List α) :
    TakesIn s (xs.foldl f s) := by
  induction xs generalizing s with
  | nil => exact (HuntUnread.refl s).takesIn
  | cons x xs ih => exact (hf s x).trans (ih (f s x))

theorem TakesIn.stands (x : TakesIn s t) : HuntStands s t := by
  refine ⟨fun y => ⟨fun hr => ?_, ?_, ?_, ?_⟩, fun _ _ => ⟨[], marks_none (by rw [x.hu]) x.held⟩⟩
  · rw [x.hu] at hr ⊢
    obtain ⟨hhunt, hrest⟩ := y.idle hr
    exact ⟨fun h => x.hunt h (hhunt h), hrest⟩
  · rw [x.hu]
    exact y.taken
  · rw [x.hu]
    exact y.guard
  · rw [x.hu]
    exact y.list

theorem ReportsOnly.unread (x : ReportsOnly s t) : HuntUnread s t := ⟨x.roster, x.hu⟩

theorem NoticesOnly.unread (x : NoticesOnly s t) : HuntUnread s t := ⟨x.roster, x.hu⟩

theorem settle_unread (s : State) : HuntUnread s s.settle := ⟨settle_roster s, settle_hu s⟩

end HuntSteady

end Sys2Proof.Machine
end

section
/-! PROOFS. The hunt record through the shared operations: what they do to an entry's HUNT hold and to its being FREE, a
home freed with its dead mark, and the reset. -/

namespace Sys2Proof.Machine

/-! ### Entries as the hunt reads them -/

theorem post_huntSame (e : Entry) (k : MsgKind) : e.HuntSame (e.post k) := by
  obtain ⟨m, b, hp⟩ := post_else e k
  rw [hp]
  exact ⟨Iff.rfl, rfl⟩

theorem toActive_huntSame {e : Entry} (h : e.state ≠ .free) : e.HuntSame e.toActive := by
  refine .of_held h (fun hh => by cases hh) ?_
  unfold Entry.toActive
  dsimp only
  split <;> rfl

theorem toLost_huntSame {e : Entry} (h : e.state ≠ .free) (time : Nat) : e.HuntSame (e.toLost time) :=
  .of_held h (fun hh => by cases hh) rfl

theorem toClosing_huntSame {e : Entry} (h : e.state ≠ .free) (release : Bool) : e.HuntSame (e.toClosing release) := by
  have hclosing : e.HuntSame { e with state := .closing, lostTimer := none, handover := none } :=
    .of_held h (fun hh => by cases hh) rfl
  unfold Entry.toClosing
  dsimp only
  split
  · exact hclosing.trans (post_huntSame _ _)
  · exact hclosing

theorem takeAck_huntSame (e : Entry) (img : Image) (k : Option MsgKind) : e.HuntSame (e.takeAck img k) := by
  unfold Entry.takeAck
  split <;> exact ⟨Iff.rfl, rfl⟩

theorem correct_huntSame (e : Entry) (img : Image) (d : Int) : e.HuntSame (e.correct img d) := by
  unfold Entry.correct
  dsimp only
  split
  · exact .refl e
  · exact post_huntSame _ _

/-- A delay stored, and an ADJUST posted where it differs (R61, R132). -/
theorem stored_huntSame (e : Entry) (img : Image) (d : Int) (c : Prop) [Decidable c] (k : MsgKind) :
    e.HuntSame (if c then e.storeDelay img d else (e.storeDelay img d).post k) := by
  have hstored : e.HuntSame (e.storeDelay img d) := ⟨Iff.rfl, rfl⟩
  split
  · exact hstored
  · exact hstored.trans (post_huntSame _ _)

theorem advanceRecontact_huntSame (e : Entry) : e.HuntSame e.advanceRecontact := by
  unfold Entry.advanceRecontact
  split <;> exact ⟨Iff.rfl, rfl⟩

theorem afterBuild_huntSame (e : Entry) (n : CycleNo) (granted served : Bool) :
    e.HuntSame (e.afterBuild n granted served) := by
  unfold Entry.afterBuild
  split <;> exact ⟨Iff.rfl, rfl⟩

/-- The state of an entry that counts, is served or holds an account is not FREE. -/
theorem held_of_booked {st : HomeState} (h : st.booked = true) : st ≠ .free := by
  rintro rfl
  cases h

/-! ### Writes that the hunt does not read -/

theorem queueNotice_unread (s : State) (n : Notice) : HuntUnread s (s.queueNotice n) := ⟨rfl, rfl⟩

theorem withdraw_unread (s : State) (test : Notice → Bool) : HuntUnread s (s.withdraw test) := ⟨rfl, rfl⟩

theorem pushEvent_unread (s : State) (e : Event) : HuntUnread s (s.pushEvent e) := (pushEvent_noticesOnly s e).unread

theorem setAcct_unread (s : State) (h : Nat) (a : Option Account) : HuntUnread s (s.setAcct h a) := ⟨rfl, rfl⟩

theorem changeAcct_unread (s : State) (h : Nat) (a : Account) : HuntUnread s (s.changeAcct h a) :=
  (setAcct_unread s h _).trans (changeAcct_reportsOnly s h a).unread

theorem setDrift_unread (s : State) (h : Nat) (d : Drift) : HuntUnread s (s.setDrift h d) := ⟨rfl, rfl⟩

theorem setPhase_unread (s : State) (h : Nat) (p : Phase) : HuntUnread s (s.setPhase h p) := setDrift_unread s h _

theorem raiseAlarm_unread (s : State) (a : AlarmSource) (c : AlarmContent) : HuntUnread s (s.raiseAlarm a c) :=
  (raiseAlarm_reportsOnly s a c).unread

theorem endCondition_unread (s : State) (a : AlarmSource) : HuntUnread s (s.endCondition a) :=
  (endCondition_reportsOnly s a).unread

theorem startCredit_unread (s : State) (h : Nat) : HuntUnread s (s.startCredit h) := (startCredit_reportsOnly s h).unread

/-! ### An entry is written -/

theorem setEntry_hunt (s : State) (h : Nat) (e : Entry) (he : (s.entry h).HuntSame e) : HuntSteady s (s.setEntry h e) := by
  refine hunt_of_entries (fun k => ?_) rfl
  rw [entry_setEntry]
  split
  next hk => rw [hk.1]; exact he
  next => exact .refl _

/-- A home's entry that is not FREE stays so where it is rewritten in a state that is not. -/
theorem setEntry_held (s : State) (h : Nat) (e : Entry) (hs : (s.entry h).state ≠ .free) (he : e.state ≠ .free) :
    ((s.setEntry h e).entry h).state ≠ .free := by
  rw [entry_setEntry]
  split
  · exact he
  · exact hs

theorem freeEntry_hu_eq (s : State) (h : Nat) : (s.freeEntry h).hu = { s.hu with frozen := withDead [h] s.hu.frozen } := by
  have hmarked : (s.hu.frozen.map fun p => if p.home.handle = h then { p with dead := true } else p) =
      withDead [h] s.hu.frozen := by
    refine List.map_congr_left fun p _ => ?_
    by_cases hp : p.home.handle = h <;> simp [hp]
  exact congrArg (fun ps => { s.hu with frozen := ps }) hmarked

/-- A home is freed and its position, where it has one, is dead (R45, R104). -/
theorem freeEntry_hunt (s : State) (h : Nat) : HuntSteady s (s.freeEntry h) := by
  have hentry := freeEntry_entry s h
  have hu := freeEntry_hu_eq s h
  refine ⟨fun x => ?_, fun hr => by rw [hu]; exact hr, fun k hf => ?_, fun _ => ⟨[h], by rw [hu], fun k hk => ?_,
    fun k hl hf => ?_⟩⟩
  · refine ⟨fun hr => ?_, fun hr => ?_, by rw [hu]; exact x.guard, ?_⟩ <;> rw [hu] at *
    · obtain ⟨hhunt, hempty, hrest⟩ := x.idle hr
      refine ⟨fun k => ?_, ?_, hrest⟩
      · rw [hentry]
        split
        · rfl
        · exact hhunt k
      · rw [hempty]
        rfl
    · exact x.taken hr
    · exact x.list.congr (withDead_handles _ _)
  · rw [hentry]
    split
    · rfl
    · exact hf
  · rw [hentry, if_pos (List.mem_singleton.1 hk)]
    rfl
  · rw [hentry] at hf
    split at hf
    next hk => exact List.mem_singleton.2 hk
    next => exact absurd hf hl

theorem enterClosing_hunt (s : State) (h : Nat) (kind : RecordKind) (release : Bool) (hs : (s.entry h).state ≠ .free) :
    HuntSteady s (s.enterClosing h kind release) := by
  refine hunt_of_entries (fun k => ?_) (enterClosing_hu s h kind release)
  rw [enterClosing_entry]
  split
  next hk => rw [hk.1]; exact toClosing_huntSame hs release
  next => exact .refl _

theorem release_hunt (s : State) (h : Nat) (reason : ReleaseReason) (release : Bool) (hs : (s.entry h).state ≠ .free) :
    HuntSteady s (s.release h reason release) := (enterClosing_hunt s h _ release hs).trans (pushEvent_unread _ _).steady

theorem drainClose_hunt (s : State) (h : Nat) : HuntSteady s (s.drainClose h) := by
  refine .ite (fun hc => enterClosing_hunt s h .restart true ?_) fun _ => .refl s
  rcases hc.2 with hs | hs <;> rw [hs] <;> decide

theorem enterLost_hunt (s : State) (h : Nat) (hs : (s.entry h).state ≠ .free) : HuntSteady s (s.enterLost h) :=
  (setEntry_hunt s h _ (toLost_huntSame hs _)).trans
    ((setPhase_unread _ h .off).trans ((endCondition_unread _ _).trans (raiseAlarm_unread _ _ _))).steady

theorem loseHome_hunt (s : State) (h : Nat) (hs : (s.entry h).state ≠ .free) : HuntSteady s (s.loseHome h) :=
  (enterLost_hunt s h hs).trans (drainClose_hunt _ h)

theorem setDriftHold_hunt (s : State) (h : Nat) : HuntSteady s (s.setDriftHold h) := by
  have hset := setEntry_hunt s h { s.entry h with
    holds := { (s.entry h).holds with drift := true }, rangeAttempts := 0, reRangeIdle := (s.entry h).idle } ⟨Iff.rfl, rfl⟩
  exact hset.trans ((setPhase_unread _ h .seeking).trans (raiseAlarm_unread _ _ _)).steady

theorem clearDriftHold_hunt (s : State) (h : Nat) : HuntSteady s (s.clearDriftHold h) := by
  have hset := setEntry_hunt s h { s.entry h with
    holds := { (s.entry h).holds with drift := false }, idle := (s.entry h).reRangeIdle, reRangeIdle := 0 } ⟨Iff.rfl, rfl⟩
  exact hset.trans ((setPhase_unread _ h .off).trans (endCondition_unread _ _)).steady

theorem choices_unread (s : State) (n : Nat) : HuntUnread s { s with choices := n } := ⟨rfl, rfl⟩

/-- An entry returns from its move, by its counts to ACTIVE, under the DRIFT hold or to LOST (R26, R37, R93). -/
theorem returnActive_hunt (s : State) (h : Nat) (hs : (s.entry h).state ≠ .free) : HuntSteady s (s.returnActive h) := by
  have hact := setEntry_hunt s h _ (toActive_huntSame hs)
  have hheld : ((s.setEntry h (s.entry h).toActive).entry h).state ≠ .free :=
    setEntry_held s h _ hs fun hh => by cases hh
  have hdrift := hact.trans (setDriftHold_hunt _ h)
  have hdrifting : (((s.setEntry h (s.entry h).toActive).setDriftHold h).entry h).state ≠ .free := by
    rw [setDriftHold_entry _ _ (handle_of_state s h hs)]
    exact hheld
  have hlost := hact.trans (loseHome_hunt _ h hheld)
  unfold State.returnActive
  dsimp only
  split_ifs
  · exact hact.trans (drainClose_hunt _ h)
  · exact hdrift.trans (drainClose_hunt _ h)
  · exact hlost
  · exact hlost.trans (choices_unread _ _).steady
  · exact (hdrift.trans (loseHome_hunt _ h hdrifting)).trans (choices_unread _ _).steady

/-- A FREE entry takes a home under no HUNT hold (R22). -/
theorem takeEntry_takesIn (s : State) (h : Nat) (e : Entry) (he : e.state ≠ .free) (hh : e.holds.hunt = false) :
    TakesIn s (s.takeEntry h e) := by
  have hentry (k : Nat) : (s.takeEntry h e).entry k = (s.setEntry h e).entry k := rfl
  refine ⟨rfl, fun k hl => ?_, fun k hf => ?_⟩ <;> rw [hentry, entry_setEntry] <;> split
  · exact he
  · exact hl
  · exact hh
  · exact hf

/-- After a reset no hunt runs and every entry is FREE (R46, R123, R187). -/
theorem powerOn_hunt (s : State) (straps : Station) : HuntSteady s (s.powerOn straps) := by
  have hfree (h : Nat) : (s.powerOn straps).entry h = Entry.free := powerOn_entry s straps h
  refine ⟨fun _ => ⟨fun _ => ⟨fun h => by rw [hfree]; rfl, rfl, rfl, rfl⟩, fun hr => absurd rfl hr, rfl, candidateList_nil⟩,
    fun _ => rfl, fun h _ => by rw [hfree]; rfl, fun hr => absurd rfl hr⟩

end Sys2Proof.Machine
end

section
/-! PROOFS. The hunt record through the line, the upstream path, enrolment, the start of a cycle and the handover. -/

namespace Sys2Proof.Machine

/-! ### The line (R59, R169, R174, R178, R183) -/

theorem lineHeard_unread (s : State) : HuntUnread s s.lineHeard := (lineHeard_noticesOnly s).unread

theorem ownCarried_unread (s : State) : HuntUnread s s.ownCarried := (ownCarried_noticesOnly s).unread

theorem noticeCarried_unread (s : State) : HuntUnread s s.noticeCarried := (noticeCarried_noticesOnly s).unread

theorem freePlaceOf_unread (s : State) (h : Nat) : HuntUnread s (s.freePlaceOf h) := ⟨rfl, rfl⟩

theorem dropClaim_hunt (s : State) (serial : Serial) (h : Nat) : HuntSteady s (s.dropClaim serial h) := by
  rw [dropClaim_eq]
  exact (freePlaceOf_unread s h).steady.trans ((freeEntry_hunt _ h).trans (withdraw_unread _ _).steady)

theorem dropUncarried_hunt (s : State) : HuntSteady s s.dropUncarried := by
  refine .foldl _ (fun t c => ?_) s _
  split
  · exact .refl t
  · split
    · exact .refl t
    · exact .ite (fun _ => .refl t) fun _ => dropClaim_hunt t _ _

/-- The port's, the ports' and the Request Handler's own fields are none the hunt reads. -/
theorem line_unread (s : State) (p : LinePort) (o : Ports) (q : RequestHandler) :
    HuntUnread s { s with slp := p, ports := o, rq := q } := ⟨rfl, rfl⟩

theorem detachIfDue_hunt (s : State) : HuntSteady s s.detachIfDue :=
  .ite (fun _ => .refl s) fun _ => (line_unread s _ s.ports s.rq).steady.trans (dropUncarried_hunt _)

theorem removeWithdrawn_hunt (s : State) : HuntSteady s s.removeWithdrawn := by
  have hslot := (line_unread s { s.slp with noticeSlot := none } s.ports s.rq).steady
  unfold State.removeWithdrawn
  split
  · exact .refl s
  · split
    · dsimp only
      split
      · split
        · exact hslot
        · exact .ite (fun _ => hslot.trans (freeEntry_hunt _ _)) fun _ => hslot
      · exact hslot
    · exact .refl s

theorem reportGone_unread (s : State) (f : ReportFrame) : HuntUnread s (s.reportGone f) := by
  unfold State.reportGone
  dsimp only
  split
  all_goals exact line_unread s _ s.ports _

theorem recordCarried_hunt (s : State) (f : UsageFrame) : HuntSteady s (s.recordCarried f) := by
  have hslot := line_unread s { s.slp with usageSlot := none } s.ports s.rq
  unfold State.recordCarried
  dsimp only
  split
  · exact hslot.steady
  · split
    · exact hslot.steady
    · exact .ite (fun _ => (hslot.trans (setAcct_unread _ f.handle _)).steady.trans (freeEntry_hunt _ _)) fun _ =>
        (hslot.trans (setAcct_unread _ f.handle _)).steady

/-! ### The stages of a clean burst (R17, R32, R60, R91, R94, R132) -/

theorem openAccount_unread (s : State) (h : Nat) : HuntUnread s (s.openAccount h) :=
  (setAcct_unread s h _).trans (startCredit_unread _ h)

theorem confirmed_hunt (s : State) (h : Nat) (d : Int) (hs : (s.entry h).state ≠ .free) :
    HuntSteady s (s.confirmed h d) :=
  (setEntry_hunt s h _ ((toActive_huntSame hs).trans (stored_huntSame _ _ _ _ _))).trans
    (((openAccount_unread _ h).trans (pushEvent_unread _ _)).steady.trans (drainClose_hunt _ h))

theorem confirmAttempt_hunt (s : State) (h : Nat) : HuntSteady s (s.confirmAttempt h) :=
  .ite (fun _ => setEntry_hunt s h _ (by exact ⟨Iff.rfl, rfl⟩)) fun _ => freeEntry_hunt s h

theorem confirmBurst_hunt (s : State) (h : Nat) (d : Int) (hs : (s.entry h).state ≠ .free) :
    HuntSteady s (s.confirmBurst h d) := .ite (fun _ => confirmed_hunt s h d hs) fun _ => confirmAttempt_hunt s h

theorem tryTaking_hunt (s : State) (h : Nat) (hs : (s.entry h).state ≠ .free) : HuntSteady s (s.tryTaking h) := by
  unfold State.tryTaking
  dsimp only
  split
  · refine .ite (fun _ => (setEntry_hunt s h _ ?_).trans (queueNotice_unread _ _).steady) fun _ => .refl s
    exact .of_held hs (fun hh => by cases hh) rfl
  · exact .refl s
  · exact .refl s

theorem arrivalBurst_hunt (s : State) (h : Nat) (d : Int) (hs : (s.entry h).state ≠ .free) :
    HuntSteady s (s.arrivalBurst h d) := by
  refine .ite (fun _ => .refl s) fun _ => .ite (fun _ => ?_) fun _ => setEntry_hunt s h _ (post_huntSame _ _)
  have hstored := stored_huntSame (s.entry h) s.img (((s.entry h).eqDelay.getD 0 : Nat) - d)
    (((s.entry h).storeDelay s.img (((s.entry h).eqDelay.getD 0 : Nat) - d)).eqDelay = (s.entry h).eqDelay)
    (.adjust (clampDelay s.img (((s.entry h).eqDelay.getD 0 : Nat) - d)))
  refine (setEntry_hunt s h _ ?_).trans (tryTaking_hunt _ h (setEntry_held s h _ hs ?_))
  · exact ⟨hstored.state, hstored.hunt⟩
  · exact fun hf => hs (hstored.state.1 hf)

theorem recontacted_hunt (s : State) (h : Nat) (hs : (s.entry h).state ≠ .free) : HuntSteady s (s.recontacted h) :=
  (setEntry_hunt s h _ (toActive_huntSame hs)).trans ((endCondition_unread _ _).steady.trans (drainClose_hunt _ h))

theorem rangeBurst_hunt (s : State) (h : Nat) (d : Int) : HuntSteady s (s.rangeBurst h d) := by
  unfold State.rangeBurst
  split
  next hs => exact confirmBurst_hunt s h d (by rw [hs]; decide)
  next hs => exact arrivalBurst_hunt s h d (by rw [hs]; decide)
  next hs => exact recontacted_hunt s h (by rw [hs]; decide)
  all_goals exact .refl s

theorem countUpPacket_unread (s : State) (h : Nat) (p : UpPacket) : HuntUnread s (s.countUpPacket h p) := by
  unfold State.countUpPacket
  split
  · exact .refl s
  · exact changeAcct_unread s h _

theorem takePackets_unread (s : State) (h : Nat) (ps : List UpPacket) : HuntUnread s (s.takePackets h ps) :=
  .ite (fun _ => (HuntUnread.foldl _ (fun t p => countUpPacket_unread t h p) s _).trans (line_unread _ _ _ _)) fun _ => .refl s

theorem handOver_hunt (s : State) (h : Nat) (hs : (s.entry h).state ≠ .free) : HuntSteady s (s.handOver h) := by
  have hhanded : (s.entry h).HuntSame { s.entry h with state := .handed } := .of_held hs (fun hh => nomatch hh) rfl
  have hturn := (setEntry_hunt s h _ hhanded).trans (endCredit_reportsOnly _ h).unread.steady
  unfold State.handOver
  dsimp only
  split
  · exact hturn.trans (queueNotice_unread _ _).steady
  · exact hturn
  · exact hturn

/-! ### The timing judgement (R90 to R95) -/

theorem judgeOffset_hunt (s : State) (h : Nat) (d : Int) : HuntSteady s (s.judgeOffset h d) := by
  have hset := setEntry_hunt s h { s.entry h with misplaced := min 3 ((s.entry h).misplaced + 1) } ⟨Iff.rfl, rfl⟩
  have htrip := HuntSteady.ite (c := (s.entry h).misplaced = 2) (fun _ => hset.trans (setDrift_unread _ h
    { (s.setEntry h { s.entry h with misplaced := min 3 ((s.entry h).misplaced + 1) }).drift h with
      tripOffset := some d }).steady) fun _ => hset
  have hplaced : (s.entry h).HuntSame { s.entry h with misplaced := 0 } := ⟨Iff.rfl, rfl⟩
  have hcorrected := hplaced.trans (correct_huntSame _ s.img d)
  exact .ite (fun _ => setEntry_hunt s h _ (by exact ⟨Iff.rfl, rfl⟩)) fun _ => .ite (fun _ => setEntry_hunt s h _ hcorrected) fun _ =>
    .ite (fun _ => htrip.trans (setDriftHold_hunt _ h)) fun _ => htrip

theorem measureDrift_hunt (s : State) (h : Nat) (d : Int) : HuntSteady s (s.measureDrift h d) :=
  have hplaced : (s.entry h).HuntSame { s.entry h with misplaced := 0 } := ⟨Iff.rfl, rfl⟩
  (setEntry_hunt s h _ (hplaced.trans (post_huntSame _ _))).trans (setPhase_unread _ h _).steady

theorem judge_hunt (s : State) (h : Nat) (before : HomeState) (kind : WindowKind) (acked : Option MsgKind) (d : Int) :
    HuntSteady s (s.judge h before kind acked d) := by
  unfold State.judge
  dsimp only
  split
  case h_1 =>
    refine .ite (fun _ => setEntry_hunt s h _ (by exact ⟨Iff.rfl, rfl⟩)) fun _ => ?_
    split
    · exact judgeOffset_hunt s h d
    · exact .ite (fun _ => measureDrift_hunt s h d) fun _ => .refl s
    · exact .ite (fun _ => (clearDriftHold_hunt s h).trans (judgeOffset_hunt _ h d)) fun _ => .refl s
  case h_2 => exact judgeOffset_hunt s h d
  case h_3 => exact judgeOffset_hunt s h d
  all_goals exact .refl s

/-! ### The whole path (R17) -/

theorem cleanBurst_hunt (s : State) (h : Nat) (map : CycleNo) (kind : WindowKind) (d : Int) (ack : Bool) (report : Nat)
    (ps : List UpPacket) : HuntSteady s (s.cleanBurst h map kind d ack report ps) := by
  have hreport : (s.entry h).HuntSame ((s.entry h).heard report) := ⟨Iff.rfl, rfl⟩
  have hheard : HuntSteady s ((s.noteOffset h d).setEntry h
      (((s.entry h).heard report).takeAck s.img ((s.entry h).acknowledges map ack))) :=
    (setDrift_unread s h _).steady.trans (setEntry_hunt _ h _ (hreport.trans (takeAck_huntSame _ _ _)))
  have hburst := HuntSteady.ite (c := kind = .range) (fun _ => hheard.trans (rangeBurst_hunt _ h d))
    fun _ => hheard.trans (takePackets_unread _ h ps).steady
  unfold State.cleanBurst
  dsimp only
  split
  · exact (HuntSteady.ite (fun hs => hburst.trans (handOver_hunt _ h (by rw [hs]; decide))) fun _ => hburst).trans
      (judge_hunt _ _ _ _ _ _)
  all_goals exact hburst.trans (judge_hunt _ _ _ _ _ _)

theorem rangeMissed_hunt (s : State) (h : Nat) : HuntSteady s (s.rangeMissed h) := by
  refine .ite (fun _ => confirmAttempt_hunt s h) fun _ => .ite (fun hc => ?_) fun _ => .refl s
  have hheld : (s.entry h).state ≠ .free := by rw [hc.1]; decide
  have hset := setEntry_hunt s h { s.entry h with
    rangeAttempts := min Config.rerangeAttempts ((s.entry h).rangeAttempts + 1) } ⟨Iff.rfl, rfl⟩
  exact .ite (fun _ => hset) fun _ => hset.trans (loseHome_hunt _ h (setEntry_held s h _ hheld hheld))

theorem dataMissed_hunt (s : State) (h : Nat) : HuntSteady s (s.dataMissed h) := by
  refine .ite (fun hc => ?_) fun _ => .refl s
  have hheld := held_of_booked (booked_of_served _ hc)
  have hset := setEntry_hunt s h { s.entry h with missed := min Config.missedLimit ((s.entry h).missed + 1) } ⟨Iff.rfl, rfl⟩
  exact .ite (fun _ => hset.trans (loseHome_hunt _ h (setEntry_held s h _ hheld hheld))) fun _ => hset

theorem observeBurst_hunt (s : State) (r : WindowRef) (w : Window) (o : BurstObs) : HuntSteady s (s.observeBurst r w o) := by
  have hmissed := HuntSteady.ite (c := r.kind = .range) (fun _ => rangeMissed_hunt s r.handle)
    fun _ => dataMissed_hunt s r.handle
  refine .ite (fun _ => .refl s) fun _ => ?_
  split
  · exact cleanBurst_hunt s _ _ _ _ _ _ _
  · exact hmissed
  · exact hmissed

/-! ### Enrolment (R51 to R58) -/

theorem setPlace_unread (s : State) (i : Nat) (c : Option Capture) : HuntUnread s (s.setPlace i c) := ⟨rfl, rfl⟩

theorem startClaim_takesIn (s : State) (i : Nat) (r : Reply) : TakesIn s (s.startClaim i r) := by
  refine .ite (fun _ => (setPlace_unread s i _).takesIn) fun _ => ?_
  have hrefused (e : Event) : TakesIn s ((s.setPlace i none).pushEvent e) :=
    ((setPlace_unread s i _).trans (pushEvent_unread _ _)).takesIn
  split
  · exact hrefused _
  next h _ =>
    refine .ite (fun _ => ?_) fun _ => hrefused _
    have htaken := takeEntry_takesIn s h (claimEntry s.img r.serial (replyRoundTrip r s.img.rLow)) (fun hh => by cases hh) rfl
    exact htaken.trans ((setPlace_unread _ i _).trans (queueNotice_unread _ _)).takesIn

theorem judgeCapture_takesIn (s : State) (p : Nat × Reply) : TakesIn s (s.judgeCapture p) :=
  .ite (fun _ => ((setPlace_unread s _ _).trans (pushEvent_unread _ _)).takesIn) fun _ => startClaim_takesIn s p.1 p.2

theorem discovered_takesIn (s : State) (o : DiscoverObs) : TakesIn s (s.discovered o) := by
  have hstays := (HuntUnread.refl s).takesIn
  unfold State.discovered
  split
  · exact .ite (fun _ => (HuntUnread.foldl _ (fun t (p : Nat × Reply) => setPlace_unread t p.1 _) s _).takesIn.trans
      (.foldl _ judgeCapture_takesIn _ _)) fun _ => hstays
  · exact hstays
  · exact hstays

theorem claimCarried_unread (s : State) (serial : Serial) : HuntUnread s (s.claimCarried serial) := ⟨rfl, rfl⟩

theorem raiseDuplicate_unread (s : State) (h : Nat) (serial : Serial) (other : Nat) :
    HuntUnread s (s.raiseDuplicate h serial other) := raiseAlarm_unread s _ _

theorem answerHeld_hunt (s : State) (h : Nat) (serial : Serial) (other : Nat) :
    HuntSteady s (s.answerHeld h serial other) := by
  have hset := setEntry_hunt s h { s.entry h with duplicates := satAdd 255 (s.entry h).duplicates 1 } ⟨Iff.rfl, rfl⟩
  exact .ite (fun _ => .refl s) fun _ =>
    hset.trans ((queueNotice_unread _ _).trans (raiseDuplicate_unread _ h serial other)).steady

theorem claimHeard_hunt (s : State) (serial : Serial) (other : Nat) : HuntSteady s (s.claimHeard serial other) := by
  unfold State.claimHeard
  split
  · exact .refl s
  next h _ =>
    split
    case h_1 => exact .ite (fun _ => .refl s) fun _ => dropClaim_hunt s serial h
    case h_9 hs => exact release_hunt s h _ _ (by rw [hs]; decide)
    case h_10 => exact .refl s
    case h_11 => exact .refl s
    all_goals exact answerHeld_hunt s h serial other

theorem heldHeard_hunt (s : State) (serial : Serial) (holder : Nat) : HuntSteady s (s.heldHeard serial holder) := by
  unfold State.heldHeard
  split
  · exact .refl s
  next h _ =>
    split
    case h_1 => exact dropClaim_hunt s serial h
    case h_2 => exact freeEntry_hunt s h
    case h_10 => exact .refl s
    case h_11 => exact .refl s
    all_goals exact (raiseDuplicate_unread s h serial holder).steady

theorem toConfirming_huntSame {e : Entry} (he : e.state ≠ .free) (serial : Serial) (h : Nat) :
    e.HuntSame (e.toConfirming serial h) := by
  have hturned : e.HuntSame { e with state := .confirming, rangeAttempts := 0 } := .of_held he (fun hh => nomatch hh) rfl
  exact hturned.trans (post_huntSame _ _)

theorem claimHeldOut_hunt (s : State) (h : Nat) (serial : Serial) (hs : (s.entry h).state ≠ .free) :
    HuntSteady s (s.claimHeldOut h serial) :=
  .ite (fun _ => (freePlaceOf_unread s h).steady.trans (freeEntry_hunt _ h)) fun _ =>
    (freePlaceOf_unread s h).steady.trans (setEntry_hunt _ h _ (toConfirming_huntSame hs serial h))

/-! ### The start of a cycle (R1, R10, R33, R35, R39) -/

/-- The timers of a hunt count, and none stops or starts (R1). -/
theorem tick_hunt (s : State) : HuntSteady s s.tick := by
  have hrole : s.tick.hu.role = .noRole ↔ s.hu.role = .noRole := by
    change s.hu.role.tick = .noRole ↔ _
    unfold Role.tick
    split
    next o hr => rw [hr]; exact ⟨fun h => (nomatch h), fun h => (nomatch h)⟩
    next hr => rw [hr]
    next hr => rw [hr]
  have hguard : s.tick.hu.guardTimer.isSome = s.hu.guardTimer.isSome := Option.isSome_map
  exact hunt_of_record (entries_of_map (fun _ e => e.tick) rfl fun _ _ => ⟨Iff.rfl, rfl⟩) hrole rfl rfl rfl hguard.trans
    fun h => h

/-- The map that was awaited is awaited no more (R115). -/
theorem reachMap_hunt (s : State) : HuntSteady s s.reachMap := by
  have hreached (cb : CycleBuilder) : HuntSteady s { s with cb := cb } :=
    HuntUnread.steady ⟨rfl, rfl⟩
  have hready (cb : CycleBuilder) (n : Notice) :
      HuntSteady s (State.queueNotice { s with cb := cb, hu := { s.hu with awaiting := none } } n) :=
    hunt_of_record (fun _ => .refl _) Iff.rfl rfl rfl rfl (fun h => h) fun _ => rfl
  unfold State.reachMap
  dsimp only
  refine .ite (fun _ => ?_) fun _ => hreached _
  split
  · exact .ite (fun _ => hready _ _) fun _ => hreached _
  · exact hreached _
  · exact hreached _

theorem buildMap_hunt (s : State) (n : CycleNo) : HuntSteady s (s.buildMap n) := by
  refine hunt_of_entries (fun k => ?_) (buildMap_same s n).1
  rw [buildMap_entry, advanceRecontacts_entry]
  exact (advanceRecontact_huntSame _).trans (afterBuild_huntSame _ _ _ _)

/-! ### The ends of messages (R33) -/

theorem messageFailed_hunt (s : State) (h : Nat) (kind : MsgKind) : HuntSteady s (s.messageFailed h kind) := by
  have hempty := setEntry_hunt s h { s.entry h with mailbox := none } ⟨Iff.rfl, rfl⟩
  unfold State.messageFailed
  dsimp only
  split
  · exact .ite (fun _ => hempty.trans (setPhase_unread _ h _).steady) fun _ => hempty
  · exact .ite (fun _ => hempty.trans (freeEntry_hunt _ h)) fun _ => hempty
  · split
    · rw [setEntry_setEntry]
      exact (setEntry_hunt s h _ (by exact ⟨Iff.rfl, rfl⟩)).trans (queueNotice_unread _ _).steady
    · exact hempty
  · exact hempty

/-! ### Handover (R126 to R137) -/

theorem movedOut_unread (s : State) (e : Entry) (serial : Serial) (o : MoveOutcome) :
    HuntUnread s (s.movedOut e serial o) := pushEvent_unread s _

theorem considerOffer_takesIn (s : State) (serial : Serial) (source : Nat) (p : Profile) (eqDelay : Nat) :
    TakesIn s (s.considerOffer serial source p eqDelay) := by
  have hrefused (n : Notice) : TakesIn s (s.queueNotice n) := (queueNotice_unread s n).takesIn
  refine .ite (fun _ => hrefused _) fun _ => ?_
  split
  · exact hrefused _
  next h _ =>
    have htaken := takeEntry_takesIn s h (arrivingEntry s.img serial source p eqDelay h) (fun hh => by cases hh) rfl
    exact .ite (fun _ => htaken.trans (queueNotice_unread _ _).takesIn) fun _ => hrefused _

theorem offerHeard_takesIn (s : State) (serial : Serial) (source target : Nat) (p : Profile) (eqDelay : Nat) :
    TakesIn s (s.offerHeard serial source target p eqDelay) := by
  have hstays := (HuntUnread.refl s).takesIn
  have hbusy (n : Notice) : TakesIn s (s.queueNotice n) := (queueNotice_unread s n).takesIn
  unfold State.offerHeard
  split
  case h_1 => exact hstays
  case h_2 => exact hstays
  case h_5 => exact .ite (fun _ => considerOffer_takesIn s serial source p eqDelay) fun _ => hstays
  all_goals exact .ite (fun _ => hbusy _) fun _ => hstays

theorem toTuning_huntSame {e : Entry} (he : e.state ≠ .free) (channel newHandle : Nat) :
    e.HuntSame (e.toTuning channel newHandle) := by
  have hturned : e.HuntSame { e with
      state := .tuning, handover := e.handover.map fun c => { c with newHandle := some newHandle } } :=
    .of_held he (fun hh => nomatch hh) rfl
  exact hturned.trans (post_huntSame _ _)

theorem acceptHeard_hunt (s : State) (serial : Serial) (channel newHandle : Nat) :
    HuntSteady s (s.acceptHeard serial channel newHandle) := by
  unfold State.acceptHeard
  split
  · exact .refl s
  next h _ =>
    exact .ite (fun hc => setEntry_hunt s h _ (toTuning_huntSame (by rw [hc.1]; decide) channel newHandle)) fun _ => .refl s

theorem refuseHeard_hunt (s : State) (serial : Serial) (channel : Nat) (reason : RefuseReason) :
    HuntSteady s (s.refuseHeard serial channel reason) := by
  unfold State.refuseHeard
  split
  · exact .refl s
  next h _ =>
    exact .ite (fun hc => (returnActive_hunt s h (by rw [hc.1]; decide)).trans (movedOut_unread _ _ _ _).steady)
      fun _ => .refl s

theorem accountHeard_hunt (s : State) (serial : Serial) (source : Nat) (a : Account) :
    HuntSteady s (s.accountHeard serial source a) := by
  unfold State.accountHeard
  split
  · exact .refl s
  next h _ =>
    refine .ite (fun hc => ?_) fun _ => .refl s
    have hheld : (s.entry h).state ≠ .free := by rw [hc.1]; decide
    exact (setAcct_unread s h _).steady.trans ((setEntry_hunt _ h _ (by exact ⟨Iff.rfl, rfl⟩)).trans
      (tryTaking_hunt _ h (setEntry_held _ h _ hheld hheld)))

theorem takenCarried_hunt (s : State) (serial : Serial) : HuntSteady s (s.takenCarried serial) := by
  unfold State.takenCarried
  split
  · exact .refl s
  next h _ =>
    exact .ite (fun hs => (setEntry_hunt s h _ (toActive_huntSame (by rw [hs]; decide))).trans
      (((setAcct_unread _ h _).trans ((startCredit_unread _ h).trans (pushEvent_unread _ _))).steady.trans
        (drainClose_hunt _ h))) fun _ => .refl s

theorem takenHeard_hunt (s : State) (serial : Serial) (channel : Nat) : HuntSteady s (s.takenHeard serial channel) := by
  unfold State.takenHeard
  split
  · exact .refl s
  next h _ =>
    exact .ite (fun hc => (enterClosing_hunt s h _ _ (by rw [hc.1]; decide)).trans
      ((withdraw_unread _ _).trans (movedOut_unread _ _ _ _)).steady) fun _ => .refl s

theorem reclaimCarried_hunt (s : State) (serial : Serial) : HuntSteady s (s.reclaimCarried serial) := by
  unfold State.reclaimCarried
  split
  · exact .refl s
  next h _ =>
    dsimp only
    split
    case h_1 hs _ => exact (returnActive_hunt s h (by rw [hs]; decide)).trans (movedOut_unread _ _ _ _).steady
    case h_2 hs =>
      exact (enterLost_hunt s h (by rw [hs]; decide)).trans
        (((startCredit_unread _ h).trans (movedOut_unread _ _ _ _)).steady.trans (drainClose_hunt _ h))
    case h_3 => exact .refl s

theorem reclaimHeard_hunt (s : State) (serial : Serial) (source : Nat) : HuntSteady s (s.reclaimHeard serial source) := by
  unfold State.reclaimHeard
  split
  · exact .refl s
  next h _ => exact .ite (fun _ => (freeEntry_hunt s h).trans (withdraw_unread _ _).steady) fun _ => .refl s

theorem queueReclaim_hunt (s : State) (h : Nat) (serial : Serial) (cause : ReclaimCause) :
    HuntSteady s (s.queueReclaim h serial cause) :=
  (setEntry_hunt s h _ (by exact ⟨Iff.rfl, rfl⟩)).trans (queueNotice_unread _ _).steady

theorem handoverExpired_hunt (s : State) (h : Nat) (serial : Serial) : HuntSteady s (s.handoverExpired h serial) := by
  unfold State.handoverExpired
  dsimp only
  split
  case h_1 hs =>
    exact (returnActive_hunt s h (by rw [hs]; decide)).trans ((withdraw_unread _ _).trans (movedOut_unread _ _ _ _)).steady
  case h_2 => exact (setEntry_hunt s h (s.entry h).dropTune ⟨Iff.rfl, rfl⟩).trans (queueReclaim_hunt _ h serial .timeout)
  case h_3 => exact (withdraw_unread s _).steady.trans (queueReclaim_hunt _ h serial .timeout)
  all_goals exact .refl s

/-! ### Start-up and draining (R140, R188 to R193) -/

theorem startup_unread (s : State) (il : ImageLoader) : HuntUnread s { s with il := il } := ⟨rfl, rfl⟩

theorem enterFault_unread (s : State) (reason : FaultReason) (usable : Option Nat) (clash : Option (Nat × Station)) :
    HuntUnread s (s.enterFault reason usable clash) := (startup_unread s _).trans (pushEvent_unread _ _)

theorem loaded_unread (s : State) (ws : List ImageWord) : HuntUnread s (s.loaded ws) := by
  unfold State.loaded
  refine .ite (fun _ => ?_) fun _ => enterFault_unread s _ _ _
  split
  · exact enterFault_unread s _ _ _
  · exact ⟨rfl, rfl⟩

theorem answerPresent_unread (s : State) : HuntUnread s s.answerPresent := .ite (fun _ => .refl s) fun _ => queueNotice_unread s _

theorem presentHeard_unread (s : State) (station : Station) (incumbent : Bool) :
    HuntUnread s (s.presentHeard station incumbent) := by
  have hclash : HuntUnread s (s.clash station) := enterFault_unread s _ _ _
  unfold State.presentHeard
  split
  case h_1 => exact .refl s
  case h_2 => exact .refl s
  case h_3 =>
    exact .ite (fun _ => hclash.trans (withdraw_unread _ _)) fun _ => .ite (fun _ => hclash) fun _ => answerPresent_unread s
  all_goals exact .ite (fun _ => .refl s) fun _ => answerPresent_unread s

theorem presentCarried_unread (s : State) (incumbent : Bool) : HuntUnread s (s.presentCarried incumbent) :=
  .ite (fun _ => startup_unread s _) fun _ => .refl s

theorem drainEntry_hunt (s : State) (h : Nat) : HuntSteady s (s.drainEntry h) := by
  have hclosed (hs : (s.entry h).state ≠ .free) := enterClosing_hunt s h .restart true hs
  have hfreed := (freeEntry_hunt s h).trans (withdraw_unread _ (isTargetNoticeOf ((s.entry h).serial.getD 0))).steady
  unfold State.drainEntry
  dsimp only
  split
  case h_1 hs => exact hclosed (by rw [hs]; decide)
  case h_2 hs => exact hclosed (by rw [hs]; decide)
  case h_3 hs =>
    have hc := hclosed (by rw [hs]; decide)
    exact .ite (fun _ => hc.trans (withdraw_unread _ _).steady) fun _ => hc.trans (queueNotice_unread _ _).steady
  case h_4 hs =>
    have hc := hclosed (by rw [hs]; decide)
    exact .ite (fun _ => hc) fun _ => hc.trans (queueNotice_unread _ _).steady
  case h_5 => exact hfreed
  case h_6 => exact .ite (fun _ => (withdraw_unread s _).steady) fun _ => hfreed
  all_goals exact .refl s

theorem enterDraining_hunt (s : State) : HuntSteady s s.enterDraining :=
  (startup_unread s _).steady.trans (.foldl State.drainEntry drainEntry_hunt _ handles)

theorem restarted_hunt (s : State) (straps : Station) : HuntSteady s (s.restarted straps) := by
  unfold State.restarted
  split
  · exact powerOn_hunt s straps
  · exact powerOn_hunt s straps
  · exact enterDraining_hunt s
  · exact .refl s
  · exact .refl s

theorem repeated_unread (s : State) (r : RepeatTimer) : HuntUnread s (s.repeated r) :=
  .ite (fun _ => ((placeReport_reportsOnly s _ _ true).trans (startRepeat_reportsOnly _ _ _)).unread)
    fun _ => endCondition_unread s _

end Sys2Proof.Machine
end

section
/-! PROOFS. The hunt record through the Hunt Unit itself: opening, joining, the owner's part, the steps, and the end of a
hunt (R97 to R120). -/

namespace Sys2Proof.Machine

/-! ### The record while a hunt lasts, and when it ends -/

section Record
variable {s t : State}

/-- A hunt that lasts: whatever becomes of the role's own fields, the HUNT holds and the awaited map, the flag and the list
stand and no home is freed or taken in. -/
theorem hunt_of_lasting (hs : s.hu.role ≠ .noRole) (ht : t.hu.role ≠ .noRole)
    (he : ∀ k, (t.entry k).state = (s.entry k).state) (hflag : t.hu.flag = s.hu.flag) (hid : t.hu.huntId = s.hu.huntId)
    (hguard : t.hu.guardTimer = s.hu.guardTimer) (hfrozen : t.hu.frozen = s.hu.frozen) : HuntSteady s t := by
  refine ⟨fun x => ⟨fun h => absurd h ht, fun _ => ?_, ?_, ?_⟩, fun h => absurd h hs, fun h hf => (he h).trans hf,
    fun _ => ⟨[], marks_none hfrozen fun h hl hf => hl ((he h).symm.trans hf)⟩⟩
  · rw [hid, hflag]
    exact x.taken hs
  · rw [hguard, hflag]
    exact x.guard
  · rw [hfrozen]
    exact x.list

/-- A hunt that is left: no role, no HUNT hold, no list and no map awaited, and the guard as the flag (R106, R119). -/
theorem hunt_of_left (hrole : t.hu.role = .noRole) (hunheld : ∀ k, (t.entry k).holds.hunt = false)
    (he : ∀ k, (t.entry k).state = (s.entry k).state) (hfrozen : t.hu.frozen = []) (hawait : t.hu.awaiting = none)
    (hid : t.hu.huntId = none) (hguard : s.hu.guardTimer.isSome = s.hu.flag.isSome →
      t.hu.guardTimer.isSome = t.hu.flag.isSome) : HuntSteady s t := by
  refine ⟨fun x => ⟨fun _ => ⟨hunheld, hfrozen, hawait, hid⟩, fun h => absurd hrole h, hguard x.guard, ?_⟩, fun _ => hrole,
    fun h hf => (he h).trans hf, fun h => absurd hrole h⟩
  rw [hfrozen]
  exact candidateList_nil

/-- A hunt that is joined (R108, R111). -/
theorem stands_of_joined {id : HuntId} (hs : s.hu.role = .noRole) (ht : t.hu.role ≠ .noRole) (hflag : t.hu.flag = some id)
    (hid : t.hu.huntId = some id) (hguard : t.hu.guardTimer.isSome = true)
    (hlist : HuntLaw s → CandidateList t.hu.frozen) : HuntStands s t := by
  refine ⟨fun x => ⟨fun h => absurd h ht, fun _ => ?_, ?_, hlist x⟩, fun h => absurd hs h⟩
  · rw [hid, hflag]
    exact ⟨rfl, rfl⟩
  · rw [hguard, hflag]
    rfl

end Record

/-! ### Opening (R107, R108, R110) -/

/-- An offer of HUNT_OPEN, its count and a deferred suspicion are nothing of a hunt that runs. -/
theorem opening_hunt (s : State) (opening deferred : Bool) (count : BitVec 8) (p : LinePort) :
    HuntSteady s { s with
      hu := { s.hu with opening := opening, deferred := deferred, openCount := count }, slp := p } :=
  hunt_of_record (fun _ => .refl _) Iff.rfl rfl rfl rfl (fun h => h) fun h => h

theorem openHunt_hunt (s : State) : HuntSteady s s.openHunt :=
  .ite (fun _ => opening_hunt s true s.hu.deferred _ _) fun _ => .refl s

theorem suspect_hunt (s : State) : HuntSteady s s.suspect :=
  .ite (fun _ => opening_hunt s s.hu.opening true _ s.slp) fun _ => openHunt_hunt s

theorem takeDeferred_hunt (s : State) : HuntSteady s s.takeDeferred := by
  have hdropped : HuntSteady s s.undeferred := opening_hunt s s.hu.opening false _ s.slp
  exact .ite (fun _ => .ite (fun _ => hdropped.trans (openHunt_hunt _)) fun _ => hdropped) fun _ => .refl s

theorem yieldOpening_hunt (s : State) : HuntSteady s s.yieldOpening :=
  .ite (fun _ => opening_hunt s false true _ _) fun _ => .refl s

theorem endStray_unread (s : State) : HuntUnread s s.endStray := ⟨rfl, rfl⟩

theorem emptyHistory_unread (s : State) : HuntUnread s s.emptyHistory := ⟨rfl, rfl⟩

/-- The flag is set where it was clear, with the guard (R105): no hunt was taken part in there. -/
theorem setFlag_hunt (s : State) (id : HuntId) (hflag : s.hu.flag = none) : HuntSteady s (s.setFlag id) := by
  refine ⟨fun x => ⟨x.idle, fun hr => ?_, rfl, x.list⟩, fun h => h, fun _ h => h, fun _ => ⟨[], marks_none rfl fun _ h => h⟩⟩
  have hsome := (x.taken hr).1
  rw [hflag] at hsome
  cases hsome

/-! ### Joining (R108, R111) -/

theorem ownOpen_stands (s : State) (id : HuntId) (hflag : s.hu.flag = none) : HuntStands s (s.ownOpen id) := by
  have hnoted : HuntSteady s { s.setFlag id with hu := { (s.setFlag id).hu with opening := false } } :=
    (setFlag_hunt s id hflag).trans (opening_hunt _ false _ _ _)
  unfold State.ownOpen
  dsimp only
  split
  next hrole =>
    split
    · exact stands_of_joined hrole (fun h => nomatch h) rfl rfl rfl fun _ => candidates_list _
    · exact stands_of_joined hrole (fun h => nomatch h) rfl rfl rfl fun x => x.list
  next => exact hnoted.stands

theorem otherOpen_stands (s : State) (id : HuntId) (hflag : s.hu.flag = none) : HuntStands s (s.otherOpen id) := by
  have hnotes := yieldOpening_notes s id
  unfold State.otherOpen
  dsimp only
  split
  next hc =>
    have hjoined := hnotes.toHuntNoted.join .participant
    exact stands_of_joined hc.2 (fun h => nomatch h) hjoined.flag rfl (by rw [hjoined.guardTimer]; rfl)
      fun _ => candidates_list _
  next => exact ((setFlag_hunt s id hflag).trans (yieldOpening_hunt _)).stands

/-! ### The owner's part (R112, R116 to R118) -/

theorem setOwner_hunt (s : State) (o : OwnerPart) (hs : s.hu.role ≠ .noRole) : HuntSteady s (s.setOwner o) :=
  hunt_of_lasting hs (fun h => nomatch h) (fun _ => rfl) rfl rfl rfl rfl

theorem owner_taken {s : State} {o : OwnerPart} (h : s.hu.role = .owner o) : s.hu.role ≠ .noRole := by
  rw [h]
  exact fun hh => nomatch hh

theorem joinHeard_hunt (s : State) (id : HuntId) (channel count : Nat) : HuntSteady s (s.joinHeard id channel count) := by
  unfold State.joinHeard
  split
  next hrole => exact .ite (fun _ => setOwner_hunt s _ (owner_taken hrole)) fun _ => .refl s
  · exact .refl s
  · exact .refl s

theorem readyHeard_hunt (s : State) (id : HuntId) (channel step : Nat) (named : Option HomeRef) :
    HuntSteady s (s.readyHeard id channel step named) := by
  unfold State.readyHeard
  split
  next hrole => exact .ite (fun _ => setOwner_hunt s _ (owner_taken hrole)) fun _ => .refl s
  · exact .refl s
  · exact .refl s

section Owner
variable (s : State) (id : HuntId) (o : OwnerPart) (hs : s.hu.role ≠ .noRole)
include hs

theorem queueStep_hunt (sel : Selector) : HuntSteady s (s.queueStep id o sel) :=
  (setOwner_hunt s _ hs).trans (queueNotice_unread _ _).steady

theorem queueClose_hunt (outcome : HuntOutcome) : HuntSteady s (s.queueClose id o outcome) :=
  (setOwner_hunt s _ hs).trans (queueNotice_unread _ _).steady

theorem joinsOver_hunt : HuntSteady s (s.joinsOver id o) :=
  .ite (fun _ => setOwner_hunt s _ hs) fun _ => .ite (fun _ => queueClose_hunt s id _ hs _) fun _ =>
    queueStep_hunt s id _ hs _

theorem actOn_hunt (d : Decision) : HuntSteady s (s.actOn id o d) := by
  unfold State.actOn
  split
  · exact queueStep_hunt s id o hs _
  · exact queueStep_hunt s id _ hs _
  · exact queueClose_hunt s id o hs _

theorem measure_hunt (light : Bool) : HuntSteady s (s.measure o light) := by
  have howner := setOwner_hunt s (o.tallied light) hs
  refine .ite (fun _ => .ite (fun _ => howner) fun _ => .ite (fun _ => howner) fun _ => ?_) fun _ => .refl s
  split
  · exact howner
  · exact actOn_hunt s _ _ hs _

end Owner

/-! ### The steps (R105, R114, R116) -/

/-- A participant's step writes HUNT holds and the awaited map, in a hunt that lasts (R114). -/
theorem applyStep_hunt (s : State) (k : Nat) (sel : Selector) (hs : s.hu.role ≠ .noRole) :
    HuntSteady s (s.applyStep k sel) := by
  refine hunt_of_lasting hs hs (fun h => ?_) rfl rfl rfl rfl
  have hentry : (s.applyStep k sel).entry h = if 1 ≤ h ∧ h ≤ 64 then
      { s.entry h with holds := { (s.entry h).holds with hunt := (s.darkened sel).contains h } } else Entry.free :=
    tableGet_tableMap (fun h (e : Entry) => { e with holds := { e.holds with hunt := (s.darkened sel).contains h } })
      s.roster Entry.free h
  rw [hentry]
  split
  next => rfl
  next hout => rw [entry_outside s h hout]

/-- The owner's own step keeps its ownership, and any other changes no role (R116). -/
theorem ownStep_hunt (s : State) (src : Source) :
    HuntSteady s (s.ownStep src) ∧ (s.hu.role ≠ .noRole → (s.ownStep src).hu.role ≠ .noRole) := by
  unfold State.ownStep
  split
  next hrole => exact ⟨setOwner_hunt s _ (owner_taken hrole), fun _ h => nomatch h⟩
  all_goals exact ⟨.refl s, fun h => h⟩

theorem taken_iff (r : Role) : r.taken = true ↔ r ≠ .noRole := by
  cases r <;> simp [Role.taken]

theorem stepHeard_hunt (s : State) (src : Source) (k : Nat) (sel : Selector) (hflag : s.hu.flag.isSome = true) :
    HuntSteady s (s.stepHeard src k sel) := by
  have hrestarts : HuntSteady s { s with hu := { s.hu with guardTimer := some Config.guardCycles } } :=
    hunt_of_record (fun _ => .refl _) Iff.rfl rfl rfl rfl (fun _ => hflag.symm) fun h => h
  have hguard : HuntSteady s (if s.hu.role = .participant ∧ s.draining = true then s
      else { s with hu := { s.hu with guardTimer := some Config.guardCycles } }) := .ite (fun _ => .refl s) fun _ => hrestarts
  have hrole : (if s.hu.role = .participant ∧ s.draining = true then s
      else { s with hu := { s.hu with guardTimer := some Config.guardCycles } }).hu.role = s.hu.role := by split <;> rfl
  have hown := hguard.trans (ownStep_hunt _ src).1
  refine .ite (fun hc => hown.trans (applyStep_hunt _ k sel ((ownStep_hunt _ src).2 ?_))) fun _ => hown
  rw [hrole]
  exact (taken_iff _).1 hc.1

/-! ### The stray history (R97 to R99) -/

theorem light_unread (s : State) (lw : LightWatch) : HuntUnread s { s with lw := lw } := ⟨rfl, rfl⟩

theorem handOn_hunt (s : State) : HuntSteady s s.handOn := .ite (fun _ => suspect_hunt s) fun _ => .refl s

theorem strayEntry_hunt (s : State) (light : Bool) : HuntSteady s (s.strayEntry light) := by
  obtain ⟨u, hu, hentry, -⟩ := strayEntry_tested s light
  have hentered : HuntUnread s u := (light_unread s _).trans hu.unread
  rw [hentry]
  exact .ite (fun _ => hentered.steady.trans (suspect_hunt u)) fun _ => hentered.steady

theorem quietTaken_hunt (s : State) (light : Bool) : HuntSteady s (s.quietTaken light) := by
  unfold State.quietTaken
  split
  · exact strayEntry_hunt s light
  next o hrole => exact measure_hunt s o (owner_taken hrole) light
  · exact .refl s

/-! ### The end of a hunt (R105, R106, R119, R120) -/

/-- The flag is cleared and whoever takes part leaves the hunt (R105, R106, R119). -/
theorem leaveHunt_hunt (s : State) : HuntSteady s s.clearFlag.leaveHunt := by
  obtain ⟨roster, hleft⟩ := leaveHunt_writes s.clearFlag
  have hentry (k : Nat) := leaveHunt_entry s.clearFlag k
  refine hunt_of_left (by rw [hleft]; rfl) (fun k => by rw [hentry]) (fun k => by rw [hentry]; rfl) (by rw [hleft]; rfl)
    (by rw [hleft]; rfl) (by rw [hleft]; rfl) fun _ => by rw [hleft]; rfl

theorem endHunt_hunt (s : State) (outcome : HuntOutcome) : HuntSteady s (s.clearFlag.endHunt outcome) := by
  cases hrole : s.hu.role with
  | noRole =>
    have hstays : s.clearFlag.endHunt outcome = s.clearFlag := by
      unfold State.endHunt
      rw [show s.clearFlag.hu.role = .noRole from hrole]
    rw [hstays]
    exact ⟨fun x => ⟨x.idle, fun h => absurd hrole h, rfl, x.list⟩, fun h => h, fun _ h => h, fun h => absurd hrole h⟩
  | participant =>
    have hleaves : s.clearFlag.endHunt outcome = s.clearFlag.leaveHunt := by
      unfold State.endHunt
      rw [show s.clearFlag.hu.role = .participant from hrole]
    rw [hleaves]
    exact leaveHunt_hunt s
  | owner o =>
    rw [endHunt_owner s.clearFlag outcome o hrole]
    exact (leaveHunt_hunt s).trans ((raiseAlarm_unread _ _ _).trans (emptyHistory_unread _)).steady

theorem foundHere_hunt (s : State) (id : HuntId) (r : HomeRef) : HuntSteady s (s.foundHere id r) :=
  (HuntSteady.ite (fun _ => setEntry_hunt s r.handle _ (by exact ⟨Iff.rfl, rfl⟩)) fun _ => .refl s).trans
    (raiseAlarm_unread _ _ _).steady

theorem takeFound_hunt (s : State) (id : HuntId) (outcome : HuntOutcome) : HuntSteady s (s.takeFound id outcome) := by
  unfold State.takeFound
  split
  · exact .ite (fun _ => foundHere_hunt s id _) fun _ => .refl s
  all_goals exact .refl s

theorem closeHeard_hunt (s : State) (id : HuntId) (outcome : HuntOutcome) : HuntSteady s (s.closeHeard id outcome) := by
  unfold State.closeHeard
  split
  · exact takeFound_hunt s id outcome
  · exact .ite (fun _ => (endHunt_hunt s _).trans ((takeFound_hunt _ _ _).trans (takeDeferred_hunt _))) fun _ => .refl s

end Sys2Proof.Machine
end

section
/-! PROOFS. The hunt record through every command, and obligation O7. -/

namespace Sys2Proof.Machine

/-- Where the command has a next state, the hunt record stands there. -/
def HuntStep (s : State) (o : Host.Outcome State Fault Refusal) : Prop := ∀ t, o = .next t → HuntStands s t

/-! ### One command -/

theorem HuntUnread.stands {s t : State} (x : HuntUnread s t) : HuntStands s t := x.steady.stands

theorem HuntStands.next {s t : State} (h : HuntStands s t) : HuntStep s (.next t) := by
  intro u hu
  cases hu
  exact h

theorem HuntStands.settled {s t : State} (h : HuntStands s t) : HuntStep s (.next t.settle) :=
  (HuntStands.between (.refl s) h (settle_unread t)).next

theorem HuntSteady.settled {s t : State} (h : HuntSteady s t) : HuntStep s (.next t.settle) := h.stands.settled

theorem HuntUnread.settled {s t : State} (h : HuntUnread s t) : HuntStep s (.next t.settle) := h.stands.settled

theorem huntStep_stays (s : State) : HuntStep s (.next s) := (HuntUnread.refl s).stands.next

theorem HuntStep.ite {s : State} {a b : Host.Outcome State Fault Refusal} {c : Prop} [Decidable c]
    (ha : c → HuntStep s a) (hb : ¬c → HuntStep s b) : HuntStep s (if c then a else b) := by
  split
  next h => exact ha h
  next h => exact hb h

/-- A command whose effect is settled, or which changes nothing. -/
theorem HuntStands.settledIf {s t : State} {c : Prop} [Decidable c] (h : c → HuntStands s t) :
    HuntStep s (.next (if c then t.settle else s)) := by
  split
  next hc => exact (h hc).settled
  next => exact huntStep_stays s

/-- A command that does nothing where a condition holds. -/
theorem huntStep_unless {s : State} {c : Prop} [Decidable c] {o : Host.Outcome State Fault Refusal}
    (h : ¬c → HuntStep s o) : HuntStep s (if c then .next s else o) := .ite (fun _ => huntStep_stays s) h

/-- A command that does nothing unless a condition holds. -/
theorem huntStep_when {s : State} {c : Prop} [Decidable c] {o : Host.Outcome State Fault Refusal}
    (h : c → HuntStep s o) : HuntStep s (if c then o else .next s) := .ite h fun _ => huntStep_stays s

theorem hearNotice_hunt (src : Source) (n : Notice) (act : State → State) (s : State)
    (hact : ∀ t, HuntStands t (act t)) : HuntStep s (hearNotice src n act s) := by
  refine huntStep_unless fun _ => ?_
  split
  · exact huntStep_when fun _ => (HuntStands.between (noticeCarried_unread s) (hact _) (settle_unread _)).next
  · exact (HuntStands.between (lineHeard_unread s) (hact _) (settle_unread _)).next

/-- The state an answer leaves keeps the record. -/
def AnswerHunt (s : State) (a : Answer) : Prop := HuntSteady s a.1

theorem AnswerHunt.ite {s : State} {a b : Answer} {c : Prop} [Decidable c] (ha : c → AnswerHunt s a)
    (hb : ¬c → AnswerHunt s b) : AnswerHunt s (if c then a else b) := by
  split
  next h => exact ha h
  next h => exact hb h

theorem refusedWith_hunt (s : State) (code : ResultCode) : AnswerHunt s (s.refusedWith code) := HuntSteady.refl s

theorem done_hunt {s t : State} (h : HuntSteady s t) : AnswerHunt s t.done := h

theorem onHome_hunt (s : State) (serial : Serial) (act : Nat → Answer) (hact : ∀ h, AnswerHunt s (act h)) :
    AnswerHunt s (s.onHome serial act) := by
  unfold State.onHome
  split
  · exact refusedWith_hunt s _
  · exact hact _

theorem request_hunt {α : Type} (kind : RequestKind) (hd : RequestHeader) (args : Option α) (act : α → State → Answer)
    (s : State) (hact : ∀ a t, AnswerHunt t (act a t)) : HuntStep s (request kind hd args act s) := by
  have hheard := lineHeard_unread s
  have hanswer : AnswerHunt s.lineHeard (s.lineHeard.answer kind args act) := by
    refine .ite (fun _ => refusedWith_hunt _ _) fun _ => ?_
    split
    · exact refusedWith_hunt _ _
    · exact hact _ _
  refine huntStep_unless fun _ => .ite (fun _ => .ite (fun _ => (line_unread s s.slp _ s.rq).stands.next) fun _ =>
    .ite (fun _ => hheard.stands.next) fun _ => ?_) fun _ => hheard.stands.next
  have hanswered := HuntSteady.trans hheard.steady hanswer
  exact (hanswered.trans (line_unread _ _ _ _).steady).settled

theorem broadcast_hunt {α : Type} (hd : RequestHeader) (args : Option α) (act : α → State → State) (s : State)
    (hact : ∀ a t, HuntUnread t (act a t)) : HuntStep s (broadcast hd args act s) := by
  have hheard := lineHeard_unread s
  refine huntStep_unless fun _ => .ite (fun _ => .ite (fun _ => (line_unread s s.slp _ s.rq).stands.next) fun _ =>
    .ite (fun _ => hheard.stands.next) fun _ => .ite (fun _ => hheard.stands.next) fun _ => ?_) fun _ => hheard.stands.next
  split
  · exact hheard.stands.next
  · exact (hheard.trans (hact _ _)).settled

/-! ### The commands of the part's own blocks -/

theorem execResetAsserted_hunt (s : State) : HuntStep s (execResetAsserted s) := by
  have hheld : HuntUnread s { s with
    resetHeld := true, slp := { s.slp with transmitting := none }, ports := Ports.reset } := ⟨rfl, rfl⟩
  exact hheld.stands.next

theorem execImageLoadComplete_hunt (ws : List ImageWord) (s : State) : HuntStep s (execImageLoadComplete ws s) :=
  huntStep_unless fun _ => huntStep_when fun _ => (loaded_unread s ws).settled

theorem execNoImage_hunt (s : State) : HuntStep s (execNoImage s) :=
  huntStep_unless fun _ => huntStep_when fun _ => (enterFault_unread s _ _ _).settled

theorem execCycleStart_hunt (s : State) : HuntStep s (execCycleStart s) := by
  have hbegun : HuntSteady s s.tick.reachMap.emptyDownstream :=
    (tick_hunt s).trans ((reachMap_hunt _).trans (line_unread _ _ _ _).steady)
  exact huntStep_unless fun _ => (HuntSteady.ite (fun _ => hbegun.trans (buildMap_hunt _ _)) fun _ => hbegun).settled

theorem execMessageFailure_hunt (h : Nat) (s : State) : HuntStep s (execMessageFailure h s) := by
  refine huntStep_unless fun _ => ?_
  split
  · exact huntStep_stays s
  · exact HuntStands.settledIf fun _ => (messageFailed_hunt s h _).stands

theorem execReleaseDropped_hunt (h : Nat) (s : State) : HuntStep s (execReleaseDropped h s) := by
  refine huntStep_unless fun _ => ?_
  split
  · exact huntStep_stays s
  · exact HuntStands.settledIf fun _ => (setEntry_hunt s h _ (by exact ⟨Iff.rfl, rfl⟩)).stands

theorem execDataRangeObservation_hunt (r : WindowRef) (o : BurstObs) (s : State) :
    HuntStep s (execDataRangeObservation r o s) := by
  refine huntStep_unless fun _ => huntStep_when fun _ => ?_
  split
  · exact huntStep_stays s
  · have hopened : HuntUnread s (s.opened r) := ⟨rfl, rfl⟩
    exact huntStep_when fun _ => (hopened.steady.trans (observeBurst_hunt _ _ _ _)).settled

theorem clearOutstanding_unread (s : State) (r : WindowRef) : HuntUnread s (s.clearOutstanding r) := ⟨rfl, rfl⟩

theorem execDiscoverObservation_hunt (r : WindowRef) (o : DiscoverObs) (s : State) :
    HuntStep s (execDiscoverObservation r o s) := by
  refine huntStep_unless fun _ => huntStep_when fun _ => ?_
  split
  · exact huntStep_stays s
  · exact HuntStands.settledIf fun _ =>
      ((clearOutstanding_unread s r).takesIn.trans (discovered_takesIn _ o)).stands

theorem execQuietObservation_hunt (r : WindowRef) (light : Bool) (s : State) :
    HuntStep s (execQuietObservation r light s) := by
  refine huntStep_unless fun _ => huntStep_when fun _ => ?_
  split
  · exact huntStep_stays s
  · exact ((clearOutstanding_unread s r).steady.trans (quietTaken_hunt _ light)).settled

theorem execDownstreamPacket_hunt (h label bytes : Nat) (s : State) :
    HuntStep s (execDownstreamPacket h label bytes s) := by
  have hdiscarded := line_unread s s.slp { s.ports with opticalOut := none } s.rq
  refine huntStep_unless fun _ => ?_
  split
  · exact hdiscarded.stands.next
  · exact .ite (fun _ => ((changeAcct_unread s h _).trans (line_unread _ _ _ _)).settled) fun _ => hdiscarded.stands.next

theorem execClaimHoldExpiry_hunt (h : Nat) (s : State) : HuntStep s (execClaimHoldExpiry h s) := by
  refine huntStep_unless fun _ => ?_
  split
  · exact huntStep_when fun hc => (claimHeldOut_hunt s h _ (by rw [hc.2]; decide)).settled
  · exact huntStep_stays s
  · exact huntStep_stays s

theorem execLostTimerExpiry_hunt (h : Nat) (s : State) : HuntStep s (execLostTimerExpiry h s) :=
  huntStep_unless fun _ => HuntStands.settledIf fun hc => (release_hunt s h _ _ (by rw [hc.1]; decide)).stands

theorem execHandoverTimerExpiry_hunt (h : Nat) (s : State) : HuntStep s (execHandoverTimerExpiry h s) := by
  refine huntStep_unless fun _ => ?_
  split
  · exact huntStep_stays s
  · exact HuntStands.settledIf fun _ => (handoverExpired_hunt s h _).stands

theorem execInboundTimerExpiry_hunt (h : Nat) (s : State) : HuntStep s (execInboundTimerExpiry h s) := by
  refine huntStep_unless fun _ => ?_
  split
  · exact huntStep_stays s
  · exact HuntStands.settledIf fun _ => ((freeEntry_hunt s h).trans (withdraw_unread _ _).steady).stands

theorem execGuardExpiry_hunt (s : State) : HuntStep s (execGuardExpiry s) :=
  huntStep_unless fun _ => HuntStands.settledIf fun _ => ((endHunt_hunt s _).trans (takeDeferred_hunt _)).stands

theorem execJoinTimerExpiry_hunt (s : State) : HuntStep s (execJoinTimerExpiry s) := by
  refine huntStep_unless fun _ => ?_
  split
  next o id hrole _ => exact HuntStands.settledIf fun _ => (joinsOver_hunt s id o (owner_taken hrole)).stands
  all_goals exact huntStep_stays s

theorem execReadyTimerExpiry_hunt (s : State) : HuntStep s (execReadyTimerExpiry s) := by
  refine huntStep_unless fun _ => ?_
  split
  next o id hrole _ =>
    have hs := owner_taken hrole
    exact HuntStands.settledIf fun _ =>
      (HuntSteady.ite (fun _ => setOwner_hunt s _ hs) fun _ => queueClose_hunt s id _ hs _).stands
  all_goals exact huntStep_stays s

theorem execListeningTimerExpiry_hunt (s : State) : HuntStep s (execListeningTimerExpiry s) :=
  huntStep_unless fun _ => huntStep_when fun _ => (startup_unread s _).stands.next

theorem execRepeatTimerExpiry_hunt (a : AlarmSource) (s : State) : HuntStep s (execRepeatTimerExpiry a s) := by
  refine huntStep_unless fun _ => ?_
  split
  · exact huntStep_stays s
  · exact HuntStands.settledIf fun _ => (repeated_unread s _).stands

/-! ### The commands of the line -/

theorem execCarriedIgnoredFrame_hunt (cls : BitVec 3) (sender : Station) (kind : BitVec 4) (s : State) :
    HuntStep s (execCarriedIgnoredFrame cls sender kind s) := huntStep_unless fun _ => (lineHeard_unread s).stands.next

theorem execFrameCheckFailed_hunt (f : RawFrame) (s : State) : HuntStep s (execFrameCheckFailed f s) :=
  huntStep_unless fun _ => huntStep_unless fun _ => (line_unread s s.slp _ s.rq).stands.next

theorem execLineIdleContend_hunt (rival : Option (BitVec 11)) (s : State) :
    HuntStep s (execLineIdleContend rival s) := by
  refine huntStep_unless fun _ => huntStep_when fun _ => ?_
  split
  · exact huntStep_stays s
  · exact huntStep_when fun _ => (line_unread s _ s.ports s.rq).stands.next

theorem execOwnFrameVoided_hunt (droveVoid : Bool) (s : State) : HuntStep s (execOwnFrameVoided droveVoid s) := by
  refine huntStep_unless fun _ => ?_
  split
  · exact huntStep_stays s
  · have hvoided := (line_unread s
      { s.slp with transmitting := none, voidCount := satAdd Config.voidLimit s.slp.voidCount 1 }
      { s.ports with voidDriven := droveVoid } s.rq).steady
    exact ((HuntSteady.ite (fun _ => hvoided.trans (removeWithdrawn_hunt _)) fun _ => hvoided).trans
      (detachIfDue_hunt _)).settled

theorem execDetachTimerExpiry_hunt (s : State) : HuntStep s (execDetachTimerExpiry s) :=
  huntStep_unless fun _ => huntStep_when fun _ => (line_unread s _ s.ports s.rq).settled

theorem execResultCarried_hunt (straps : Station) (s : State) : HuntStep s (execResultCarried straps s) := by
  refine huntStep_unless fun _ => ?_
  split
  next rest _ _ =>
    have hcarried := ((line_unread s s.slp s.ports { s.rq with results := rest }).trans (ownCarried_unread _)).steady
    exact (HuntSteady.ite (fun _ => hcarried.trans (restarted_hunt _ straps)) fun _ => hcarried).settled
  · exact huntStep_stays s

theorem execReportCarried_hunt (s : State) : HuntStep s (execReportCarried s) := by
  refine huntStep_unless fun _ => ?_
  split
  · exact ((reportGone_unread s _).trans (ownCarried_unread _)).settled
  · exact huntStep_stays s

theorem execUsageFirstPartCarried_hunt (s : State) : HuntStep s (execUsageFirstPartCarried s) := by
  refine huntStep_unless fun _ => ?_
  split
  · split
    · exact ((line_unread s _ s.ports s.rq).trans (ownCarried_unread _)).settled
    · exact huntStep_stays s
  · exact huntStep_stays s

theorem execUsageRecordCarried_hunt (s : State) : HuntStep s (execUsageRecordCarried s) := by
  refine huntStep_unless fun _ => ?_
  split
  · split
    · exact ((recordCarried_hunt s _).trans (ownCarried_unread _).steady).settled
    · exact huntStep_stays s
  · exact huntStep_stays s

theorem execDrainComplete_hunt (straps : Station) (s : State) : HuntStep s (execDrainComplete straps s) :=
  huntStep_unless fun _ => huntStep_when fun _ => (powerOn_hunt s straps).stands.next

theorem execDrainTimerExpiry_hunt (straps : Station) (s : State) : HuntStep s (execDrainTimerExpiry straps s) :=
  huntStep_unless fun _ => huntStep_when fun _ => (powerOn_hunt s straps).stands.next

/-! ### The carried notices -/

/-- A notice whose carriage acts by its source: as the own one, or as another's. -/
theorem hearNotice_huntBySource (src : Source) (n : Notice) (own : State → State) (other : Station → State → State)
    (s : State) (hown : ∀ t, HuntStands t (own t)) (hother : ∀ x t, HuntStands t (other x t)) :
    HuntStep s (hearNotice src n (fun t => match src with
      | .own => own t
      | .other x => other x t) s) := by
  refine hearNotice_hunt src n _ s fun t => ?_
  cases src with
  | own => exact hown t
  | other x => exact hother x t

/-- A notice whose own carriage no block acts on (R174). -/
theorem hearNotice_huntOther (src : Source) (n : Notice) (other : State → State) (s : State)
    (hother : ∀ t, HuntStands t (other t)) :
    HuntStep s (hearNotice src n (fun t => match src with
      | .own => t
      | .other _ => other t) s) :=
  hearNotice_huntBySource src n (fun t => t) (fun _ => other) s (fun t => (HuntUnread.refl t).stands) fun _ => hother

theorem execClaim_hunt (src : Source) (serial : Serial) (channel : Nat) (s : State) :
    HuntStep s (execClaim src serial channel s) :=
  hearNotice_huntBySource src _ _ _ s (fun t => (claimCarried_unread t serial).stands) fun _ t =>
    (claimHeard_hunt t serial channel).stands

theorem execHeld_hunt (src : Source) (serial : Serial) (channel : Nat) (s : State) :
    HuntStep s (execHeld src serial channel s) :=
  hearNotice_huntOther src _ _ s fun t => (heldHeard_hunt t serial channel).stands

theorem execOffer_hunt (src : Source) (serial : Serial) (source target assured peak weight eqDelay : Nat) (s : State) :
    HuntStep s (execOffer src serial source target assured peak weight eqDelay s) :=
  hearNotice_huntOther src _ _ s fun t => (offerHeard_takesIn t serial source target _ eqDelay).stands

theorem execAccept_hunt (src : Source) (serial : Serial) (channel newHandle : Nat) (s : State) :
    HuntStep s (execAccept src serial channel newHandle s) :=
  hearNotice_huntOther src _ _ s fun t => (acceptHeard_hunt t serial channel newHandle).stands

theorem execRefuse_hunt (src : Source) (serial : Serial) (channel : Nat) (reason : RefuseReason) (s : State) :
    HuntStep s (execRefuse src serial channel reason s) :=
  hearNotice_huntOther src _ _ s fun t => (refuseHeard_hunt t serial channel reason).stands

theorem execAccount_hunt (src : Source) (serial : Serial) (source : Nat) (mode : Mode)
    (credit base lowWater residueUp residueDown period : Nat) (s : State) :
    HuntStep s (execAccount src serial source mode credit base lowWater residueUp residueDown period s) :=
  hearNotice_huntOther src _ _ s fun t => (accountHeard_hunt t serial source _).stands

theorem execTaken_hunt (src : Source) (serial : Serial) (channel : Nat) (s : State) :
    HuntStep s (execTaken src serial channel s) :=
  hearNotice_huntBySource src _ _ _ s (fun t => (takenCarried_hunt t serial).stands) fun _ t =>
    (takenHeard_hunt t serial channel).stands

theorem execReclaim_hunt (src : Source) (serial : Serial) (source : Nat) (s : State) :
    HuntStep s (execReclaim src serial source s) :=
  hearNotice_huntBySource src _ _ _ s (fun t => (reclaimCarried_hunt t serial).stands) fun _ t =>
    (reclaimHeard_hunt t serial source).stands

theorem execPresent_hunt (src : Source) (channel : Nat) (incumbent : Bool) (s : State) :
    HuntStep s (execPresent src channel incumbent s) :=
  hearNotice_huntBySource src _ _ _ s (fun t => (presentCarried_unread t incumbent).stands) fun x t =>
    (HuntUnread.ite (fun _ => presentHeard_unread t x incumbent) fun _ => .refl t).stands

/-- A hunt is joined at its HUNT_OPEN, with the flag clear (R105, R108, R111). -/
theorem execHuntOpen_hunt (src : Source) (id : HuntId) (s : State) : HuntStep s (execHuntOpen src id s) := by
  refine hearNotice_hunt src _ _ s fun t => ?_
  split
  next => exact (HuntUnread.refl t).stands
  next hset =>
    have hflag : t.hu.flag = none := Option.not_isSome_iff_eq_none.1 hset
    cases src with
    | own => exact ownOpen_stands t id hflag
    | other x => exact otherOpen_stands t id hflag

theorem execHuntStep_hunt (src : Source) (id : HuntId) (step : Nat) (selector : Selector) (s : State) :
    HuntStep s (execHuntStep src id step selector s) := by
  refine hearNotice_hunt src _ _ s fun t => HuntSteady.stands ?_
  split
  next hflag => exact (setFlag_hunt t id hflag).trans (yieldOpening_hunt _)
  next f hflag => exact .ite (fun _ => stepHeard_hunt t src step selector (by rw [hflag]; rfl)) fun _ => .refl t

theorem execHuntJoin_hunt (src : Source) (id : HuntId) (channel count : Nat) (s : State) :
    HuntStep s (execHuntJoin src id channel count s) :=
  hearNotice_hunt src _ _ s fun t => (joinHeard_hunt t id channel count).stands

theorem execHuntReady_hunt (src : Source) (id : HuntId) (channel step : Nat) (named : Option HomeRef) (s : State) :
    HuntStep s (execHuntReady src id channel step named s) :=
  hearNotice_hunt src _ _ s fun t => (readyHeard_hunt t id channel step named).stands

theorem execHuntClose_hunt (src : Source) (id : HuntId) (outcome : HuntOutcome) (s : State) :
    HuntStep s (execHuntClose src id outcome s) :=
  hearNotice_hunt src _ _ s fun t => (closeHeard_hunt t id outcome).stands

/-! ### The requests -/

/-- A request on a home whose answer writes other fields of its entry than the hunt reads. -/
theorem setHome_answers (s : State) (h : Nat) (e : Entry) (ua : Allocator) (code : ResultCode) (data : ResultData)
    (he : (s.entry h).HuntSame e) : AnswerHunt s ({ s.setEntry h e with ua := ua }, code, data) :=
  (setEntry_hunt s h e he).trans (HuntUnread.steady ⟨rfl, rfl⟩)

theorem setProfileAt_hunt (s : State) (p : Profile) (h : Nat) : AnswerHunt s (s.setProfileAt p h) :=
  .ite (fun _ => .ite (fun _ => refusedWith_hunt s _) fun _ => .ite
    (fun _ => setHome_answers s h _ _ _ _ (by exact ⟨Iff.rfl, rfl⟩)) fun _ => refusedWith_hunt s _)
    fun _ => refusedWith_hunt s _

theorem setAccountAt_hunt (s : State) (a : AccountArgs) (h : Nat) : AnswerHunt s (s.setAccountAt a h) := by
  refine .ite (fun _ => ?_) fun _ => refusedWith_hunt s _
  split
  · exact refusedWith_hunt s _
  · exact done_hunt (changeAcct_unread s h _).steady
  · exact done_hunt (.refl s)

theorem refillAt_hunt (s : State) (amount h : Nat) : AnswerHunt s (s.refillAt amount h) := by
  refine .ite (fun _ => ?_) fun _ => refusedWith_hunt s _
  split
  · exact (changeAcct_unread s h _).steady
  · exact done_hunt (.refl s)

theorem startMove_hunt (s : State) (h : Nat) (serial : Serial) (target : Nat) (hs : (s.entry h).state ≠ .free) :
    HuntSteady s (s.startMove h serial target) := by
  have hleaves : (s.entry h).HuntSame { s.entry h with
      state := .leaving, handover := some (Handover.out target s.img.handoverTime) } :=
    .of_held hs (fun hh => nomatch hh) rfl
  exact (setEntry_hunt s h _ hleaves).trans (queueNotice_unread _ _).steady

theorem moveAt_hunt (s : State) (serial : Serial) (target h : Nat) : AnswerHunt s (s.moveAt serial target h) := by
  have hno (code : ResultCode) := refusedWith_hunt s code
  refine .ite (fun _ => hno _) fun _ => .ite (fun _ => hno _) fun _ => .ite (fun _ => hno _) fun hc =>
    .ite (fun _ => hno _) fun _ => done_hunt (startMove_hunt s h serial target ?_)
  have hactive : (s.entry h).state = .active := Decidable.not_not.1 fun hs => hc (.inl hs)
  rw [hactive]
  decide

/-- HOLD and CLEAR_HOLD set and clear MANAGER and ROGUE, never HUNT (R29). -/
theorem change_hunt (x : Holds) (code : Nat) (set : Bool) : (x.change code set).hunt = x.hunt := by
  unfold Holds.change
  split <;> rfl

theorem holdRequest_hunt (s : State) (serial : Serial) (code : Nat) (flag : Byte) :
    AnswerHunt s (s.holdRequest serial code flag) :=
  .ite (fun _ => onHome_hunt s serial _ fun h => done_hunt (setEntry_hunt s h _ (by exact ⟨Iff.rfl, change_hunt _ _ _⟩)))
    fun _ => .ite (fun _ => refusedWith_hunt s _) fun _ => onHome_hunt s serial _ fun _ => refusedWith_hunt s _

/-- The Usage Meter's and the Enrolment Engine's own fields are none the hunt reads. -/
theorem meter_unread (s : State) (um : UsageMeter) (ee : Enrolment) : HuntUnread s { s with um := um, ee := ee } :=
  ⟨rfl, rfl⟩

theorem closePeriods_unread (s : State) (p : Nat) : HuntUnread s (s.closePeriods p) := by
  have hclose (t : State) (h : Nat) : HuntUnread t (t.closeAccount p h) := by
    unfold State.closeAccount
    split
    · exact .refl t
    · exact .ite (fun _ => changeAcct_unread t h _) fun _ => .refl t
  have hclosed := HuntUnread.foldl (State.closeAccount p) hclose s handles
  unfold State.closePeriods
  dsimp only
  generalize handles.foldl (State.closeAccount p) s = t at hclosed ⊢
  exact hclosed.trans (meter_unread t _ t.ee)

theorem discovery_hunt (s : State) (f : Config.FlagReading) : AnswerHunt s (s.discovery f) := by
  unfold State.discovery
  split
  · exact .ite (fun _ => refusedWith_hunt s _) fun _ => done_hunt (meter_unread s s.um _).steady
  · exact done_hunt (meter_unread s s.um _).steady
  · exact refusedWith_hunt s _

theorem execSetProfile_hunt (hd : RequestHeader) (d : List Byte) (s : State) : HuntStep s (execSetProfile hd d s) :=
  request_hunt _ hd _ _ s fun a t => onHome_hunt t a.1 _ fun h => setProfileAt_hunt t a.2 h

theorem execSetAccount_hunt (hd : RequestHeader) (d : List Byte) (s : State) : HuntStep s (execSetAccount hd d s) :=
  request_hunt _ hd _ _ s fun a t => onHome_hunt t a.serial _ fun h => setAccountAt_hunt t a h

theorem execRefill_hunt (hd : RequestHeader) (d : List Byte) (s : State) : HuntStep s (execRefill hd d s) :=
  request_hunt _ hd _ _ s fun a t => onHome_hunt t a.1 _ fun h => refillAt_hunt t a.2 h

theorem execMove_hunt (hd : RequestHeader) (d : List Byte) (s : State) : HuntStep s (execMove hd d s) :=
  request_hunt _ hd _ _ s fun a t => .ite (fun _ => refusedWith_hunt t _) fun _ => .ite (fun _ => refusedWith_hunt t _)
    fun _ => onHome_hunt t a.1 _ fun h => moveAt_hunt t a.1 a.2 h

theorem execRemove_hunt (hd : RequestHeader) (d : List Byte) (s : State) : HuntStep s (execRemove hd d s) :=
  request_hunt _ hd _ _ s fun serial t => onHome_hunt t serial _ fun h =>
    .ite (fun hs => done_hunt (release_hunt t h .removed true (held_of_booked (settable_booked hs))))
      fun _ => refusedWith_hunt t _

theorem execHold_hunt (hd : RequestHeader) (d : List Byte) (s : State) : HuntStep s (execHold hd d s) :=
  request_hunt _ hd _ _ s fun a t => holdRequest_hunt t a.1 a.2.1 a.2.2

theorem execClearHold_hunt (hd : RequestHeader) (d : List Byte) (s : State) : HuntStep s (execClearHold hd d s) :=
  request_hunt _ hd _ _ s fun a t => holdRequest_hunt t a.1 a.2.1 a.2.2

theorem execQueryHome_hunt (hd : RequestHeader) (d : List Byte) (s : State) : HuntStep s (execQueryHome hd d s) :=
  request_hunt _ hd _ _ s fun a t => .ite (fun _ => onHome_hunt t a.1 _ fun _ => HuntSteady.refl t) fun _ =>
    .ite (fun _ => refusedWith_hunt t _) fun _ => onHome_hunt t a.1 _ fun _ => refusedWith_hunt t _

theorem execListHomes_hunt (hd : RequestHeader) (d : List Byte) (s : State) : HuntStep s (execListHomes hd d s) :=
  request_hunt _ hd _ _ s fun _ t => .ite (fun _ => refusedWith_hunt t _) fun _ => HuntSteady.refl t

theorem execSetTariff_hunt (hd : RequestHeader) (d : List Byte) (guardPin : Bool) (s : State) :
    HuntStep s (execSetTariff hd d guardPin s) :=
  request_hunt _ hd _ _ s fun _ t => .ite (fun _ => refusedWith_hunt t _) fun _ => .ite (fun _ => refusedWith_hunt t _)
    fun _ => .ite (fun _ => refusedWith_hunt t _) fun _ => done_hunt (meter_unread t _ t.ee).steady

theorem execFixTariff_hunt (hd : RequestHeader) (d : List Byte) (guardPin : Bool) (s : State) :
    HuntStep s (execFixTariff hd d guardPin s) :=
  request_hunt _ hd _ _ s fun _ t => .ite (fun _ => refusedWith_hunt t _) fun _ => .ite (fun _ => refusedWith_hunt t _)
    fun _ => done_hunt (meter_unread t _ t.ee).steady

theorem execSetDiscovery_hunt (hd : RequestHeader) (d : List Byte) (s : State) : HuntStep s (execSetDiscovery hd d s) :=
  request_hunt _ hd _ _ s fun b t => discovery_hunt t (readFlag b)

theorem execStartHunt_hunt (hd : RequestHeader) (d : List Byte) (s : State) : HuntStep s (execStartHunt hd d s) :=
  request_hunt _ hd _ _ s fun _ t => .ite (fun _ => refusedWith_hunt t _) fun _ => .ite (fun _ => refusedWith_hunt t _)
    fun _ => .ite (fun _ => done_hunt (.refl t)) fun _ => done_hunt (openHunt_hunt t)

theorem execRestart_hunt (hd : RequestHeader) (d : List Byte) (s : State) : HuntStep s (execRestart hd d s) :=
  request_hunt _ hd _ _ s fun _ t => .ite (fun _ => refusedWith_hunt t _) fun _ => done_hunt (.refl t)

theorem execBand_hunt (hd : RequestHeader) (d : List Byte) (s : State) : HuntStep s (execBand hd d s) :=
  broadcast_hunt hd _ _ s fun _ t => .ite (fun _ => .refl t) fun _ => meter_unread t _ t.ee

theorem execClosePeriod_hunt (hd : RequestHeader) (d : List Byte) (s : State) : HuntStep s (execClosePeriod hd d s) :=
  broadcast_hunt hd _ _ s fun p t => .ite (fun _ => .refl t) fun _ => closePeriods_unread t p

theorem execSetFreeLabels_hunt (hd : RequestHeader) (d : List Byte) (s : State) :
    HuntStep s (execSetFreeLabels hd d s) := broadcast_hunt hd _ _ s fun _ t => meter_unread t _ t.ee

/-! ### Every command -/

theorem exec_hunt (i : Instr) (s : State) : HuntStep s (exec i s) := by
  cases i with
  | powerOnReset straps => exact (powerOn_hunt s straps).stands.next
  | resetAsserted => exact execResetAsserted_hunt s
  | imageLoadComplete words => exact execImageLoadComplete_hunt words s
  | noImage => exact execNoImage_hunt s
  | cycleStart => exact execCycleStart_hunt s
  | messageFailure handle => exact execMessageFailure_hunt handle s
  | releaseDropped handle => exact execReleaseDropped_hunt handle s
  | dataRangeObservation window obs => exact execDataRangeObservation_hunt window obs s
  | discoverObservation window obs => exact execDiscoverObservation_hunt window obs s
  | quietObservation window light => exact execQuietObservation_hunt window light s
  | downstreamPacket handle label bytes => exact execDownstreamPacket_hunt handle label bytes s
  | claim src serial channel => exact execClaim_hunt src serial channel s
  | held src serial channel => exact execHeld_hunt src serial channel s
  | offer src serial source target assured peak weight eqDelay =>
    exact execOffer_hunt src serial source target assured peak weight eqDelay s
  | accept src serial channel newHandle => exact execAccept_hunt src serial channel newHandle s
  | refuse src serial channel reason => exact execRefuse_hunt src serial channel reason s
  | account src serial source mode credit base lowWater residueUp residueDown period =>
    exact execAccount_hunt src serial source mode credit base lowWater residueUp residueDown period s
  | taken src serial channel => exact execTaken_hunt src serial channel s
  | reclaim src serial source => exact execReclaim_hunt src serial source s
  | huntOpen src id => exact execHuntOpen_hunt src id s
  | huntJoin src id channel count => exact execHuntJoin_hunt src id channel count s
  | huntStep src id step selector => exact execHuntStep_hunt src id step selector s
  | huntReady src id channel step named => exact execHuntReady_hunt src id channel step named s
  | huntClose src id outcome => exact execHuntClose_hunt src id outcome s
  | present src channel incumbent => exact execPresent_hunt src channel incumbent s
  | carriedIgnoredFrame cls sender kind => exact execCarriedIgnoredFrame_hunt cls sender kind s
  | frameCheckFailed frame => exact execFrameCheckFailed_hunt frame s
  | lineIdleContend rival => exact execLineIdleContend_hunt rival s
  | ownFrameVoided droveVoid => exact execOwnFrameVoided_hunt droveVoid s
  | detachTimerExpiry => exact execDetachTimerExpiry_hunt s
  | resultCarried straps => exact execResultCarried_hunt straps s
  | reportCarried => exact execReportCarried_hunt s
  | usageFirstPartCarried => exact execUsageFirstPartCarried_hunt s
  | usageRecordCarried => exact execUsageRecordCarried_hunt s
  | drainComplete straps => exact execDrainComplete_hunt straps s
  | drainTimerExpiry straps => exact execDrainTimerExpiry_hunt straps s
  | claimHoldExpiry handle => exact execClaimHoldExpiry_hunt handle s
  | lostTimerExpiry handle => exact execLostTimerExpiry_hunt handle s
  | handoverTimerExpiry handle => exact execHandoverTimerExpiry_hunt handle s
  | inboundTimerExpiry handle => exact execInboundTimerExpiry_hunt handle s
  | guardExpiry => exact execGuardExpiry_hunt s
  | joinTimerExpiry => exact execJoinTimerExpiry_hunt s
  | readyTimerExpiry => exact execReadyTimerExpiry_hunt s
  | listeningTimerExpiry => exact execListeningTimerExpiry_hunt s
  | repeatTimerExpiry source => exact execRepeatTimerExpiry_hunt source s
  | setProfile hd data => exact execSetProfile_hunt hd data s
  | setAccount hd data => exact execSetAccount_hunt hd data s
  | refill hd data => exact execRefill_hunt hd data s
  | move hd data => exact execMove_hunt hd data s
  | remove hd data => exact execRemove_hunt hd data s
  | hold hd data => exact execHold_hunt hd data s
  | clearHold hd data => exact execClearHold_hunt hd data s
  | queryHome hd data => exact execQueryHome_hunt hd data s
  | listHomes hd data => exact execListHomes_hunt hd data s
  | setTariff hd data guardPin => exact execSetTariff_hunt hd data guardPin s
  | fixTariff hd data guardPin => exact execFixTariff_hunt hd data guardPin s
  | setDiscovery hd data => exact execSetDiscovery_hunt hd data s
  | startHunt hd data => exact execStartHunt_hunt hd data s
  | restart hd data => exact execRestart_hunt hd data s
  | band hd data => exact execBand_hunt hd data s
  | closePeriod hd data => exact execClosePeriod_hunt hd data s
  | setFreeLabels hd data => exact execSetFreeLabels_hunt hd data s

/-- A step takes the command at the front of the queue and executes it, or idles. -/
theorem step_hunt (s t : State) (hstep : step s = .next t) : HuntStands s t := by
  have hqueue : HuntUnread s s.dequeue := ⟨rfl, rfl⟩
  unfold step at hstep
  split at hstep
  next => cases hstep; exact (HuntUnread.refl s).stands
  next c _ _ => exact HuntStands.between hqueue (exec_hunt c s.dequeue t hstep) (.refl t)

/-- Settles O7: every operation keeps the law of the hunt record; only a join writes the list anew, only a freed home
gains a dead mark, and no command both frees a home and takes one in. -/
theorem huntKept : Obligations.HuntKept := by
  unfold Obligations.HuntKept
  refine ⟨fun s t hinv hstep => ?_, fun s t hstep hs ht => ?_⟩
  · exact (huntInv_iff t).2 ((step_hunt s t hstep).law ((huntInv_iff s).1 hinv))
  · obtain ⟨freed, hmarks⟩ := (step_hunt s t hstep).list hs ht
    exact ⟨freed, hmarks.list, hmarks.free, hmarks.named⟩

end Sys2Proof.Machine
end

section
/-! PROOFS. The parts of a frozen list (R113): obligation O37. -/

namespace Sys2Proof.Machine

/-! ### Where the parts begin (R113) -/

theorem partStart_zero (n level : Nat) : partStart n level 0 = 0 := by
  unfold partStart
  rw [Nat.zero_mul, Nat.zero_div]

theorem partStart_end (n level : Nat) : partStart n level (2 ^ level) = n :=
  Nat.mul_div_cancel_left n (Nat.two_pow_pos level)

theorem partStart_mono (n level : Nat) {i j : Nat} (h : i ≤ j) : partStart n level i ≤ partStart n level j :=
  Nat.div_le_div_right (Nat.mul_le_mul_right n h)

/-- A part begins where its lower child does. -/
theorem partStart_child (n level j : Nat) : partStart n (level + 1) (2 * j) = partStart n level j := by
  unfold partStart
  rw [Nat.pow_succ', Nat.mul_assoc, Nat.mul_div_mul_left _ _ Nat.two_pos]

/-! ### The runs of a list -/

/-- Two runs of a list that follow each other are one run. -/
theorem runs_append {α : Type} (xs : List α) {a b c : Nat} (hab : a ≤ b) (hbc : b ≤ c) :
    (xs.drop a).take (b - a) ++ (xs.drop b).take (c - b) = (xs.drop a).take (c - a) := by
  have hspan : c - a = (b - a) + (c - b) := by omega
  have hnext : (xs.drop a).drop (b - a) = xs.drop b := by rw [List.drop_drop, Nat.add_sub_cancel' hab]
  rw [hspan, List.take_add, hnext]

/-- The first m parts of a level are the list up to where part m begins. -/
theorem parts_take {α : Type} (xs : List α) (level m : Nat) :
    ((List.range m).flatMap fun j => partOf xs level j) = xs.take (partStart xs.length level m) := by
  induction m with
  | zero => rw [partStart_zero]; rfl
  | succ m ih =>
    have hrun := runs_append xs (Nat.zero_le _) (partStart_mono xs.length level (Nat.le_succ m))
    rw [List.range_succ, List.flatMap_append, ih, List.flatMap_singleton]
    exact hrun

/-- The parts of a level cover the list. -/
theorem parts_cover {α : Type} (xs : List α) (level : Nat) :
    ((List.range (2 ^ level)).flatMap fun j => partOf xs level j) = xs := by
  rw [parts_take, partStart_end, List.take_length]

/-- The two children of a part cut it in two. -/
theorem children_append {α : Type} (xs : List α) (level j : Nat) :
    partOf xs (level + 1) (2 * j) ++ partOf xs (level + 1) (2 * j + 1) = partOf xs level j := by
  have hstart := partStart_child xs.length level j
  have hend : partStart xs.length (level + 1) (2 * j + 1 + 1) = partStart xs.length level (j + 1) :=
    partStart_child xs.length level (j + 1)
  have hruns := runs_append xs (partStart_mono xs.length (level + 1) (Nat.le_succ (2 * j)))
    (partStart_mono xs.length (level + 1) (Nat.le_succ (2 * j + 1)))
  rw [hend, hstart] at hruns
  unfold partOf partSize
  rw [hend, hstart]
  exact hruns

/-- Settles O37: the parts of a level are runs that follow each other from the first position to the last. -/
theorem partsCover : Obligations.PartsCover := by
  unfold Obligations.PartsCover
  exact fun _ xs level => ⟨parts_cover xs level, fun j _ => children_append xs level j⟩

end Sys2Proof.Machine
end

section
/-! PROOFS. The owner's decision at the end of a measurement (R118): obligation O38. -/

namespace Sys2Proof.Machine

/-! ### The children of a part (R113) -/

/-- Between two quotients at least two apart lies the quotient of the middle, one away from either at least. -/
theorem middle_div {x y d : Nat} (hd : 0 < d) (h : x / d + 2 ≤ y / d) :
    x / d + 1 ≤ (x + y) / (d * 2) ∧ (x + y) / (d * 2) + 1 ≤ y / d := by
  obtain ⟨k, hk⟩ := Nat.exists_eq_add_of_le h
  have hx := Nat.div_add_mod x d
  have hy := Nat.div_add_mod y d
  have hxlt := Nat.mod_lt x hd
  have hylt := Nat.mod_lt y hd
  rw [hk] at hy ⊢
  generalize x / d = q at *
  have hexpand : d * (q + 2 + k) = d * q + d * 2 + d * k := by ring
  constructor
  · rw [Nat.le_div_iff_mul_le (by omega)]
    have hlow : (q + 1) * (d * 2) = d * q * 2 + d * 2 := by ring
    omega
  · refine Nat.succ_le_of_lt ((Nat.div_lt_iff_lt_mul (by omega)).2 ?_)
    have hhigh : (q + 2 + k) * (d * 2) = d * q * 2 + d * 4 + d * k * 2 := by ring
    omega

/-- Neither child of a part of two positions or more is empty. -/
theorem children_nonempty (n level j : Nat) (h : 2 ≤ partSize n level j) :
    1 ≤ partSize n (level + 1) (2 * j) ∧ 1 ≤ partSize n (level + 1) (2 * j + 1) := by
  have hmid : partStart n level j + 1 ≤ partStart n (level + 1) (2 * j + 1) ∧
      partStart n (level + 1) (2 * j + 1) + 1 ≤ partStart n level (j + 1) := by
    have hsum : (2 * j + 1) * n = j * n + (j + 1) * n := by ring
    unfold partSize at h
    unfold partStart at h ⊢
    rw [hsum, Nat.pow_succ]
    exact middle_div (Nat.two_pow_pos level) (by omega)
  have hend : partStart n (level + 1) (2 * j + 1 + 1) = partStart n level (j + 1) := partStart_child n level (j + 1)
  unfold partSize
  rw [partStart_child, hend]
  omega

/-! ### The next channel (R118) -/

theorem channelStep_none (o : OwnerPart) (least : Nat)
    (h : ∀ p ∈ o.participants, p.channel < least ∨ p.count = 0 ∨ 4 ≤ p.channel) :
    o.channelStep least = .close .notFound := by
  have hnone : o.nextChannel least = none := by
    refine List.find?_eq_none.2 fun c hc => ?_
    have hrange : c < 4 := List.mem_range.1 hc
    simp only [decide_eq_true_eq, List.any_eq_true, not_and, not_exists]
    intro hleast p hp hchannel hcount
    have hcase := h p hp
    omega
  unfold OwnerPart.channelStep
  rw [hnone]

theorem channelStep_lowest (o : OwnerPart) (least d : Nat) (hleast : least ≤ d) (hd : d < 4)
    (hp : ∃ p ∈ o.participants, p.channel = d ∧ 1 ≤ p.count)
    (hlower : ∀ p ∈ o.participants, least ≤ p.channel → p.channel < d → p.count = 0) :
    o.channelStep least = .step none (.part d 0 0) := by
  have hsplit : ∃ rest, [0, 1, 2, 3] = List.range d ++ d :: rest := by interval_cases d <;> exact ⟨_, rfl⟩
  have hsome : o.nextChannel least = some d := by
    refine List.find?_eq_some_iff_append.2 ⟨?_, List.range d, hsplit.imp fun rest hrest => ⟨hrest, fun c hc => ?_⟩⟩
    · simpa [hleast] using hp
    · have hlt : c < d := List.mem_range.1 hc
      simp only [Bool.not_eq_true', decide_eq_false_iff_not, List.any_eq_true, decide_eq_true_eq, not_and, not_exists]
      intro hc p hp hchannel hcount
      have hzero := hlower p hp
      omega
  unfold OwnerPart.channelStep
  rw [hsome]

/-! ### Continuing from a part (R118) -/

/-- From a part of one home the verify step darkens it. -/
theorem continueStep_verifies (o : OwnerPart) (c l j : Nat) (h : partSize (o.countOf c) l j = 1) :
    o.continueStep c (l, j) = .step (some (c, l, j)) (.part c l j) := by
  have hfrom : continueFrom (o.countOf c) 7 (l, j) = ((l, j), (l, j)) := if_pos (by omega)
  unfold OwnerPart.continueStep
  rw [hfrom]

/-- From a larger part the next step darkens its lower child, and no child is passed over. -/
theorem continueStep_descends (o : OwnerPart) (c l j : Nat) (h : 2 ≤ partSize (o.countOf c) l j) :
    o.continueStep c (l, j) = .step (some (c, l, j)) (.part c (l + 1) (2 * j)) := by
  obtain ⟨hlower, hupper⟩ := children_nonempty _ l j h
  have hfrom : continueFrom (o.countOf c) 7 (l, j) = ((l, j), (l + 1, 2 * j)) :=
    (if_neg (by omega)).trans ((if_neg (by omega)).trans (if_neg (by omega)))
  unfold OwnerPart.continueStep
  rw [hfrom]

theorem countOf_recorded (o : OwnerPart) (p : Participant) (hp : p ∈ o.participants)
    (hone : ∀ q ∈ o.participants, q.channel = p.channel → q = p) : o.countOf p.channel = p.count := by
  have hfind : (o.participants.find? fun q => q.channel = p.channel) = some p := by
    have hsome : (o.participants.find? fun q => q.channel = p.channel).isSome = true :=
      List.find?_isSome.2 ⟨p, hp, decide_eq_true rfl⟩
    obtain ⟨q, hq⟩ := Option.isSome_iff_exists.1 hsome
    have hchannel : q.channel = p.channel := by simpa using List.find?_some hq
    rw [hq, hone q (List.mem_of_find?_eq_some hq) hchannel]
  unfold OwnerPart.countOf
  rw [hfind]
  rfl

/-! ### The decision by the step measured (R118) -/

theorem continueStep_continues (o : OwnerPart) (c l j : Nat) :
    (partSize (o.countOf c) l j = 1 → o.continueStep c (l, j) = .step (some (c, l, j)) (.part c l j)) ∧
      (2 ≤ partSize (o.countOf c) l j →
        o.continueStep c (l, j) = .step (some (c, l, j)) (.part c (l + 1) (2 * j))) :=
  ⟨continueStep_verifies o c l j, continueStep_descends o c l j⟩

theorem channelStep_steps (o : OwnerPart) (least : Nat) :
    ((∀ p ∈ o.participants, p.channel < least ∨ p.count = 0 ∨ 4 ≤ p.channel) →
      o.channelStep least = .close .notFound) ∧
      ∀ d, least ≤ d → d < 4 → (∃ p ∈ o.participants, p.channel = d ∧ 1 ≤ p.count) →
        (∀ p ∈ o.participants, least ≤ p.channel → p.channel < d → p.count = 0) →
        o.channelStep least = .step none (.part d 0 0) :=
  ⟨channelStep_none o least, fun d => channelStep_lowest o least d⟩

section Decide
variable (o : OwnerPart) (present : Bool)

/-- At the baseline. -/
theorem decide_baseline (h : o.selector = .noChannel) :
    o.decide present = if present then o.channelStep 0 else .close .inconclusive := by
  unfold OwnerPart.decide
  rw [h]

/-- At a channel step. -/
theorem decide_channel {c l j : Nat} (h : o.selector = .part c l j) (hg : o.guiltyChannel = none) :
    o.decide present = if present then o.channelStep (c + 1) else o.continueStep c (l, j) := by
  unfold OwnerPart.decide
  rw [h, hg]

/-- At a step of a channel that is guilty, of its guilty part or of another. -/
theorem decide_guilty {c l j g : Nat} {part : Nat × Nat} (h : o.selector = .part c l j) (hg : o.guiltyChannel = some g)
    (hp : o.guiltyPart = some part) :
    o.decide present = if (l, j) = part then
        if present then .close .inconclusive else .close (.found g (o.foundHome g))
      else o.continueStep c (if present then (l, j + 1) else (l, j)) := by
  unfold OwnerPart.decide
  rw [h, hg, hp]

/-- At the verify step, which darkens the guilty part itself. -/
theorem decide_verify {c l j g : Nat} (h : o.selector = .part c l j) (hg : o.guiltyChannel = some g)
    (hp : o.guiltyPart = some (l, j)) :
    o.decide present = if present then .close .inconclusive else .close (.found g (o.foundHome g)) :=
  (decide_guilty o present h hg hp).trans (if_pos rfl)

end Decide

/-- Settles O38: the decision by the step measured, and what a channel step and a continued part come to. -/
theorem ownerDecides : Obligations.OwnerDecides := by
  unfold Obligations.OwnerDecides
  refine ⟨fun o c g r l j l' j' => ⟨fun hsel => ?_, fun hsel hg => ?_, fun hsel hg hp hne => ?_, fun hsel hg hp => ?_⟩,
    countOf_recorded, children_nonempty⟩
  · rw [decide_baseline o true hsel, decide_baseline o false hsel]
    exact ⟨rfl, channelStep_steps o 0⟩
  · rw [decide_channel o true hsel hg, decide_channel o false hsel hg]
    exact ⟨continueStep_continues o c 0 0, channelStep_steps o (c + 1)⟩
  · rw [decide_guilty o true hsel hg hp, decide_guilty o false hsel hg hp, if_neg hne, if_neg hne]
    exact ⟨continueStep_continues o g l j, continueStep_continues o g l (j + 1)⟩
  · rw [decide_verify o true hsel hg hp, decide_verify o false hsel hg hp]
    unfold OwnerPart.foundHome
    refine ⟨rfl, fun hfound => ?_, fun _ => ⟨_, rfl⟩⟩
    rw [hfound]
    rfl

end Sys2Proof.Machine
end

section
/-! PROOFS. The owner's record of its hunt (R108, R112, R116): obligation O35. -/

namespace Sys2Proof.Machine

/-! ### A notice of the hunt carried (R174) -/

section Carried
variable (s : State) (id : HuntId) (hr : s.resetHeld = false)
include hr

theorem huntJoin_other (st : Station) (c n : Nat) :
    ∃ t, exec (.huntJoin (.other st) id c n) s = .next t ∧ Offered (s.lineHeard.joinHeard id c n) t :=
  ⟨_, hearNotice_other st (.huntJoin id c n) (fun t => t.joinHeard id c n) s hr, settle_offered _⟩

theorem huntJoin_own (c n : Nat) (ht : s.transmits (.huntJoin id c n)) :
    ∃ t, exec (.huntJoin .own id c n) s = .next t ∧ Offered (s.noticeCarried.joinHeard id c n) t :=
  ⟨_, hearNotice_own (.huntJoin id c n) (fun t => t.joinHeard id c n) s hr ht.sending, settle_offered _⟩

theorem huntReady_other (st : Station) (c k : Nat) (named : Option HomeRef) :
    ∃ t, exec (.huntReady (.other st) id c k named) s = .next t ∧ Offered (s.lineHeard.readyHeard id c k named) t :=
  ⟨_, hearNotice_other st (.huntReady id c k named) (fun t => t.readyHeard id c k named) s hr, settle_offered _⟩

theorem huntReady_own (c k : Nat) (named : Option HomeRef) (ht : s.transmits (.huntReady id c k named)) :
    ∃ t, exec (.huntReady .own id c k named) s = .next t ∧ Offered (s.noticeCarried.readyHeard id c k named) t :=
  ⟨_, hearNotice_own (.huntReady id c k named) (fun t => t.readyHeard id c k named) s hr ht.sending, settle_offered _⟩

theorem huntOpen_own (ht : s.transmits (.huntOpen id)) (hflag : s.hu.flag = none) :
    ∃ t, exec (.huntOpen .own id) s = .next t ∧ Offered (s.noticeCarried.ownOpen id) t := by
  have hcarried : s.noticeCarried.hu.flag.isSome = false := by
    rw [(noticeCarried_noticesOnly s).hu, hflag]
    rfl
  refine ⟨_, hearNotice_own (.huntOpen id) (fun t => if t.hu.flag.isSome then t else t.ownOpen id) s hr ht.sending, ?_⟩
  rw [hcarried]
  exact settle_offered _

end Carried

/-! ### Whose record it is (R112, R116) -/

section Record
variable (s : State) (id : HuntId) (o : OwnerPart)

theorem setOwner_same (hrole : s.hu.role = .owner o) : s.setOwner o = s := by
  unfold State.setOwner
  rw [← hrole]

theorem joinHeard_owner (hrole : s.hu.role = .owner o) (hflag : s.hu.flag = some id) (c n : Nat) :
    s.joinHeard id c n = s.setOwner (o.record c n) := by
  unfold State.joinHeard
  rw [hrole]
  exact if_pos hflag

theorem readyHeard_owner (hrole : s.hu.role = .owner o) (hflag : s.hu.flag = some id) (c k : Nat) (named : Option HomeRef) :
    s.readyHeard id c k named = s.setOwner (o.countReady c k named) := by
  unfold State.readyHeard
  rw [hrole]
  exact if_pos hflag

/-- Whoever owns no hunt of this id takes nothing from a HUNT_JOIN. -/
theorem joinHeard_unowned (h : s.hu.role.isOwner = false ∨ s.hu.flag ≠ some id) (c n : Nat) : s.joinHeard id c n = s := by
  unfold State.joinHeard
  split
  next hrole => exact if_neg (h.resolve_left (by rw [hrole]; exact Bool.noConfusion))
  · rfl
  · rfl

/-- Nor from a HUNT_READY. -/
theorem readyHeard_unowned (h : s.hu.role.isOwner = false ∨ s.hu.flag ≠ some id) (c k : Nat) (named : Option HomeRef) :
    s.readyHeard id c k named = s := by
  unfold State.readyHeard
  split
  next hrole => exact if_neg (h.resolve_left (by rw [hrole]; exact Bool.noConfusion))
  · rfl
  · rfl

end Record

/-! ### A join recorded (R112) -/

section Join
variable (o : OwnerPart) (c n : Nat)

theorem record_new (hphase : o.phase = .collecting) (htimer : o.joinTimer.isSome = true) (hplace : o.participants.length < 4)
    (hnew : ∀ p ∈ o.participants, p.channel ≠ c) :
    o.record c n = { o with participants := o.participants ++ [{ channel := c, count := n, ready := false }] } := by
  refine if_pos ⟨hphase, htimer, hplace, List.any_eq_false.2 fun p hp => ?_⟩
  rw [decide_eq_true_eq]
  exact hnew p hp

theorem record_ignored (h : o.phase ≠ .collecting ∨ o.joinTimer = none ∨ 4 ≤ o.participants.length ∨
    ∃ p ∈ o.participants, p.channel = c) : o.record c n = o := by
  refine if_neg fun ⟨hphase, htimer, hplace, hnew⟩ => ?_
  obtain h | h | h | ⟨p, hp, hchannel⟩ := h
  · exact h hphase
  · rw [h] at htimer
    cases htimer
  · omega
  · exact List.any_eq_false.1 hnew p hp (decide_eq_true hchannel)

end Join

/-! ### A READY counted (R116) -/

/-- The participants with the ready flag of this channel set (R116). -/
def OwnerPart.flagged (o : OwnerPart) (c : Nat) : List Participant :=
  o.participants.map fun p => if p.channel = c then { p with ready := true } else p

/-- The home a READY from this channel makes the found one: the home it names in the channel of the selector (R116). -/
def OwnerPart.foundBy (o : OwnerPart) (c : Nat) (named : Option HomeRef) : Option HomeRef :=
  match named, o.selector with
  | some r, .part d _ _ => if d = c then some r else o.found
  | some _, .noChannel => o.found
  | none, _ => o.found

theorem foundBy_eq (o : OwnerPart) (c : Nat) (named found : Option HomeRef)
    (hin : ∀ r l j, named = some r → o.selector = .part c l j → found = some r)
    (hout : (named = none ∨ ∀ l j, o.selector ≠ .part c l j) → found = o.found) : o.foundBy c named = found := by
  unfold OwnerPart.foundBy
  split
  next r d l j hsel =>
    split
    next hd => exact (hin r l j rfl (by rw [hsel, hd])).symm
    next hd =>
      refine (hout (.inr fun l' j' hpart => hd ?_)).symm
      rw [hsel] at hpart
      cases hpart
      rfl
  next hsel => exact (hout (.inr fun l j hpart => by rw [hsel] at hpart; cases hpart)).symm
  next => exact (hout (.inl rfl)).symm

section Ready
variable (o : OwnerPart) (c k : Nat) (named : Option HomeRef)

theorem flagged_all : (o.flagged c).all Participant.ready = true ↔
    ∀ p ∈ o.participants, p.channel ≠ c → p.ready = true := by
  unfold OwnerPart.flagged
  rw [List.all_map, List.all_eq_true]
  refine forall₂_congr fun p _ => ?_
  by_cases hp : p.channel = c <;> simp [hp]

theorem countReady_ignored (h : o.phase ≠ .waiting ∨ o.readyTimer = none ∨ k ≠ o.step ∨
    ∀ p ∈ o.participants, p.channel ≠ c) : o.countReady c k named = o := by
  refine if_neg fun ⟨hphase, htimer, hstep, hrecorded⟩ => ?_
  obtain h | h | h | h := h
  · exact h hphase
  · rw [h] at htimer
    cases htimer
  · exact h hstep
  · obtain ⟨p, hp, hchannel⟩ := List.any_eq_true.1 hrecorded
    exact h p hp (of_decide_eq_true hchannel)

/-- A READY of the current step from a recorded channel: with the last of them the owner begins to measure. -/
theorem countReady_counted (hphase : o.phase = .waiting) (htimer : o.readyTimer.isSome = true) (hstep : k = o.step)
    (hrecorded : ∃ p ∈ o.participants, p.channel = c) :
    o.countReady c k named = if (o.flagged c).all Participant.ready = true then
      { o with participants := o.flagged c, found := o.foundBy c named, readyTimer := none, tally := 0, lightSeen := false,
               phase := .measuring }
    else { o with participants := o.flagged c, found := o.foundBy c named } := by
  obtain ⟨p, hp, hchannel⟩ := hrecorded
  exact if_pos ⟨hphase, htimer, hstep, List.any_eq_true.2 ⟨p, hp, decide_eq_true hchannel⟩⟩

end Ready

/-- The own HUNT_OPEN at a terminator without a hunt makes it the OWNER, and it joins (R108, R111). -/
theorem ownOpen_owns (s : State) (id : HuntId) (hrole : s.hu.role = .noRole) (hop : s.operating = true) :
    (s.ownOpen id).hu = { s.hu with
      flag := some id, guardTimer := some Config.guardCycles, opening := false, role := .owner OwnerPart.opening,
      huntId := some id, frozen := s.candidates } := by
  unfold State.ownOpen
  dsimp only
  rw [if_pos hrole, if_pos hop]
  rfl

/-- Settles O35: a join and a READY by what they find in the owner's record, whatever terminator sent them. -/
theorem ownerRecord : Obligations.OwnerRecord := by
  unfold Obligations.OwnerRecord
  refine fun s id hr => ⟨fun ht hflag hrole hop => ?_, fun st c n k named => ⟨fun o hrole hflag => ?_, fun hno => ?_⟩⟩
  · obtain ⟨t, hexec, hoff⟩ := huntOpen_own s id hr ht hflag
    have hcarried := noticeCarried_noticesOnly s
    have howns := hoff.hu.trans (ownOpen_owns s.noticeCarried id (hcarried.hu ▸ hrole) (by
      rw [State.operating, hcarried.il]
      exact hop))
    refine ⟨t, hexec, ?_⟩
    rw [howns]
    exact ⟨rfl, rfl, rfl, _, rfl, rfl, rfl, rfl, rfl⟩
  · intro recorded counted
    have hrecorded (u t : State) (hu : u.hu = s.hu) (hoff : Offered (u.joinHeard id c n) t) : recorded u t := by
      have howner : u.hu.role = .owner o := by rw [hu, hrole]
      rw [joinHeard_owner u id o howner (by rw [hu, hflag])] at hoff
      refine ⟨fun hphase htimer hplace hnew => ?_, fun hignored => ?_⟩
      · rwa [record_new o c n hphase htimer hplace hnew] at hoff
      · rwa [record_ignored o c n hignored, setOwner_same u o howner] at hoff
    have hcounted (u t : State) (hu : u.hu = s.hu) (hoff : Offered (u.readyHeard id c k named) t) : counted u t := by
      have howner : u.hu.role = .owner o := by rw [hu, hrole]
      rw [readyHeard_owner u id o howner (by rw [hu, hflag])] at hoff
      refine ⟨fun hignored => ?_, fun hphase htimer hstep hone found hin hout => ?_⟩
      · rwa [countReady_ignored o c k named hignored, setOwner_same u o howner] at hoff
      · rw [countReady_counted o c k named hphase htimer hstep hone, foundBy_eq o c named found hin hout] at hoff
        refine ⟨fun hall => ?_, fun ⟨p, hp, hchannel, hready⟩ => ?_⟩
        · rwa [if_pos ((flagged_all o c).2 hall)] at hoff
        · rwa [if_neg fun hall => by rw [(flagged_all o c).1 hall p hp hchannel] at hready; cases hready] at hoff
    have hline := (lineHeard_noticesOnly s).hu
    have hcarried := (noticeCarried_noticesOnly s).hu
    exact ⟨(huntJoin_other s id hr st c n).imp fun t x => ⟨x.1, hrecorded _ t hline x.2⟩,
      fun ht => (huntJoin_own s id hr c n ht).imp fun t x => ⟨x.1, hrecorded _ t hcarried x.2⟩,
      (huntReady_other s id hr st c k named).imp fun t x => ⟨x.1, hcounted _ t hline x.2⟩,
      fun ht => (huntReady_own s id hr c k named ht).imp fun t x => ⟨x.1, hcounted _ t hcarried x.2⟩⟩
  · have hline : s.lineHeard.hu.role.isOwner = false ∨ s.lineHeard.hu.flag ≠ some id := hno
    have hcarried : s.noticeCarried.hu.role.isOwner = false ∨ s.noticeCarried.hu.flag ≠ some id := by
      rwa [(noticeCarried_noticesOnly s).hu]
    have hjoin := huntJoin_other s id hr st c n
    have hownJoin := huntJoin_own s id hr c n
    have hready := huntReady_other s id hr st c k named
    have hownReady := huntReady_own s id hr c k named
    rw [joinHeard_unowned _ id hline] at hjoin
    rw [joinHeard_unowned _ id hcarried] at hownJoin
    rw [readyHeard_unowned _ id hline] at hready
    rw [readyHeard_unowned _ id hcarried] at hownReady
    exact ⟨hjoin, hownJoin, hready, hownReady⟩

end Sys2Proof.Machine
end

section
/-! PROOFS. A step of a hunt carried (R105, R108, R114, R116, R122): obligation O36. -/

namespace Sys2Proof.Machine

/-! ### What a HUNT_STEP finds (R105) -/

/-- A HUNT_STEP, by the flag it finds (R105). -/
def State.stepTaken (s : State) (src : Source) (id : HuntId) (k : Nat) (sel : Selector) : State :=
  match s.hu.flag with
  | none => (s.setFlag id).yieldOpening
  | some f => if f = id then s.stepHeard src k sel else s

section Taken
variable (s : State) (src : Source) (id : HuntId) (k : Nat) (sel : Selector)

theorem stepTaken_unflagged (hflag : s.hu.flag = none) : s.stepTaken src id k sel = (s.setFlag id).yieldOpening := by
  unfold State.stepTaken
  rw [hflag]

theorem stepTaken_foreign (f : HuntId) (hflag : s.hu.flag = some f) (hf : f ≠ id) : s.stepTaken src id k sel = s := by
  unfold State.stepTaken
  rw [hflag]
  exact if_neg hf

theorem stepTaken_flagged (hflag : s.hu.flag = some id) : s.stepTaken src id k sel = s.stepHeard src k sel := by
  unfold State.stepTaken
  rw [hflag]
  exact if_pos rfl

theorem huntStep_other (st : Station) (hr : s.resetHeld = false) :
    ∃ t, exec (.huntStep (.other st) id k sel) s = .next t ∧ Offered (s.lineHeard.stepTaken (.other st) id k sel) t :=
  ⟨_, hearNotice_other st (.huntStep id k sel) (fun t => t.stepTaken (.other st) id k sel) s hr, settle_offered _⟩

theorem huntStep_own (hr : s.resetHeld = false) (ht : s.transmits (.huntStep id k sel)) :
    ∃ t, exec (.huntStep .own id k sel) s = .next t ∧ Offered (s.noticeCarried.stepTaken .own id k sel) t :=
  ⟨_, hearNotice_own (.huntStep id k sel) (fun t => t.stepTaken .own id k sel) s hr ht.sending, settle_offered _⟩

end Taken

/-! ### A step with the flag clear (R105, R108) -/

section Yields
variable (s : State) (id : HuntId)

theorem yieldOpening_opening (ho : s.hu.opening = true) : (s.setFlag id).yieldOpening = State.withdraw
    { s.setFlag id with hu := { (s.setFlag id).hu with opening := false, deferred := true } } isOpen := if_pos ho

theorem yieldOpening_unopened (ho : s.hu.opening = false) : (s.setFlag id).yieldOpening = s.setFlag id :=
  if_neg (by rw [State.setFlag, ho]; decide)

theorem yieldOpening_hu : (s.setFlag id).yieldOpening.hu = { s.hu with
    flag := some id, guardTimer := some 400, opening := false, deferred := s.hu.deferred || s.hu.opening } := by
  cases ho : s.hu.opening with
  | true =>
    rw [yieldOpening_opening s id ho, Bool.or_true]
    rfl
  | false =>
    rw [yieldOpening_unopened s id ho, Bool.or_false, ← ho]
    rfl

/-- The notices left where an own offer yields (R108). -/
theorem yieldOpening_outgoing (who : Producer) :
    (s.setFlag id).yieldOpening.outgoing who = s.yielded.outgoing who := by
  cases ho : s.hu.opening with
  | true =>
    rw [yieldOpening_opening s id ho, State.yielded, if_pos ho]
    rfl
  | false =>
    rw [yieldOpening_unopened s id ho, State.yielded, if_neg (by rw [ho]; decide)]
    rfl

end Yields

/-! ### A step applied (R114, R116) -/

/-- `t` is `s` with a step applied: HUNT on exactly the live positions of the named part, the next map awaited, and the
guard run anew (R105, R114). -/
structure StepApplied (s : State) (k : Nat) (sel : Selector) (t : State) : Prop where
  entry : ∀ h, 1 ≤ h → h ≤ 64 → t.entry h = { s.entry h with
    holds := { (s.entry h).holds with hunt := decide (h ∈ s.darkened sel) } }
  guardTimer : t.hu.guardTimer = some 400
  awaiting : t.hu.awaiting = some { step := k, map := s.cb.cycle + 1, named := s.namedHome sel }
  frozen : t.hu.frozen = s.hu.frozen
  um : t.um = s.um
  ua : t.ua = s.ua

theorem StepApplied.offered {s t u : State} {k : Nat} {sel : Selector} (x : StepApplied s k sel t) (o : Offered t u) :
    StepApplied s k sel u where
  entry h hl hh := (o.entry h).trans (x.entry h hl hh)
  guardTimer := by rw [o.hu, x.guardTimer]
  awaiting := by rw [o.hu, x.awaiting]
  frozen := by rw [o.hu, x.frozen]
  um := o.um.trans x.um
  ua := o.ua.trans x.ua

/-- What a selector darkens, and the home it names, are read from the frozen list and the own channel (R114, R115). -/
theorem darkened_of_list {s t : State} (hlist : t.hu.frozen = s.hu.frozen) (hchannel : t.channel = s.channel)
    (sel : Selector) : t.darkened sel = s.darkened sel ∧ t.namedHome sel = s.namedHome sel := by
  unfold State.darkened State.namedHome
  rw [hlist, hchannel]
  exact ⟨rfl, rfl⟩

/-- A step is applied to what only its own carriage has changed. -/
theorem StepApplied.noticesBefore {s s' t : State} {k : Nat} {sel : Selector} (x : StepApplied s' k sel t)
    (y : NoticesOnly s s') (hcb : s'.cb = s.cb) : StepApplied s k sel t := by
  obtain ⟨hdark, hnamed⟩ := darkened_of_list (congrArg Hunt.frozen y.hu) y.channel sel
  refine ⟨fun h hl hh => ?_, x.guardTimer, ?_, x.frozen.trans (congrArg Hunt.frozen y.hu), x.um.trans y.um, x.ua.trans y.ua⟩
  · rw [x.entry h hl hh, y.entry h, hdark]
  · rw [x.awaiting, hcb, hnamed]

theorem applyStep_entry (s : State) (k : Nat) (sel : Selector) (h : Nat) (hl : 1 ≤ h) (hh : h ≤ 64) :
    (s.applyStep k sel).entry h = { s.entry h with
      holds := { (s.entry h).holds with hunt := decide (h ∈ s.darkened sel) } } := by
  have hmapped : (s.applyStep k sel).entry h = if 1 ≤ h ∧ h ≤ 64 then
      { s.entry h with holds := { (s.entry h).holds with hunt := (s.darkened sel).contains h } } else Entry.free :=
    tableGet_tableMap (fun h (e : Entry) => { e with holds := { e.holds with hunt := (s.darkened sel).contains h } })
      s.roster Entry.free h
  rw [hmapped, if_pos ⟨hl, hh⟩, List.contains_eq_mem]

theorem applyStep_hu (s : State) (k : Nat) (sel : Selector) : (s.applyStep k sel).hu = { s.hu with
    awaiting := some { step := k, map := s.cb.cycle + 1, named := s.namedHome sel } } := rfl

/-- A step applied leaves the accounts and the pool alone. -/
theorem applyStep_same (s : State) (k : Nat) (sel : Selector) :
    (s.applyStep k sel).um = s.um ∧ (s.applyStep k sel).ua = s.ua := by
  unfold State.applyStep State.setHunt State.withdraw
  exact ⟨rfl, rfl⟩

theorem applyStep_rq (s : State) (k : Nat) (sel : Selector) : (s.applyStep k sel).rq = s.rq := by
  unfold State.applyStep State.setHunt State.withdraw
  rfl

/-- The guard runs anew (R105). -/
def State.guardRestarted (s : State) : State := { s with hu := { s.hu with guardTimer := some Config.guardCycles } }

/-- The state with the guard run anew and its role replaced (R105, R116). -/
def State.stepRole (s : State) (role : Role) : State :=
  { s with hu := { s.hu with guardTimer := some Config.guardCycles, role := role } }

theorem stepRole_applied (s : State) (role : Role) (k : Nat) (sel : Selector) :
    StepApplied s k sel ((s.stepRole role).applyStep k sel) := by
  have hlist : (s.stepRole role).hu.frozen = s.hu.frozen := rfl
  obtain ⟨hdark, hnamed⟩ := darkened_of_list hlist (channel_of_il rfl) sel
  have hhu := applyStep_hu (s.stepRole role) k sel
  obtain ⟨hum, hua⟩ := applyStep_same (s.stepRole role) k sel
  refine ⟨fun h hl hh => ?_, by rw [hhu]; rfl, by rw [hhu, hnamed]; rfl, by rw [hhu]; rfl, hum, hua⟩
  rw [applyStep_entry (s.stepRole role) k sel h hl hh, hdark]
  rfl

section Heard
variable (s : State) (k : Nat) (sel : Selector)

/-- Whoever takes part applies the step behind the restart of its guard (R105, R114). -/
theorem stepHeard_applies (src : Source) (htaken : s.hu.role.taken = true) (hd : s.draining = false) :
    s.stepHeard src k sel = (s.guardRestarted.ownStep src).applyStep k sel := by
  have hguard : (if s.hu.role = .participant ∧ s.draining = true then s else s.guardRestarted) = s.guardRestarted :=
    if_neg fun hc => by rw [hd] at hc; cases hc.2
  have happlies : s.stepHeard src k sel =
      ((if s.hu.role = .participant ∧ s.draining = true then s else s.guardRestarted).ownStep src).applyStep k sel :=
    if_pos ⟨htaken, hd⟩
  rw [happlies, hguard]

/-- In DRAINING a participant takes nothing from another station's step (R122). -/
theorem stepHeard_draining (st : Station) (hrole : s.hu.role = .participant) (hd : s.draining = true) :
    s.stepHeard (.other st) k sel = s := by
  have hidle : s.stepHeard (.other st) k sel =
      (if s.hu.role = .participant ∧ s.draining = true then s else s.guardRestarted) :=
    if_neg fun hc => by rw [hd] at hc; cases hc.2
  rw [hidle, if_pos ⟨hrole, hd⟩]

/-- Otherwise it applies the step (R114). -/
theorem stepHeard_participant (st : Station) (hrole : s.hu.role = .participant) (hd : s.draining = false) :
    s.stepHeard (.other st) k sel = (s.stepRole .participant).applyStep k sel := by
  have hrestarts : s.guardRestarted.ownStep (.other st) = s.stepRole .participant := by
    unfold State.stepRole
    rw [← hrole]
    rfl
  rw [stepHeard_applies s k sel _ (by rw [hrole]; rfl) hd, hrestarts]

/-- The owner applies its own step, and waits for the READYs of it (R116). -/
theorem stepHeard_owner (o : OwnerPart) (hrole : s.hu.role = .owner o) (hd : s.draining = false) :
    s.stepHeard .own k sel = (s.stepRole (.owner o.stepCarried)).applyStep k sel := by
  have hwaits : s.guardRestarted.ownStep .own = s.stepRole (.owner o.stepCarried) := by
    unfold State.ownStep
    rw [show s.guardRestarted.hu.role = .owner o from hrole]
    rfl
  rw [stepHeard_applies s k sel _ (by rw [hrole]; rfl) hd, hwaits]

end Heard

/-- The own carriage leaves the cycle count alone (R174). -/
theorem noticeCarried_cb (s : State) : s.noticeCarried.cb = s.cb := by
  simp [State.noticeCarried]

/-- Settles O36: a step by the flag and the role it finds. -/
theorem huntStepHeard : Obligations.HuntStepHeard := by
  unfold Obligations.HuntStepHeard
  refine fun s id k sel hr => ⟨fun st => ?_, fun o ht hflag hrole hd => ?_⟩
  · obtain ⟨t, hexec, hoff⟩ := huntStep_other s id k sel st hr
    refine ⟨t, hexec, fun f hflag hf => ?_, fun hflag => ?_, fun hflag hrole hd => ?_, fun hflag hrole hd => ?_⟩
    · rwa [stepTaken_foreign s.lineHeard _ id k sel f hflag hf] at hoff
    · rw [stepTaken_unflagged s.lineHeard _ id k sel hflag] at hoff
      have hnoted := yieldOpening_notes s.lineHeard id
      have hout (who : Producer) : t.outgoing who = s.yielded.outgoing who :=
        (hoff.notices who).trans ((yieldOpening_outgoing s.lineHeard id who).trans (lineHeard_yielded s who))
      have hlw : (s.lineHeard.setFlag id).yieldOpening.lw = s.lw := yieldOpening_lw _
      refine ⟨hoff.hu.trans (yieldOpening_hu s.lineHeard id), hoff.roster.trans hnoted.roster, hoff.um.trans hnoted.um,
        hoff.ua.trans hnoted.ua, hoff.ee.trans hnoted.ee, hoff.lw.trans hlw, hoff.il.trans hnoted.il,
        (hnoted.toHuntNoted.offered hoff).noEvent, fun hopening who => ?_, fun hopening who => ?_⟩
      · rw [hout who, State.yielded, if_pos hopening]
      · rw [hout who, State.yielded, if_neg (by rw [hopening]; decide)]
    · rwa [stepTaken_flagged s.lineHeard _ id k sel hflag, stepHeard_draining s.lineHeard k sel st hrole hd] at hoff
    · rw [stepTaken_flagged s.lineHeard _ id k sel hflag, stepHeard_participant s.lineHeard k sel st hrole hd] at hoff
      obtain ⟨hentry, hguard, hawait, hfrozen, hum, hua⟩ := (stepRole_applied s.lineHeard .participant k sel).offered hoff
      have hrq : ((s.lineHeard.stepRole .participant).applyStep k sel).rq = s.rq := applyStep_rq _ k sel
      exact ⟨hentry, hguard, hawait, hfrozen, hum, hua, hoff.events.trans (congrArg _ hrq), hoff.dropped.trans (congrArg _ hrq)⟩
  · obtain ⟨t, hexec, hoff⟩ := huntStep_own s id k sel hr ht
    have hcarried := noticeCarried_noticesOnly s
    rw [stepTaken_flagged s.noticeCarried _ id k sel (hcarried.hu ▸ hflag),
      stepHeard_owner s.noticeCarried k sel o (hcarried.hu ▸ hrole) (hcarried.draining.trans hd)] at hoff
    have happlied := (stepRole_applied s.noticeCarried (.owner o.stepCarried) k sel).noticesBefore hcarried (noticeCarried_cb s)
    obtain ⟨hentry, hguard, hawait, hfrozen, hum, hua⟩ := happlied.offered hoff
    exact ⟨t, hexec, hentry, hguard, hawait, congrArg Hunt.role hoff.hu, hfrozen, hum, hua⟩

end Sys2Proof.Machine
end

section
/-! PROOFS. How a hunt ends: by a close, and by its timers (R105, R106, R112, R116, R119, R120): obligations O39, O40. -/

namespace Sys2Proof.Machine

/-! ### The end of a hunt at any terminator (R105, R106, R119) -/

/-- `v` is `s` out of its hunt: who took part has left it, an owner with HUNT_ENDED raised and its history empty. -/
structure HuntOver (s v : State) : Prop where
  flag : v.hu.flag = none
  guardTimer : v.hu.guardTimer = none
  deferred : v.hu.deferred = s.hu.deferred
  um : v.um = s.um
  ua : v.ua = s.ua
  ee : v.ee = s.ee
  il : v.il = s.il
  noEvent : NoEvent s v
  left : s.hu.role ≠ .noRole → v.hu.role = .noRole ∧ v.hu.frozen = [] ∧ v.hu.awaiting = none ∧
    ∀ h, v.entry h = { s.entry h with holds := { (s.entry h).holds with hunt := false } }
  idle : s.hu.role = .noRole → v.roster = s.roster
  watch : s.hu.role = .participant → v.lw = s.lw
  owner : ∀ o, s.hu.role = .owner o → v.lw.history = [] ∧ v.lw.condition = false ∧
    (s.img.alarmModes.huntEnded ≠ .off → ∃ a ∈ v.places, a.1 = { kind := .huntEnded, handle := 0 })

theorem Offered.place {u t : State} (o : Offered u t) {a : AlarmSource} (h : ∃ p ∈ u.places, p.1 = a) :
    ∃ p ∈ t.places, p.1 = a :=
  h.imp fun _ hp => ⟨o.places.mem_iff.2 hp.1, hp.2⟩

theorem HuntOver.offered {s v t : State} (x : HuntOver s v) (o : Offered v t) : HuntOver s t where
  flag := by rw [o.hu, x.flag]
  guardTimer := by rw [o.hu, x.guardTimer]
  deferred := by rw [o.hu, x.deferred]
  um := o.um.trans x.um
  ua := o.ua.trans x.ua
  ee := o.ee.trans x.ee
  il := o.il.trans x.il
  noEvent := ⟨o.events.trans x.noEvent.1, o.dropped.trans x.noEvent.2⟩
  left hrole := by
    obtain ⟨hnone, hlist, hawait, hentry⟩ := x.left hrole
    rw [o.hu]
    exact ⟨hnone, hlist, hawait, fun h => (o.entry h).trans (hentry h)⟩
  idle hrole := o.roster.trans (x.idle hrole)
  watch hrole := o.lw.trans (x.watch hrole)
  owner p hrole := by
    obtain ⟨hhistory, hcond, hraised⟩ := x.owner p hrole
    rw [o.lw]
    exact ⟨hhistory, hcond, fun hmode => o.place (hraised hmode)⟩

/-- HUNT_ENDED waits for its report as the owner's hunt ends, unless its mode is OFF (R119, R182). -/
theorem huntEnded_places (s : State) (outcome : HuntOutcome) (o : OwnerPart) (hmode : s.img.alarmModes.huntEnded ≠ .off) :
    ∃ a ∈ (s.huntEnded outcome o).places, a.1 = { kind := .huntEnded, handle := 0 } := by
  obtain ⟨roster, hleft⟩ := leaveHunt_writes s
  have himg : s.leaveHunt.img = s.img := by
    rw [hleft]
    rfl
  exact raiseAlarm_places s.leaveHunt { kind := .huntEnded, handle := 0 } (.huntEnded s.hu.huntId outcome o.stepsCarried)
    (by rw [himg]; exact hmode)

theorem endHunt_over (s : State) (outcome : HuntOutcome) : HuntOver s (s.clearFlag.endHunt outcome) := by
  cases hrole : s.hu.role with
  | noRole =>
    have hstays : s.clearFlag.endHunt outcome = s.clearFlag := by
      unfold State.endHunt
      rw [show s.clearFlag.hu.role = .noRole from hrole]
    rw [hstays]
    exact ⟨rfl, rfl, rfl, rfl, rfl, rfl, rfl, ⟨rfl, rfl⟩, fun h => absurd hrole h, fun _ => rfl, fun _ => rfl,
      fun o ho => (nomatch hrole.symm.trans ho)⟩
  | participant =>
    have hleaves : s.clearFlag.endHunt outcome = s.clearFlag.leaveHunt := by
      unfold State.endHunt
      rw [show s.clearFlag.hu.role = .participant from hrole]
    have hentry := leaveHunt_entry s.clearFlag
    obtain ⟨roster, hleft⟩ := leaveHunt_writes s.clearFlag
    rw [hleft] at hentry
    rw [hleaves, hleft]
    exact ⟨rfl, rfl, rfl, rfl, rfl, rfl, rfl, ⟨rfl, rfl⟩, fun _ => ⟨rfl, rfl, rfl, hentry⟩,
      fun h => (nomatch hrole.symm.trans h), fun _ => rfl, fun o ho => (nomatch hrole.symm.trans ho)⟩
  | owner o =>
    rw [endHunt_owner s.clearFlag outcome o hrole]
    have hentry := huntEnded_entry s.clearFlag outcome o
    have hplaces := huntEnded_places s.clearFlag outcome o
    obtain ⟨roster, slot, places, repeats, hends⟩ := huntEnded_reports s.clearFlag outcome o
    rw [hends] at hentry hplaces ⊢
    exact ⟨rfl, rfl, rfl, rfl, rfl, rfl, rfl, ⟨rfl, rfl⟩, fun _ => ⟨rfl, rfl, rfl, hentry⟩,
      fun h => (nomatch hrole.symm.trans h), fun h => (nomatch hrole.symm.trans h), fun _ _ => ⟨rfl, rfl, hplaces⟩⟩

/-! ### A FOUND close that names a home of this channel (R120) -/

/-- The entry of a home found: HUNT off with the end of the hunt, ROGUE on (R119, R120). -/
def Entry.foundRogue (e : Entry) : Entry := { e with holds := { e.holds with hunt := false, rogue := true } }

/-- `v` with its entry of the home found written and ROGUE_FOUND raised for it (R120). -/
def State.rogueSet (v : State) (id : HuntId) (r : HomeRef) (e : Entry) : State :=
  (v.setEntry r.handle e).raiseAlarm { kind := .rogueFound, handle := r.handle } (.rogueFound r.serial r.handle id true)

/-- `t` is `s` out of its hunt, with ROGUE at the home found and its alarm raised. -/
structure RogueFound (s : State) (r : HomeRef) (t : State) : Prop where
  entry : t.entry r.handle = (s.entry r.handle).foundRogue
  raised : s.img.alarmModes.rogueFound ≠ .off → ∃ p ∈ t.places, p.1 = { kind := .rogueFound, handle := r.handle }
  role : t.hu.role = .noRole
  flag : t.hu.flag = none
  deferred : t.hu.deferred = s.hu.deferred
  um : t.um = s.um
  noEvent : NoEvent s t

section Found
variable {s v : State} (x : HuntOver s v) (hrole : s.hu.role ≠ .noRole) (r : HomeRef) (hhome : s.isHome r = true)
include x hrole hhome

theorem HuntOver.isHome : v.isHome r = true := by
  obtain ⟨-, -, -, hentry⟩ := x.left hrole
  rw [isHome_iff] at hhome ⊢
  rwa [hentry r.handle]

/-- A FOUND close that names this channel and a home still at its handle comes to that home (R120). -/
theorem HuntOver.takeFound (hbuilds : s.builds = true) (id : HuntId) :
    v.takeFound id (.found s.channel r) = v.rogueSet id r (s.entry r.handle).foundRogue := by
  obtain ⟨-, -, -, hentry⟩ := x.left hrole
  have hnamed : s.channel = v.channel ∧ v.builds = true :=
    ⟨(channel_of_il x.il).symm, (builds_of_startup (congrArg _ x.il)).trans hbuilds⟩
  have hcomes : v.takeFound id (.found s.channel r) = v.foundHere id r := if_pos hnamed
  rw [hcomes]
  unfold State.foundHere
  dsimp only
  rw [x.isHome hrole r hhome, if_pos rfl, if_pos rfl, hentry r.handle]
  rfl

theorem HuntOver.rogueFound (id : HuntId) : RogueFound s r (v.rogueSet id r (s.entry r.handle).foundRogue) := by
  have hreports := raiseAlarm_reportsOnly (v.setEntry r.handle (s.entry r.handle).foundRogue)
    { kind := .rogueFound, handle := r.handle } (.rogueFound r.serial r.handle id true)
  have hquiet := (hreports.homeStep r.handle).2
  have hhandle := handle_of_state s r.handle ((isHome_iff s r).1 hhome).1
  have himg : v.img = s.img := img_of_image (congrArg _ x.il)
  obtain ⟨hnone, -⟩ := x.left hrole
  exact {
    entry := (hreports.entry r.handle).trans (entry_setEntry_self v r.handle _ hhandle)
    raised := fun hmode => raiseAlarm_places (v.setEntry r.handle (s.entry r.handle).foundRogue) _ _ (by
      rw [← himg] at hmode
      exact hmode)
    role := (congrArg Hunt.role hreports.hu).trans hnone
    flag := (congrArg Hunt.flag hreports.hu).trans x.flag
    deferred := (congrArg Hunt.deferred hreports.hu).trans x.deferred
    um := hreports.um.trans x.um
    noEvent := ⟨hquiet.1.trans x.noEvent.1, hquiet.2.trans x.noEvent.2⟩ }

end Found

theorem RogueFound.offered {s t u : State} {r : HomeRef} (x : RogueFound s r t) (o : Offered t u) : RogueFound s r u where
  entry := (o.entry r.handle).trans x.entry
  raised hmode := o.place (x.raised hmode)
  role := by rw [o.hu, x.role]
  flag := by rw [o.hu, x.flag]
  deferred := by rw [o.hu, x.deferred]
  um := o.um.trans x.um
  noEvent := ⟨o.events.trans x.noEvent.1, o.dropped.trans x.noEvent.2⟩

/-- A close of the flag's hunt that found a home of this channel, with no suspicion deferred (R119, R120). -/
theorem closeHeard_found (s : State) (id : HuntId) (r : HomeRef) (hflag : s.hu.flag = some id)
    (hrole : s.hu.role ≠ .noRole) (hbuilds : s.builds = true) (hdeferred : s.hu.deferred = false)
    (hhome : s.isHome r = true) : RogueFound s r (s.closeHeard id (.found s.channel r)) := by
  have hover := endHunt_over s (.found s.channel r)
  have hfound := hover.rogueFound hrole r hhome id
  rwa [closeHeard_flagged s id _ hflag, hover.takeFound hrole r hhome hbuilds id,
    takeDeferred_none _ (hfound.deferred.trans hdeferred)]

/-- The close of another hunt is ignored (R105). -/
theorem closeHeard_foreign (s : State) (id f : HuntId) (outcome : HuntOutcome) (hflag : s.hu.flag = some f) (hf : f ≠ id) :
    s.closeHeard id outcome = s := by
  unfold State.closeHeard
  rw [hflag]
  exact if_neg hf

/-- Settles O39: a close by the flag it finds; where it is FOUND, at a participant that holds the home named. -/
theorem huntCloses : Obligations.HuntCloses := by
  unfold Obligations.HuntCloses
  refine ⟨fun s st id outcome hr => ?_, fun s st id r hr hflag hrole hbuilds hdeferred hhome => ?_⟩
  · obtain ⟨t, hexec, hoff⟩ := huntClose_other s st id outcome hr
    refine ⟨t, hexec, fun f hflag hf => ?_, fun hflag hunfound hdeferred => ?_⟩
    · rwa [closeHeard_foreign s.lineHeard id f outcome hflag hf] at hoff
    · have hover := endHunt_over s.lineHeard outcome
      rw [closeHeard_flagged s.lineHeard id outcome hflag, takeFound_unfound _ _ _ hunfound,
        takeDeferred_none _ (hover.deferred.trans hdeferred)] at hoff
      obtain ⟨hclear, hguard, -, hum, hua, hee, -, hquiet, hleft, hidle, hwatch, howner⟩ := hover.offered hoff
      exact ⟨hclear, hguard, hum, hua, hee, hquiet, hleft, hidle, hwatch, fun o ho =>
        ⟨(howner o ho).1, (howner o ho).2.1⟩⟩
  · obtain ⟨t, hexec, hoff⟩ := huntClose_other s st id (.found s.channel r) hr
    have hpart : s.lineHeard.hu.role ≠ .noRole := fun h => nomatch hrole.symm.trans h
    obtain ⟨hentry, hraised, hnone, hclear, -, hum, hquiet⟩ :=
      (closeHeard_found s.lineHeard id r hflag hpart hbuilds hdeferred hhome).offered hoff
    exact ⟨t, hexec, hentry, hraised, hnone, hclear, hum, hquiet⟩

/-! ### The owner's timers (R112, R116) -/

section Timers
variable (s : State) (n : Nat) (o : OwnerPart) (id : HuntId) (hr : s.resetHeld = false) (hn : n ≤ 1)
  (hrole : s.hu.role = .owner o) (hid : s.hu.huntId = some id)
include hr hn hrole hid

/-- The owner that waits for joins no longer steps the baseline, or closes where none joined (R112). -/
theorem joinTimer_expires (hphase : o.phase = .collecting) (htimer : o.joinTimer = some n) (hd : s.draining = false) :
    ∃ t, exec .joinTimerExpiry s = .next t ∧ Offered (if o.participants.isEmpty = true then
      s.queueClose id { o with joinTimer := none } .abandoned else
      s.queueStep id { o with joinTimer := none } .noChannel) t := by
  have hover : s.joinsOver id o = if o.participants.isEmpty = true then
      s.queueClose id { o with joinTimer := none } .abandoned else
      s.queueStep id { o with joinTimer := none } .noChannel := if_neg (by rw [hd]; decide)
  rw [← hover]
  refine ⟨_, ?_, settle_offered _⟩
  change execJoinTimerExpiry s = _
  unfold execJoinTimerExpiry
  rw [if_neg (by rw [hr]; decide), hrole, hid]
  exact congrArg Host.Outcome.next (if_pos ⟨hphase, by rw [htimer]; exact decide_eq_true hn⟩)

/-- The owner that waits for READYs no longer closes (R116). -/
theorem readyTimer_expires (hphase : o.phase = .waiting) (htimer : o.readyTimer = some n) (hd : s.draining = false) :
    ∃ t, exec .readyTimerExpiry s = .next t ∧
      Offered (s.queueClose id { o with readyTimer := none } .abandoned) t := by
  refine ⟨_, ?_, settle_offered _⟩
  change execReadyTimerExpiry s = _
  unfold execReadyTimerExpiry
  rw [if_neg (by rw [hr]; decide), hrole, hid]
  refine congrArg Host.Outcome.next ((if_pos ⟨hphase, by rw [htimer]; exact decide_eq_true hn⟩).trans ?_)
  rw [if_neg (by rw [hd]; decide)]

end Timers

/-- Settles O40: each timer at its expiry, by the hunt it ends or the notice it queues. -/
theorem huntTimers : Obligations.HuntTimers := by
  unfold Obligations.HuntTimers
  refine fun s n hr hn => ⟨fun id hflag hguard hdeferred => ?_, fun o id hrole hid hphase htimer hd => ?_,
    fun o id hrole hid hphase htimer hd => ?_⟩
  · obtain ⟨t, hexec, hoff⟩ := guardExpiry_ends s id n hr hflag hguard hn
    have hover := endHunt_over s .abandoned
    rw [takeDeferred_none _ (hover.deferred.trans hdeferred)] at hoff
    obtain ⟨hclear, hstops, -, hum, hua, -, -, hquiet, hleft, -, -, howner⟩ := hover.offered hoff
    refine ⟨t, hexec, hclear, hstops, hum, hua, hquiet, fun hrole => ?_, fun o ho => ?_⟩
    · obtain ⟨hnone, hlist, hawait, hentry⟩ := hleft hrole
      exact ⟨hnone, hlist, hawait, fun h => by rw [hentry h]⟩
    · obtain ⟨hhistory, -, hraised⟩ := howner o ho
      exact ⟨hhistory, hraised⟩
  · obtain ⟨t, hexec, hoff⟩ := joinTimer_expires s n o id hr hn hrole hid hphase htimer hd
    refine ⟨t, hexec, fun hjoined => ?_, fun hnone => ?_⟩
    · rwa [if_neg fun h => hjoined (List.isEmpty_iff.1 h)] at hoff
    · rwa [if_pos (List.isEmpty_iff.2 hnone)] at hoff
  · exact readyTimer_expires s n o id hr hn hrole hid hphase htimer hd

end Sys2Proof.Machine
end

section
/-! PROOFS. The ranges and the law of one account through everything that happens inside it: debits, packets, charges,
closes, refills and settings (R143, R146, R152 to R166). -/

namespace Sys2Proof.Machine

/-! ### What keeps an account in its ranges and balanced -/

/-- From a to b the ranges of an account are kept, and with them its law (R143, R146, R155). -/
structure Account.Keeps (a b : Account) : Prop where
  good : a.Good → b.Good
  balanced : a.Good → a.Balanced → b.Balanced

theorem Account.Keeps.refl (a : Account) : a.Keeps a := ⟨fun h => h, fun _ h => h⟩

theorem Account.Keeps.trans {a b c : Account} (x : a.Keeps b) (y : b.Keeps c) : a.Keeps c :=
  ⟨fun h => y.good (x.good h), fun h hb => y.balanced (x.good h) (x.balanced h hb)⟩

theorem countAdd_le (a b : Nat) : countAdd a b ≤ Config.counterMax := Nat.min_le_left _ _

/-! ### Debits and packets (R152 to R155) -/

/-- What is debited leaves the credit, or is charged beyond it and counted as overdraw (R155). -/
theorem debit_keeps (a : Account) (x : Nat) : a.Keeps (a.debit x) where
  good := by
    rintro ⟨hcredit, hbase, hlow, hup, hdown, -, huc, hdc, huf, hdf, -, -⟩
    exact ⟨Nat.le_trans (Nat.sub_le _ _) hcredit, hbase, hlow, hup, hdown, rfl, huc, hdc, huf, hdf, countAdd_le _ _,
      countAdd_le _ _⟩
  balanced := by
    rintro - ⟨hopen, hover, hlaw⟩
    refine ⟨hopen, ?_, fun hlt => ?_⟩
    all_goals
      simp only [Account.debit, Account.requota, countAdd, satAdd, Config.counterMax] at *
      omega

theorem debitIf_keeps (a : Account) (x : Nat) : a.Keeps (a.debitIf x) := by
  unfold Account.debitIf
  split
  · exact .refl a
  · exact debit_keeps a x

/-- The residues stand outside the law of the account. -/
theorem residues_keeps (a : Account) (up down : Nat) (hu : up < Config.blockBytes) (hd : down < Config.blockBytes) :
    a.Keeps { a with residueUp := up, residueDown := down } where
  good := by
    rintro ⟨hcredit, hbase, hlow, -, -, hrest⟩
    exact ⟨hcredit, hbase, hlow, hu, hd, hrest⟩
  balanced := fun _ h => h

/-- The four byte counts stand outside the law of the account. -/
theorem bytes_keeps (a : Account) (uc dc uf df : Nat) (huc : uc ≤ Config.counterMax) (hdc : dc ≤ Config.counterMax)
    (huf : uf ≤ Config.counterMax) (hdf : df ≤ Config.counterMax) :
    a.Keeps { a with counters := { a.counters with upCharged := uc, downCharged := dc, upFree := uf, downFree := df } } where
  good := by
    rintro ⟨hcredit, hbase, hlow, hup, hdown, hquota, -, -, -, -, hrest⟩
    exact ⟨hcredit, hbase, hlow, hup, hdown, hquota, huc, hdc, huf, hdf, hrest⟩
  balanced := fun _ h => h

theorem blockBytes_pos : 0 < Config.blockBytes := by decide

theorem residue_lt (n : Nat) : n % Config.blockBytes < Config.blockBytes := Nat.mod_lt _ blockBytes_pos

/-- The ranges of the account may be used to show what is kept. -/
theorem keeps_of_good {a b : Account} (h : a.Good → a.Keeps b) : a.Keeps b :=
  ⟨fun g => (h g).good g, fun g => (h g).balanced g⟩

theorem rateUp_keeps (a : Account) (b price : Nat) : a.Keeps (a.rateUp b price) := by
  refine keeps_of_good fun hgood => ?_
  obtain ⟨-, -, -, -, hdown, -⟩ := hgood
  unfold Account.rateUp
  split
  · exact (residues_keeps a _ a.residueDown (residue_lt _) hdown).trans (debitIf_keeps _ _)
  · exact .refl a

theorem rateDown_keeps (a : Account) (b price : Nat) : a.Keeps (a.rateDown b price) := by
  refine keeps_of_good fun hgood => ?_
  obtain ⟨-, -, -, hup, -⟩ := hgood
  unfold Account.rateDown
  split
  · exact (residues_keeps a a.residueUp _ hup (residue_lt _)).trans (debitIf_keeps _ _)
  · exact .refl a

theorem countUp_keeps (a : Account) (free : Bool) (bytes price : Nat) : a.Keeps (a.countUp free bytes price) := by
  refine keeps_of_good fun hgood => ?_
  obtain ⟨-, -, -, -, -, -, huc, hdc, huf, hdf, -⟩ := hgood
  unfold Account.countUp
  split
  · exact bytes_keeps a _ _ _ _ huc hdc (countAdd_le _ _) hdf
  · exact (bytes_keeps a _ _ _ _ (countAdd_le _ _) hdc huf hdf).trans (rateUp_keeps _ _ _)

theorem countDown_keeps (a : Account) (free : Bool) (bytes price : Nat) : a.Keeps (a.countDown free bytes price) := by
  refine keeps_of_good fun hgood => ?_
  obtain ⟨-, -, -, -, -, -, huc, hdc, huf, hdf, -⟩ := hgood
  unfold Account.countDown
  split
  · exact bytes_keeps a _ _ _ _ huc hdc huf (countAdd_le _ _)
  · exact (bytes_keeps a _ _ _ _ huc (countAdd_le _ _) huf hdf).trans (rateDown_keeps _ _ _)

/-! ### The manager's changes (R157, R158) -/

/-- While charged has not saturated the law leaves adjusted so far from its bounds that no addition of millis reaches
them (R143, R155). -/
theorem adjustAdd_exact {a : Account} (hg : a.Good) (hb : a.Balanced) (hlt : a.counters.charged < Config.counterMax)
    (x : Int) (hlo : -(a.credit : Int) ≤ x) (hhi : a.credit + x ≤ Config.millisMax) :
    adjustAdd a.adjusted x = a.adjusted + x := by
  obtain ⟨hcredit, -⟩ := hg
  obtain ⟨hopen, hover, hlaw⟩ := hb
  have heq := hlaw hlt
  simp only [Config.millisMax, Config.counterMax] at *
  unfold adjustAdd clampInt
  omega

/-- The credit moves with adjusted (R157, R158). -/
theorem credit_keeps (a : Account) (mode : Mode) (base low credit : Nat) (hbase : base ≤ Config.millisMax)
    (hlow : low ≤ Config.millisMax) (hcredit : a.credit ≤ Config.millisMax → credit ≤ Config.millisMax) :
    a.Keeps (Account.requota { a with
      mode := mode, base := base, lowWater := low, credit := credit,
      adjusted := adjustAdd a.adjusted ((credit : Int) - (a.credit : Int)) }) where
  good := by
    rintro ⟨hold, -, -, hup, hdown, -, hcounters⟩
    exact ⟨hcredit hold, hbase, hlow, hup, hdown, rfl, hcounters⟩
  balanced := by
    intro hg hb
    have hnew := hcredit hg.1
    obtain ⟨hopen, hover, hlaw⟩ := id hb
    refine ⟨hopen, hover, fun hlt => ?_⟩
    have hexact := adjustAdd_exact hg hb hlt ((credit : Int) - (a.credit : Int)) (by omega) (by omega)
    have hsum := hlaw hlt
    simp only [Account.requota, hexact]
    omega

theorem setTo_keeps (a : Account) (mode : Mode) (base low credit : Nat) (hbase : base ≤ Config.millisMax)
    (hlow : low ≤ Config.millisMax) (hcredit : credit ≤ Config.millisMax) : a.Keeps (a.setTo mode base low credit) :=
  credit_keeps a mode base low credit hbase hlow fun _ => hcredit

theorem refill_keeps (a : Account) (amount : Nat) : a.Keeps (a.refill amount) := by
  refine keeps_of_good fun hgood => ?_
  obtain ⟨hcredit, hbase, hlow, -⟩ := hgood
  have hle : a.refillAmount amount ≤ Config.millisMax - a.credit := Nat.min_le_right _ _
  have hrefill : a.refill amount = Account.requota { a with
      mode := a.mode, base := a.base, lowWater := a.lowWater, credit := a.credit + a.refillAmount amount,
      adjusted := adjustAdd a.adjusted (((a.credit + a.refillAmount amount : Nat) : Int) - (a.credit : Int)) } := by
    rw [show ((a.credit + a.refillAmount amount : Nat) : Int) - (a.credit : Int) = a.refillAmount amount by omega]
    rfl
  rw [hrefill]
  exact credit_keeps a a.mode a.base a.lowWater _ hbase hlow fun _ => by omega

/-! ### A period that begins with no counts (R134, R144, R162, R164, R166) -/

/-- Counters at zero are in range, whatever else the account holds. -/
theorem zero_counters (a : Account) (hc : a.counters = Counters.zero) (hcredit : a.credit ≤ Config.millisMax)
    (hbase : a.base ≤ Config.millisMax) (hlow : a.lowWater ≤ Config.millisMax) (hup : a.residueUp < Config.blockBytes)
    (hdown : a.residueDown < Config.blockBytes) (hq : a.quota = quotaOf a.mode a.credit a.lowWater) : a.Good := by
  refine ⟨hcredit, hbase, hlow, hup, hdown, hq, ?_⟩
  rw [hc]
  decide

/-- An account whose period begins at its credit is balanced. -/
theorem balanced_of_begun (a : Account) (hc : a.counters = Counters.zero) (ho : a.creditOpen = a.credit)
    (ha : a.adjusted = 0) (hcredit : a.credit ≤ Config.millisMax) : a.Balanced := by
  unfold Account.Balanced
  rw [hc, ho, ha]
  refine ⟨hcredit, Nat.le_refl _, fun _ => ?_⟩
  simp [Counters.zero]

theorem opening_good (mode : Mode) (period : Nat) : (Account.opening mode period).Good :=
  zero_counters _ rfl (Nat.zero_le _) (Nat.zero_le _) (Nat.zero_le _) blockBytes_pos blockBytes_pos rfl

theorem opening_balanced (mode : Mode) (period : Nat) : (Account.opening mode period).Balanced :=
  balanced_of_begun _ rfl rfl rfl (Nat.zero_le _)

theorem freshPeriod_good {a : Account} (h : a.Good) : a.freshPeriod.Good := by
  obtain ⟨hcredit, hbase, hlow, hup, hdown, hquota, -⟩ := h
  exact zero_counters _ rfl hcredit hbase hlow hup hdown hquota

theorem freshPeriod_balanced {a : Account} (h : a.Good) : a.freshPeriod.Balanced := balanced_of_begun _ rfl rfl rfl h.1

theorem install_good (mode : Mode) (credit base low up down period : Nat) (hcredit : credit ≤ Config.millisMax)
    (hbase : base ≤ Config.millisMax) (hlow : low ≤ Config.millisMax) (hup : up < Config.blockBytes)
    (hdown : down < Config.blockBytes) : (Account.install mode credit base low up down period).Good :=
  zero_counters _ rfl hcredit hbase hlow hup hdown rfl

/-- A period close, where the credit of a REFILL account returns to its base (R164). -/
theorem closePeriod_keeps (a : Account) (p : Nat) : a.Keeps (a.closePeriod p) := by
  refine keeps_of_good fun hgood => ?_
  obtain ⟨hcredit, hbase, hlow, hup, hdown, -⟩ := hgood
  have hnew : (a.closePeriod p).credit ≤ Config.millisMax := by
    have hc : (a.closePeriod p).credit = if a.mode = .refill then a.base else a.credit := rfl
    rw [hc]
    split
    · exact hbase
    · exact hcredit
  exact ⟨fun _ => zero_counters _ rfl hnew hbase hlow hup hdown rfl, fun _ _ => balanced_of_begun _ rfl rfl rfl hnew⟩

/-- The final charge is two debits and leaves no residue (R159). -/
theorem finalCharge_keeps (a : Account) (b : Band) : a.Keeps (a.finalCharge b) := by
  unfold Account.finalCharge
  dsimp only
  split
  · exact ((debitIf_keeps a _).trans (debitIf_keeps _ _)).trans (residues_keeps _ 0 0 blockBytes_pos blockBytes_pos)
  · exact residues_keeps a 0 0 blockBytes_pos blockBytes_pos

/-- The account of a closing home stays in its ranges, its counters at zero (R159, R166). -/
theorem finish_good {a : Account} (h : a.Good) (kind : RecordKind) (b : Band) (period : Nat) :
    (a.finish kind b period).Good := by
  have hcharged : (a.charged kind b).Good := by
    unfold Account.charged
    split
    · exact h
    · exact (finalCharge_keeps a b).good h
  obtain ⟨hcredit, hbase, hlow, hup, hdown, hquota, -⟩ := hcharged
  rw [finish_eq]
  exact zero_counters _ rfl hcredit hbase hlow hup hdown hquota

theorem finish_counters (a : Account) (kind : RecordKind) (b : Band) (period : Nat) :
    (a.finish kind b period).counters = Counters.zero := by
  rw [finish_eq]
  rfl

end Sys2Proof.Machine
end

section
/-! PROOFS. What the law of accounts reads of a home, its state and its account; how a step may move both; and the moves
that keep the law (R135, R136, R144, R155). -/

namespace Sys2Proof.Machine

/-! ### What the law of accounts reads of a home -/

/-- The clause of `AccountsInv` at one home. -/
def Lawful (st : HomeState) (o : Option Account) : Prop :=
  ∀ a, o = some a → a.Good ∧ (st.accountRuns = true → a.Balanced)

theorem accountsInv_iff (s : State) : AccountsInv s ↔ ∀ h, Lawful (s.entry h).state (s.acct h) := Iff.rfl

/-- The counters of the account stand, or begin again at zero (R155). -/
def CountersStand (o o' : Option Account) : Prop :=
  ∀ b, o' = some b → b.counters = Counters.zero ∨ ∃ a, o = some a ∧ b.counters = a.counters

/-- The account is unchanged but for its snapshot (R135). -/
def StaysFrozen (o o' : Option Account) : Prop := ∀ b, o' = some b → ∃ a, o = some a ∧ b = { a with snapshot := b.snapshot }

theorem CountersStand.refl (o : Option Account) : CountersStand o o := fun b hb => .inr ⟨b, hb, rfl⟩

theorem CountersStand.trans {o o' o'' : Option Account} (x : CountersStand o o') (y : CountersStand o' o'') :
    CountersStand o o'' := by
  intro c hc
  rcases y c hc with hz | ⟨b, hb, hcb⟩
  · exact .inl hz
  · rw [hcb]
    exact x b hb

theorem StaysFrozen.refl (o : Option Account) : StaysFrozen o o := fun b hb => ⟨b, hb, rfl⟩

theorem StaysFrozen.trans {o o' o'' : Option Account} (x : StaysFrozen o o') (y : StaysFrozen o' o'') :
    StaysFrozen o o'' := by
  intro c hc
  obtain ⟨b, hb, hcb⟩ := y c hc
  obtain ⟨a, ha, hba⟩ := x b hb
  refine ⟨a, ha, ?_⟩
  rw [hcb, hba]

/-! ### How a home may move -/

/-- What one command may do at a home: the law is kept, where the command is well formed; a HANDED account that stays so or
returns to LOST is unchanged but for its snapshot; and outside the served states nothing is counted. -/
structure HomeLaw (W : Prop) (st st' : HomeState) (o o' : Option Account) : Prop where
  lawful : W → Lawful st o → Lawful st' o'
  frozen : st = .handed → st' = .handed ∨ st' = .lost → StaysFrozen o o'
  counters : st.served = false → CountersStand o o'

/-- What any number of operations may do at a home but for the few that begin an account, count packets or return a HANDED
home: nothing is counted, and a home whose account does not run stays so. -/
structure HomeCalm (W : Prop) (st st' : HomeState) (o o' : Option Account) : Prop where
  lawful : W → Lawful st o → Lawful st' o'
  counters : CountersStand o o'
  handed : st = .handed → st'.accountRuns = true → st' = .handed ∧ StaysFrozen o o'
  apart : st.accountRuns = false → st'.accountRuns = false

section Homes
variable {W : Prop} {st st' st'' : HomeState} {o o' o'' : Option Account} {a b : Account}

theorem HomeCalm.refl (st : HomeState) (o : Option Account) : HomeCalm W st st o o :=
  ⟨fun _ h => h, .refl o, fun h _ => ⟨h, .refl o⟩, fun h => h⟩

theorem HomeCalm.trans (x : HomeCalm W st st' o o') (y : HomeCalm W st' st'' o' o'') : HomeCalm W st st'' o o'' := by
  refine ⟨fun w h => y.lawful w (x.lawful w h), x.counters.trans y.counters, fun hs hr => ?_, fun h => y.apart (x.apart h)⟩
  have hmid : st'.accountRuns = true := by
    by_contra hno
    rw [y.apart (Bool.eq_false_of_not_eq_true hno)] at hr
    cases hr
  obtain ⟨hs', hfrozen⟩ := x.handed hs hmid
  obtain ⟨hs'', hfrozen'⟩ := y.handed hs' hr
  exact ⟨hs'', hfrozen.trans hfrozen'⟩

theorem HomeCalm.law (x : HomeCalm W st st' o o') : HomeLaw W st st' o o' := by
  refine ⟨x.lawful, fun hs hs' => ?_, fun _ => x.counters⟩
  have hruns : st'.accountRuns = true := by rcases hs' with rfl | rfl <;> rfl
  exact (x.handed hs hruns).2

/-- Behind one command's move the home may still leave the states whose account runs. -/
theorem HomeLaw.leaves (x : HomeLaw W st st' o o') (y : HomeCalm W st' st'' o' o'') (hs : st''.accountRuns = false) :
    HomeLaw W st st'' o o'' := by
  refine ⟨fun w h => y.lawful w (x.lawful w h), fun _ h => ?_, fun h => (x.counters h).trans y.counters⟩
  rcases h with rfl | rfl <;> cases hs

/-! ### The moves of one home -/

theorem lawful_none (st : HomeState) : Lawful st none := fun _ h => nomatch h

/-- A home is freed (R45). -/
theorem homeCalm_freed : HomeCalm W st .free o none :=
  ⟨fun _ _ => lawful_none _, fun _ h => (nomatch h), fun _ h => (nomatch h), fun _ => rfl⟩

/-- A home closes, its account finished (R43, R159, R166). -/
theorem homeCalm_closing (kind : RecordKind) (band : Band) (period : Nat) :
    HomeCalm W st .closing o (o.map fun a => a.finish kind band period) := by
  refine ⟨fun _ h => ?_, ?_, fun _ h => (nomatch h), fun _ => rfl⟩
  · intro b hb
    obtain ⟨a, ha, rfl⟩ := Option.map_eq_some_iff.1 hb
    exact ⟨finish_good (h a ha).1 kind band period, fun hr => (nomatch hr)⟩
  · intro b hb
    obtain ⟨a, -, rfl⟩ := Option.map_eq_some_iff.1 hb
    exact .inl (finish_counters a kind band period)

/-- A home stands in a state whose account does not run, the account as it was. -/
theorem homeCalm_apart (hs : st'.accountRuns = false) : HomeCalm W st st' o o := by
  refine ⟨fun _ h a ha => ⟨(h a ha).1, fun hr => ?_⟩, .refl o, fun _ hr => ?_, fun _ => hs⟩ <;>
    rw [hs] at hr <;> cases hr

/-- A home turns from a state whose account runs, but not from HANDED, the account as it was. -/
theorem homeCalm_turns (hr : st.accountRuns = true) (hs : st ≠ .handed) : HomeCalm W st st' o o := by
  refine ⟨fun _ h a ha => ⟨(h a ha).1, fun _ => (h a ha).2 hr⟩, .refl o, fun h => absurd h hs, fun h => ?_⟩
  rw [hr] at h
  cases h

/-- An account that is not frozen changes within its law, and nothing is counted at it. -/
theorem homeCalm_changed (hs : st ≠ .handed) (hk : a.Keeps b)
    (hc : b.counters = Counters.zero ∨ b.counters = a.counters) : HomeCalm W st st (some a) (some b) := by
  refine ⟨fun _ h => ?_, ?_, fun h => absurd h hs, fun h => h⟩
  · rintro _ ⟨⟩
    obtain ⟨hgood, hbalanced⟩ := h a rfl
    exact ⟨hk.good hgood, fun hr => hk.balanced hgood (hbalanced hr)⟩
  · rintro _ ⟨⟩
    exact hc.imp_right fun he => ⟨a, rfl, he⟩

/-- The snapshot of an account is no part of its law (R135, R169). -/
theorem homeCalm_snapshot (sn : Option Snapshot) : HomeCalm W st st (some a) (some { a with snapshot := sn }) := by
  refine ⟨fun _ h => ?_, ?_, fun h _ => ⟨h, ?_⟩, fun h => h⟩
  · rintro _ ⟨⟩
    exact h a rfl
  · rintro _ ⟨⟩
    exact .inr ⟨a, rfl, rfl⟩
  · rintro _ ⟨⟩
    exact ⟨a, rfl, rfl⟩

/-- An account is installed at a home whose account does not run (R133). -/
theorem homeCalm_installed (hs : st.accountRuns = false) (hg : W → b.Good) (hz : b.counters = Counters.zero) :
    HomeCalm W st st o (some b) := by
  refine ⟨fun w _ => ?_, ?_, fun _ hr => ?_, fun h => h⟩
  · rintro _ ⟨⟩
    exact ⟨hg w, fun hr => by rw [hs] at hr; cases hr⟩
  · rintro _ ⟨⟩
    exact .inl hz
  · rw [hs] at hr
    cases hr

/-- An account begins at zero where the home was not HANDED (R61, R134). -/
theorem homeLaw_begun (hs : st ≠ .handed) (hl : Lawful st o → Lawful st' o')
    (hz : ∀ b, o' = some b → b.counters = Counters.zero) : HomeLaw W st st' o o' :=
  ⟨fun _ => hl, fun h => absurd h hs, fun _ b hb => .inl (hz b hb)⟩

/-- A HANDED home is LOST with its account reinstated (R135). -/
theorem homeLaw_reinstated (hs : st = .handed) : HomeLaw W st .lost o o :=
  ⟨fun _ h a ha => ⟨(h a ha).1, fun _ => (h a ha).2 (by rw [hs]; rfl)⟩, fun _ _ => .refl o, fun _ => .refl o⟩

/-- At a served home the law alone is asked for. -/
theorem homeLaw_served (hs : st.served = true) (hl : W → Lawful st o → Lawful st' o') : HomeLaw W st st' o o' := by
  refine ⟨hl, ?_, fun h => ?_⟩
  · rintro rfl
    cases hs
  · rw [hs] at h
    cases h

end Homes

/-! ### How a step may move the homes -/

/-- No state and no account of a home is written. -/
structure AcctSame (s t : State) : Prop where
  state : ∀ h, (t.entry h).state = (s.entry h).state
  acct : ∀ h, t.acct h = s.acct h

/-- Every home moves calmly. -/
def AcctCalm (W : Prop) (s t : State) : Prop :=
  ∀ h, HomeCalm W (s.entry h).state (t.entry h).state (s.acct h) (t.acct h)

/-- Every home moves as one command may move it. -/
def AcctLaw (W : Prop) (s t : State) : Prop :=
  ∀ h, HomeLaw W (s.entry h).state (t.entry h).state (s.acct h) (t.acct h)

/-- One home is written, to this state and this account. -/
structure HomeAt (s t : State) (h : Nat) (st : HomeState) (o : Option Account) : Prop where
  others : ∀ k, k ≠ h → (t.entry k).state = (s.entry k).state ∧ t.acct k = s.acct k
  here : 1 ≤ h ∧ h ≤ 64 → (t.entry h).state = st ∧ t.acct h = o

/-- The account of one home is counted at, within its law. -/
structure Counted (s t : State) (h : Nat) : Prop where
  state : ∀ k, (t.entry k).state = (s.entry k).state
  others : ∀ k, k ≠ h → t.acct k = s.acct k
  lawful : Lawful (s.entry h).state (s.acct h) → Lawful (s.entry h).state (t.acct h)

section Moves
variable {W : Prop} {s t u : State} {h : Nat} {st : HomeState} {o : Option Account}

theorem AcctSame.refl (s : State) : AcctSame s s := ⟨fun _ => rfl, fun _ => rfl⟩

theorem AcctSame.trans (x : AcctSame s t) (y : AcctSame t u) : AcctSame s u :=
  ⟨fun h => (y.state h).trans (x.state h), fun h => (y.acct h).trans (x.acct h)⟩

theorem AcctSame.ite {c : Prop} [Decidable c] (x : c → AcctSame s t) (y : ¬c → AcctSame s u) :
    AcctSame s (if c then t else u) := by
  split
  next h => exact x h
  next h => exact y h

theorem AcctSame.foldl {α : Type} (f : State → α → State) (hf : ∀ s a, AcctSame s (f s a)) (s : State) (xs : List α) :
    AcctSame s (xs.foldl f s) := by
  induction xs generalizing s with
  | nil => exact .refl s
  | cons x xs ih => exact (hf s x).trans (ih (f s x))

theorem AcctSame.calm (x : AcctSame s t) : AcctCalm W s t := by
  intro h
  rw [x.state, x.acct]
  exact .refl _ _

theorem AcctCalm.refl (s : State) : AcctCalm W s s := (AcctSame.refl s).calm

theorem AcctCalm.trans (x : AcctCalm W s t) (y : AcctCalm W t u) : AcctCalm W s u := fun h => (x h).trans (y h)

theorem AcctCalm.same (x : AcctCalm W s t) (y : AcctSame t u) : AcctCalm W s u := x.trans y.calm

theorem AcctSame.before (x : AcctSame s t) (y : AcctCalm W t u) : AcctCalm W s u := x.calm.trans y

theorem AcctCalm.ite {c : Prop} [Decidable c] (x : c → AcctCalm W s t) (y : ¬c → AcctCalm W s u) :
    AcctCalm W s (if c then t else u) := by
  split
  next h => exact x h
  next h => exact y h

theorem AcctCalm.foldl {α : Type} (f : State → α → State) (hf : ∀ s a, AcctCalm W s (f s a)) (s : State) (xs : List α) :
    AcctCalm W s (xs.foldl f s) := by
  induction xs generalizing s with
  | nil => exact .refl s
  | cons x xs ih => exact (hf s x).trans (ih (f s x))

theorem AcctCalm.law (x : AcctCalm W s t) : AcctLaw W s t := fun h => (x h).law

theorem AcctSame.law (x : AcctSame s t) : AcctLaw W s t := x.calm.law

theorem AcctLaw.same (x : AcctLaw W s t) (y : AcctSame t u) : AcctLaw W s u := by
  intro h
  rw [y.state, y.acct]
  exact x h

theorem AcctSame.beforeLaw (x : AcctSame s t) (y : AcctLaw W t u) : AcctLaw W s u := by
  intro h
  rw [← x.state, ← x.acct]
  exact y h

theorem AcctLaw.ite {c : Prop} [Decidable c] (x : c → AcctLaw W s t) (y : ¬c → AcctLaw W s u) :
    AcctLaw W s (if c then t else u) := by
  split
  next h => exact x h
  next h => exact y h

theorem sameAccts_of_roster (hr : t.roster = s.roster) (ha : t.um.accounts = s.um.accounts) : AcctSame s t :=
  ⟨fun k => congrArg Entry.state (entry_of_roster s t hr k), fun k => by unfold State.acct; rw [ha]⟩

/-- Every entry of the roster is rewritten and keeps its state. -/
theorem sameAccts_of_map (f : Nat → Entry → Entry) (hr : t.roster = tableMap f s.roster)
    (hf : ∀ h e, (f h e).state = e.state) (ha : t.um.accounts = s.um.accounts) : AcctSame s t := by
  refine ⟨fun k => ?_, fun k => by unfold State.acct; rw [ha]⟩
  have hentry : t.entry k = if 1 ≤ k ∧ k ≤ 64 then f k (s.entry k) else Entry.free := by
    unfold State.entry
    rw [hr, tableGet_tableMap]
  rw [hentry]
  split
  next => exact hf k _
  next hk => rw [entry_outside s k hk]

theorem ReportsOnly.acctSame (x : ReportsOnly s t) : AcctSame s t :=
  sameAccts_of_roster x.roster (congrArg UsageMeter.accounts x.um)

theorem NoticesOnly.acctSame (x : NoticesOnly s t) : AcctSame s t :=
  sameAccts_of_roster x.roster (congrArg UsageMeter.accounts x.um)

/-! ### One home written -/

/-- Outside the roster no home is read. -/
theorem HomeAt.cases (x : HomeAt s t h st o) (k : Nat) :
    ((t.entry k).state = (s.entry k).state ∧ t.acct k = s.acct k) ∨ (k = h ∧ (t.entry h).state = st ∧ t.acct h = o) := by
  by_cases hk : k = h
  · subst hk
    by_cases hr : 1 ≤ k ∧ k ≤ 64
    · exact .inr ⟨rfl, x.here hr⟩
    · refine .inl ⟨?_, ?_⟩
      · rw [entry_outside s k hr, entry_outside t k hr]
      · rw [acct_outside s k hr, acct_outside t k hr]
  · exact .inl (x.others k hk)

theorem HomeAt.calm (x : HomeAt s t h st o) (hc : HomeCalm W (s.entry h).state st (s.acct h) o) : AcctCalm W s t := by
  intro k
  rcases x.cases k with ⟨hs, ha⟩ | ⟨rfl, hs, ha⟩
  · rw [hs, ha]
    exact .refl _ _
  · rw [hs, ha]
    exact hc

theorem HomeAt.law (x : HomeAt s t h st o) (hc : HomeLaw W (s.entry h).state st (s.acct h) o) : AcctLaw W s t := by
  intro k
  rcases x.cases k with ⟨hs, ha⟩ | ⟨rfl, hs, ha⟩
  · rw [hs, ha]
    exact (HomeCalm.refl _ _).law
  · rw [hs, ha]
    exact hc

theorem HomeAt.same (x : HomeAt s t h st o) (y : AcctSame t u) : HomeAt s u h st o :=
  ⟨fun k hk => ⟨(y.state k).trans (x.others k hk).1, (y.acct k).trans (x.others k hk).2⟩,
    fun hr => ⟨(y.state h).trans (x.here hr).1, (y.acct h).trans (x.here hr).2⟩⟩

theorem AcctSame.at (x : AcctSame s t) (h : Nat) : HomeAt s t h (s.entry h).state (s.acct h) :=
  ⟨fun k _ => ⟨x.state k, x.acct k⟩, fun _ => ⟨x.state h, x.acct h⟩⟩

theorem HomeAt.setEntry (x : HomeAt s t h st o) (e : Entry) : HomeAt s (t.setEntry h e) h e.state o := by
  refine ⟨fun k hk => ?_, fun hr => ?_⟩
  · rw [entry_setEntry_other t h k e hk]
    exact x.others k hk
  · rw [entry_setEntry_self t h e hr]
    exact ⟨rfl, (x.here hr).2⟩

theorem HomeAt.setAcct (x : HomeAt s t h st o) (a : Option Account) : HomeAt s (t.setAcct h a) h st a := by
  refine ⟨fun k hk => ⟨(x.others k hk).1, ?_⟩, fun hr => ⟨(x.here hr).1, ?_⟩⟩
  · rw [acct_setAcct, if_neg fun y => hk y.1]
    exact (x.others k hk).2
  · rw [acct_setAcct, if_pos ⟨rfl, hr⟩]

theorem setEntry_at (s : State) (h : Nat) (e : Entry) : HomeAt s (s.setEntry h e) h e.state (s.acct h) :=
  ((AcctSame.refl s).at h).setEntry e

theorem setAcct_at (s : State) (h : Nat) (a : Option Account) : HomeAt s (s.setAcct h a) h (s.entry h).state a :=
  ((AcctSame.refl s).at h).setAcct a

theorem changeAcct_at (s : State) (h : Nat) (a : Account) : HomeAt s (s.changeAcct h a) h (s.entry h).state (some a) :=
  (setAcct_at s h _).same (changeAcct_reportsOnly s h a).acctSame

theorem setEntry_acctSame (s : State) (h : Nat) (e : Entry) (he : e.state = (s.entry h).state) :
    AcctSame s (s.setEntry h e) := by
  refine ⟨fun k => ?_, fun _ => rfl⟩
  rcases (setEntry_at s h e).cases k with ⟨hs, -⟩ | ⟨rfl, hs, -⟩
  · exact hs
  · exact hs.trans he

/-! ### An account counted at (R152, R153) -/

theorem Counted.refl (s : State) (h : Nat) : Counted s s h := ⟨fun _ => rfl, fun _ _ => rfl, fun x => x⟩

theorem Counted.trans (x : Counted s t h) (y : Counted t u h) : Counted s u h := by
  refine ⟨fun k => (y.state k).trans (x.state k), fun k hk => (y.others k hk).trans (x.others k hk), fun hl => ?_⟩
  have hl' := y.lawful
  rw [x.state] at hl'
  exact hl' (x.lawful hl)

/-- The account of a served home is counted at, and calm operations follow. -/
theorem Counted.law (x : Counted s t h) (hs : (s.entry h).state.served = true) (y : AcctCalm W t u) : AcctLaw W s u := by
  intro k
  have hy := y k
  rw [x.state k] at hy
  by_cases hk : k = h
  · subst hk
    exact homeLaw_served hs fun w hl => hy.lawful w (x.lawful hl)
  · rw [x.others k hk] at hy
    exact hy.law

theorem changeAcct_counted (s : State) (h : Nat) (a b : Account) (ha : s.acct h = some a) (hk : a.Keeps b) :
    Counted s (s.changeAcct h b) h := by
  have hat := changeAcct_at s h b
  refine ⟨fun k => ?_, fun k hk => (hat.others k hk).2, fun hl => ?_⟩
  · rcases hat.cases k with ⟨hs, -⟩ | ⟨rfl, hs, -⟩ <;> exact hs
  · rcases hat.cases h with ⟨-, hsame⟩ | ⟨-, -, hnew⟩
    · rw [hsame]
      exact hl
    · rw [hnew]
      rintro _ ⟨⟩
      obtain ⟨hgood, hbalanced⟩ := hl a ha
      exact ⟨hk.good hgood, fun hr => hk.balanced hgood (hbalanced hr)⟩

end Moves

end Sys2Proof.Machine
end

section
/-! PROOFS. The accounts through the shared operations, the line, the upstream path and enrolment. -/

namespace Sys2Proof.Machine

section Engines
variable {W : Prop}

/-! ### The shared operations -/

theorem queueNotice_acctSame (s : State) (n : Notice) : AcctSame s (s.queueNotice n) := sameAccts_of_roster rfl rfl

theorem withdraw_acctSame (s : State) (test : Notice → Bool) : AcctSame s (s.withdraw test) := sameAccts_of_roster rfl rfl

theorem pushEvent_acctSame (s : State) (e : Event) : AcctSame s (s.pushEvent e) := (pushEvent_noticesOnly s e).acctSame

theorem settle_acctSame (s : State) : AcctSame s s.settle := sameAccts_of_roster (by simp) (by simp)

theorem setDrift_acctSame (s : State) (h : Nat) (d : Drift) : AcctSame s (s.setDrift h d) := sameAccts_of_roster rfl rfl

theorem setPhase_acctSame (s : State) (h : Nat) (p : Phase) : AcctSame s (s.setPhase h p) := setDrift_acctSame s h _

theorem raiseAlarm_acctSame (s : State) (a : AlarmSource) (c : AlarmContent) : AcctSame s (s.raiseAlarm a c) :=
  (raiseAlarm_reportsOnly s a c).acctSame

theorem endCondition_acctSame (s : State) (a : AlarmSource) : AcctSame s (s.endCondition a) :=
  (endCondition_reportsOnly s a).acctSame

theorem startCredit_acctSame (s : State) (h : Nat) : AcctSame s (s.startCredit h) := (startCredit_reportsOnly s h).acctSame

theorem choices_acctSame (s : State) (n : Nat) : AcctSame s { s with choices := n } := sameAccts_of_roster rfl rfl

/-- The ports', the port's and the Request Handler's own fields hold no home. -/
theorem line_acctSame (s : State) (p : LinePort) (o : Ports) (q : RequestHandler) :
    AcctSame s { s with slp := p, ports := o, rq := q } := sameAccts_of_roster rfl rfl

theorem freeEntry_at (s : State) (h : Nat) : HomeAt s (s.freeEntry h) h .free none := by
  refine ⟨fun k hk => ?_, fun _ => ?_⟩
  · rw [freeEntry_entry, freeEntry_acct, if_neg hk, if_neg hk]
    exact ⟨rfl, rfl⟩
  · rw [freeEntry_entry, freeEntry_acct, if_pos rfl, if_pos rfl]
    exact ⟨rfl, rfl⟩

theorem freeEntry_acctCalm (s : State) (h : Nat) : AcctCalm W s (s.freeEntry h) := (freeEntry_at s h).calm homeCalm_freed

theorem enterClosing_at (s : State) (h : Nat) (kind : RecordKind) (release : Bool) :
    HomeAt s (s.enterClosing h kind release) h .closing
      ((s.acct h).map fun a => a.finish kind (s.bandAt s.um.band) s.um.period) := by
  refine ⟨fun k hk => ?_, fun hr => ?_⟩
  · rw [enterClosing_entry, enterClosing_acct, if_neg fun x => hk x.1, if_neg fun x => hk x.1]
    exact ⟨rfl, rfl⟩
  · rw [enterClosing_entry, enterClosing_acct, if_pos ⟨rfl, hr⟩, if_pos ⟨rfl, hr⟩, toClosing_state]
    exact ⟨rfl, rfl⟩

theorem enterClosing_acctCalm (s : State) (h : Nat) (kind : RecordKind) (release : Bool) :
    AcctCalm W s (s.enterClosing h kind release) := (enterClosing_at s h kind release).calm (homeCalm_closing _ _ _)

theorem release_acctCalm (s : State) (h : Nat) (reason : ReleaseReason) (release : Bool) :
    AcctCalm W s (s.release h reason release) := (enterClosing_acctCalm s h _ release).same (pushEvent_acctSame _ _)

theorem drainClose_acctCalm (s : State) (h : Nat) : AcctCalm W s (s.drainClose h) :=
  .ite (fun _ => enterClosing_acctCalm s h .restart true) fun _ => .refl s

/-- A home that one command has brought to ACTIVE or LOST may close in the same change (R192). -/
theorem AcctLaw.drainClose {s t : State} (x : AcctLaw W s t) (h : Nat) : AcctLaw W s (t.drainClose h) := by
  unfold State.drainClose
  split
  · intro k
    have hcalm := enterClosing_acctCalm (W := W) t h .restart true k
    rcases (enterClosing_at t h .restart true).cases k with ⟨hs, ha⟩ | ⟨rfl, hs, -⟩
    · rw [hs, ha]
      exact x k
    · exact (x k).leaves hcalm (by rw [hs]; rfl)
  · exact x

theorem enterLost_at (s : State) (h : Nat) : HomeAt s (s.enterLost h) h .lost (s.acct h) :=
  (setEntry_at s h _).same ((setPhase_acctSame _ h .off).trans ((endCondition_acctSame _ _).trans (raiseAlarm_acctSame _ _ _)))

/-- A home that runs, but is not HANDED, turns to another state. -/
theorem turn_acctCalm (s : State) (h : Nat) (e : Entry) (hr : (s.entry h).state.accountRuns = true)
    (hs : (s.entry h).state ≠ .handed) : AcctCalm W s (s.setEntry h e) := (setEntry_at s h e).calm (homeCalm_turns hr hs)

/-- A home turns to a state whose account does not run. -/
theorem apart_acctCalm (s : State) (h : Nat) (e : Entry) (he : e.state.accountRuns = false) :
    AcctCalm W s (s.setEntry h e) := (setEntry_at s h e).calm (homeCalm_apart he)

theorem loseHome_acctCalm (s : State) (h : Nat) (hr : (s.entry h).state.accountRuns = true)
    (hs : (s.entry h).state ≠ .handed) : AcctCalm W s (s.loseHome h) :=
  ((enterLost_at s h).calm (homeCalm_turns hr hs)).trans (drainClose_acctCalm _ h)

theorem setDriftHold_acctSame (s : State) (h : Nat) : AcctSame s (s.setDriftHold h) :=
  (setEntry_acctSame s h _ (by rfl)).trans ((setPhase_acctSame _ h .seeking).trans (raiseAlarm_acctSame _ _ _))

theorem clearDriftHold_acctSame (s : State) (h : Nat) : AcctSame s (s.clearDriftHold h) :=
  (setEntry_acctSame s h _ (by rfl)).trans ((setPhase_acctSame _ h .off).trans (endCondition_acctSame _ _))

/-- The states a move passes through while its home is served here (R124). -/
theorem moving_runs {st : HomeState} (h : st = .leaving ∨ st = .tuning) : st.accountRuns = true ∧ st ≠ .handed := by
  rcases h with rfl | rfl <;> decide

/-- A LEAVING or TUNING home is back, ACTIVE or LOST by its counts, and its account runs on (R26, R37, R93). -/
theorem returnActive_acctCalm (s : State) (h : Nat) (hs : (s.entry h).state = .leaving ∨ (s.entry h).state = .tuning) :
    AcctCalm W s (s.returnActive h) := by
  obtain ⟨hr, hne⟩ := moving_runs hs
  have hact : AcctCalm W s (s.setEntry h (s.entry h).toActive) := turn_acctCalm s h _ hr hne
  have hstate : ((s.setEntry h (s.entry h).toActive).entry h).state = .active := by
    rw [entry_setEntry_self s h _ (handle_of_state s h (ne_of_accountRuns hr).1)]
    rfl
  have hdrift := setDriftHold_acctSame (s.setEntry h (s.entry h).toActive) h
  have hdrifting := (hdrift.state h).trans hstate
  have hlost := hact.trans (loseHome_acctCalm _ h (by rw [hstate]; rfl) (by rw [hstate]; decide))
  have hboth := (hact.same hdrift).trans (loseHome_acctCalm _ h (by rw [hdrifting]; rfl) (by rw [hdrifting]; decide))
  unfold State.returnActive
  dsimp only
  split_ifs
  · exact hact.trans (drainClose_acctCalm _ h)
  · exact (hact.same hdrift).trans (drainClose_acctCalm _ h)
  · exact hlost
  · exact hlost.same (choices_acctSame _ _)
  · exact hboth.same (choices_acctSame _ _)

theorem takeEntry_at (s : State) (h : Nat) (e : Entry) : HomeAt s (s.takeEntry h e) h e.state (s.acct h) :=
  (setEntry_at s h e).same (sameAccts_of_roster rfl rfl)

theorem powerOn_acctCalm (s : State) (straps : Station) : AcctCalm W s (s.powerOn straps) := by
  intro h
  rw [powerOn_entry, powerOn_acct]
  exact homeCalm_freed

/-! ### The line (R59, R169, R174, R178, R183) -/

theorem lineHeard_acctSame (s : State) : AcctSame s s.lineHeard := (lineHeard_noticesOnly s).acctSame

theorem ownCarried_acctSame (s : State) : AcctSame s s.ownCarried := (ownCarried_noticesOnly s).acctSame

theorem noticeCarried_acctSame (s : State) : AcctSame s s.noticeCarried := (noticeCarried_noticesOnly s).acctSame

theorem freePlaceOf_acctSame (s : State) (h : Nat) : AcctSame s (s.freePlaceOf h) := sameAccts_of_roster rfl rfl

theorem dropClaim_acctCalm (s : State) (serial : Serial) (h : Nat) : AcctCalm W s (s.dropClaim serial h) := by
  rw [dropClaim_eq]
  exact ((freePlaceOf_acctSame s h).before (freeEntry_acctCalm _ h)).same (withdraw_acctSame _ _)

theorem dropUncarried_acctCalm (s : State) : AcctCalm W s s.dropUncarried := by
  refine .foldl _ (fun t c => ?_) s _
  split
  · exact .refl t
  · split
    · exact .refl t
    · exact .ite (fun _ => .refl t) fun _ => dropClaim_acctCalm t _ _

theorem detachIfDue_acctCalm (s : State) : AcctCalm W s s.detachIfDue :=
  .ite (fun _ => .refl s) fun _ => (line_acctSame s _ s.ports s.rq).before (dropUncarried_acctCalm _)

theorem removeWithdrawn_acctCalm (s : State) : AcctCalm W s s.removeWithdrawn := by
  have hslot := line_acctSame s { s.slp with noticeSlot := none } s.ports s.rq
  unfold State.removeWithdrawn
  split
  · exact .refl s
  · split
    · dsimp only
      split
      · split
        · exact hslot.calm
        · exact .ite (fun _ => hslot.before (freeEntry_acctCalm _ _)) fun _ => hslot.calm
      · exact hslot.calm
    · exact .refl s

theorem reportGone_acctSame (s : State) (f : ReportFrame) : AcctSame s (s.reportGone f) := by
  unfold State.reportGone
  dsimp only
  split
  all_goals exact line_acctSame s _ s.ports _

/-- What a carried record takes from the snapshot is no part of the account's law (R169). -/
theorem recordCarried_acctCalm (s : State) (f : UsageFrame) : AcctCalm W s (s.recordCarried f) := by
  have hslot := line_acctSame s { s.slp with usageSlot := none } s.ports s.rq
  unfold State.recordCarried
  dsimp only
  split
  · exact hslot.calm
  next a ha =>
    split
    · exact hslot.calm
    next sn _ =>
      have hleft : AcctCalm W s ({ s with slp := { s.slp with usageSlot := none } }.setAcct f.handle
          (some { a with snapshot := sn.afterCarriage f.content })) := by
        refine HomeAt.calm ((hslot.at f.handle).setAcct _) ?_
        rw [ha]
        exact homeCalm_snapshot _
      exact .ite (fun _ => hleft.trans (freeEntry_acctCalm _ _)) fun _ => hleft

/-! ### The stages of a clean burst (R17, R32, R60, R91, R94, R132) -/

theorem clearOutstanding_acctSame (s : State) (r : WindowRef) : AcctSame s (s.clearOutstanding r) :=
  sameAccts_of_roster rfl rfl

theorem stored_state (e : Entry) (img : Image) (d : Int) (c : Prop) [Decidable c] (k : MsgKind) :
    (if c then e.storeDelay img d else (e.storeDelay img d).post k).state = e.state := by
  split
  · rfl
  · exact post_state _ _

theorem takeAck_state (e : Entry) (img : Image) (k : Option MsgKind) : (e.takeAck img k).state = e.state := by
  unfold Entry.takeAck
  split <;> rfl

theorem correct_state (e : Entry) (img : Image) (d : Int) : (e.correct img d).state = e.state := by
  unfold Entry.correct
  dsimp only
  split
  · rfl
  · exact post_state _ _

/-- A confirmed home is ACTIVE with an account that opens (R61, R144). -/
theorem confirmed_acctLaw (s : State) (h : Nat) (d : Int) (hs : (s.entry h).state = .confirming) :
    AcctLaw W s (s.confirmed h d) := by
  refine AcctLaw.drainClose ?_ h
  refine HomeAt.law ((((setEntry_at s h _).setAcct _).same (startCredit_acctSame _ h)).same (pushEvent_acctSame _ _)) ?_
  refine homeLaw_begun (by rw [hs]; decide) (fun _ => ?_) ?_
  · rintro _ ⟨⟩
    exact ⟨opening_good _ _, fun _ => opening_balanced _ _⟩
  · rintro _ ⟨⟩
    rfl

theorem confirmAttempt_acctCalm (s : State) (h : Nat) : AcctCalm W s (s.confirmAttempt h) :=
  .ite (fun _ => (setEntry_acctSame s h _ (by rfl)).calm) fun _ => freeEntry_acctCalm s h

theorem tryTaking_acctCalm (s : State) (h : Nat) : AcctCalm W s (s.tryTaking h) := by
  unfold State.tryTaking
  dsimp only
  split
  · exact .ite (fun _ => (apart_acctCalm s h _ rfl).same (queueNotice_acctSame _ _)) fun _ => .refl s
  · exact .refl s
  · exact .refl s

theorem arrivalBurst_acctCalm (s : State) (h : Nat) (d : Int) : AcctCalm W s (s.arrivalBurst h d) := by
  refine .ite (fun _ => .refl s) fun _ => .ite (fun _ => ?_) fun _ => (setEntry_acctSame s h _ (post_state _ _)).calm
  refine (setEntry_acctSame s h _ ?_).before (tryTaking_acctCalm _ h)
  exact stored_state (s.entry h) _ _ _ _

theorem recontacted_acctCalm (s : State) (h : Nat) (hs : (s.entry h).state = .lost) : AcctCalm W s (s.recontacted h) :=
  ((turn_acctCalm s h _ (by rw [hs]; rfl) (by rw [hs]; decide)).same (endCondition_acctSame _ _)).trans
    (drainClose_acctCalm _ h)

end Engines

end Sys2Proof.Machine
end

section
/-! PROOFS. The accounts through an observed burst, enrolment, the start of a cycle and the hunt. -/

namespace Sys2Proof.Machine

section Engines
variable {W : Prop}

/-! ### The whole upstream path (R17, R31, R60, R130, R132) -/

/-- Calm operations may follow at a home that was not HANDED. -/
theorem HomeLaw.thenCalm {st st' st'' : HomeState} {o o' o'' : Option Account} (x : HomeLaw W st st' o o')
    (y : HomeCalm W st' st'' o' o'') (hs : st ≠ .handed) : HomeLaw W st st'' o o'' :=
  ⟨fun w h => y.lawful w (x.lawful w h), fun h => absurd h hs, fun h => (x.counters h).trans y.counters⟩

/-- Behind a command's move one home that was not HANDED turns once more. -/
theorem AcctLaw.turns {s t u : State} {h : Nat} {st : HomeState} {o : Option Account} (x : AcctLaw W s t)
    (y : HomeAt t u h st o) (hc : HomeCalm W (t.entry h).state st (t.acct h) o) (hs : (s.entry h).state ≠ .handed) :
    AcctLaw W s u := by
  intro k
  rcases y.cases k with ⟨hst, ha⟩ | ⟨rfl, hst, ha⟩
  · rw [hst, ha]
    exact x k
  · rw [hst, ha]
    exact (x k).thenCalm hc hs

theorem confirmBurst_acctLaw (s : State) (h : Nat) (d : Int) (hs : (s.entry h).state = .confirming) :
    AcctLaw W s (s.confirmBurst h d) :=
  .ite (fun _ => confirmed_acctLaw s h d hs) fun _ => (confirmAttempt_acctCalm s h).law

theorem rangeBurst_acctLaw (s : State) (h : Nat) (d : Int) : AcctLaw W s (s.rangeBurst h d) := by
  unfold State.rangeBurst
  split
  next hs => exact confirmBurst_acctLaw s h d hs
  next => exact (arrivalBurst_acctCalm s h d).law
  next hs => exact (recontacted_acctCalm s h hs).law
  all_goals exact (AcctSame.refl s).law

theorem countUpPacket_counted (s : State) (h : Nat) (p : UpPacket) : Counted s (s.countUpPacket h p) h := by
  unfold State.countUpPacket
  split
  · exact .refl s h
  next a ha => exact changeAcct_counted s h a _ ha (countUp_keeps a _ _ _)

theorem countUpPackets_counted (s : State) (h : Nat) (ps : List UpPacket) :
    Counted s (ps.foldl (fun t p => t.countUpPacket h p) s) h := by
  induction ps generalizing s with
  | nil => exact .refl s h
  | cons p ps ih => exact (countUpPacket_counted s h p).trans (ih _)

/-- The packets of a burst are counted at a served home alone (R31). -/
theorem takePackets_acctLaw (s : State) (h : Nat) (ps : List UpPacket) : AcctLaw W s (s.takePackets h ps) :=
  .ite (fun hs => (countUpPackets_counted s h _).law hs (line_acctSame _ _ _ _).calm) fun _ => (AcctSame.refl s).law

/-- A HANDED home takes no part in a burst (R131, R135). -/
theorem burst_of_handed {s : State} {h : Nat} (hs : (s.entry h).state = .handed) (d : Int) (ps : List UpPacket) :
    s.rangeBurst h d = s ∧ s.takePackets h ps = s := by
  refine ⟨?_, if_neg (by rw [hs]; decide)⟩
  unfold State.rangeBurst
  rw [hs]

theorem endCredit_acctSame (s : State) (h : Nat) : AcctSame s (s.endCredit h) := (endCredit_reportsOnly s h).acctSame

theorem handOver_at (s : State) (h : Nat) : HomeAt s (s.handOver h) h .handed (s.acct h) := by
  have hturn := (setEntry_at s h { s.entry h with state := .handed }).same (endCredit_acctSame _ h)
  unfold State.handOver
  dsimp only
  split
  · exact hturn.same (queueNotice_acctSame _ _)
  · exact hturn
  · exact hturn

theorem judgeOffset_acctSame (s : State) (h : Nat) (d : Int) : AcctSame s (s.judgeOffset h d) := by
  have hset := setEntry_acctSame s h { s.entry h with misplaced := min 3 ((s.entry h).misplaced + 1) } rfl
  have htrip := AcctSame.ite (c := (s.entry h).misplaced = 2) (fun _ => hset.trans (setDrift_acctSame _ h
    { (s.setEntry h { s.entry h with misplaced := min 3 ((s.entry h).misplaced + 1) }).drift h with
      tripOffset := some d })) fun _ => hset
  exact .ite (fun _ => setEntry_acctSame s h _ (by rfl)) fun _ => .ite
    (fun _ => setEntry_acctSame s h _ (correct_state _ _ _)) fun _ => .ite
    (fun _ => htrip.trans (setDriftHold_acctSame _ h)) fun _ => htrip

theorem measureDrift_acctSame (s : State) (h : Nat) (d : Int) : AcctSame s (s.measureDrift h d) :=
  (setEntry_acctSame s h _ (post_state { s.entry h with misplaced := 0 } _)).trans (setPhase_acctSame _ h _)

theorem judge_acctSame (s : State) (h : Nat) (before : HomeState) (kind : WindowKind) (acked : Option MsgKind) (d : Int) :
    AcctSame s (s.judge h before kind acked d) := by
  unfold State.judge
  dsimp only
  split
  case h_1 =>
    refine .ite (fun _ => setEntry_acctSame s h _ (by rfl)) fun _ => ?_
    split
    · exact judgeOffset_acctSame s h d
    · exact .ite (fun _ => measureDrift_acctSame s h d) fun _ => .refl s
    · exact .ite (fun _ => (clearDriftHold_acctSame s h).trans (judgeOffset_acctSame _ h d)) fun _ => .refl s
  case h_2 => exact judgeOffset_acctSame s h d
  case h_3 => exact judgeOffset_acctSame s h d
  all_goals exact .refl s

theorem cleanBurst_acctLaw (s : State) (h : Nat) (map : CycleNo) (kind : WindowKind) (d : Int) (ack : Bool)
    (report : Nat) (ps : List UpPacket) : AcctLaw W s (s.cleanBurst h map kind d ack report ps) := by
  unfold State.cleanBurst
  dsimp only
  have hheard : AcctSame s ((s.noteOffset h d).setEntry h
      (((s.entry h).heard report).takeAck s.img ((s.entry h).acknowledges map ack))) :=
    (setDrift_acctSame s h _).trans (setEntry_acctSame _ h _ (takeAck_state _ _ _))
  generalize (s.noteOffset h d).setEntry h
    (((s.entry h).heard report).takeAck s.img ((s.entry h).acknowledges map ack)) = t at hheard ⊢
  have hburst : AcctLaw W s (if kind = .range then t.rangeBurst h d else t.takePackets h ps) :=
    .ite (fun _ => hheard.beforeLaw (rangeBurst_acctLaw t h d)) fun _ => hheard.beforeLaw (takePackets_acctLaw t h ps)
  have hstay : (s.entry h).state = .handed → (if kind = .range then t.rangeBurst h d else t.takePackets h ps) = t := by
    intro hs
    obtain ⟨hrange, htake⟩ := burst_of_handed ((hheard.state h).trans hs) d ps
    rw [hrange, htake, ite_self]
  generalize (if kind = .range then t.rangeBurst h d else t.takePackets h ps) = u at hburst hstay ⊢
  split
  · refine AcctLaw.same (.ite (fun hs => ?_) fun _ => hburst) (judge_acctSame _ _ _ _ _ _)
    refine hburst.turns (handOver_at u h) (homeCalm_turns (by rw [hs]; rfl) (by rw [hs]; decide)) fun hhanded => ?_
    rw [hstay hhanded, hheard.state, hhanded] at hs
    cases hs
  all_goals exact hburst.same (judge_acctSame _ _ _ _ _ _)

theorem rangeMissed_acctCalm (s : State) (h : Nat) : AcctCalm W s (s.rangeMissed h) := by
  refine .ite (fun _ => confirmAttempt_acctCalm s h) fun _ => .ite (fun hc => ?_) fun _ => .refl s
  have hset := setEntry_acctSame s h { s.entry h with
    rangeAttempts := min Config.rerangeAttempts ((s.entry h).rangeAttempts + 1) } rfl
  have hs := (hset.state h).trans hc.1
  exact .ite (fun _ => hset.calm) fun _ =>
    hset.before (loseHome_acctCalm _ h (by rw [hs]; rfl) (by rw [hs]; decide))

theorem dataMissed_acctCalm (s : State) (h : Nat) : AcctCalm W s (s.dataMissed h) := by
  have hset := setEntry_acctSame s h { s.entry h with missed := min Config.missedLimit ((s.entry h).missed + 1) } rfl
  refine .ite (fun _ => .ite (fun hc => ?_) fun _ => hset.calm) fun _ => .refl s
  have hs := (hset.state h).trans hc.1
  exact hset.before (loseHome_acctCalm _ h (by rw [hs]; rfl) (by rw [hs]; decide))

theorem observeBurst_acctLaw (s : State) (r : WindowRef) (w : Window) (o : BurstObs) :
    AcctLaw W s (s.observeBurst r w o) := by
  have hmissed := AcctCalm.ite (c := r.kind = .range) (fun _ => rangeMissed_acctCalm (W := W) s r.handle)
    fun _ => dataMissed_acctCalm s r.handle
  refine .ite (fun _ => (AcctSame.refl s).law) fun _ => ?_
  split
  · exact cleanBurst_acctLaw s _ _ _ _ _ _ _
  · exact hmissed.law
  · exact hmissed.law

/-! ### Enrolment (R51 to R58) -/

theorem setPlace_acctSame (s : State) (i : Nat) (c : Option Capture) : AcctSame s (s.setPlace i c) :=
  sameAccts_of_roster rfl rfl

/-- An entry taken for a claim or an arrival has no account that runs (R53, R128). -/
theorem takeEntry_acctCalm (s : State) (h : Nat) (e : Entry) (he : e.state.accountRuns = false) :
    AcctCalm W s (s.takeEntry h e) := (takeEntry_at s h e).calm (homeCalm_apart he)

theorem startClaim_acctCalm (s : State) (i : Nat) (r : Reply) : AcctCalm W s (s.startClaim i r) := by
  have hnone := setPlace_acctSame s i none
  refine .ite (fun _ => hnone.calm) fun _ => ?_
  split
  · exact (hnone.trans (pushEvent_acctSame _ _)).calm
  next h _ =>
    refine .ite (fun _ => ?_) fun _ => (hnone.trans (pushEvent_acctSame _ _)).calm
    exact (takeEntry_acctCalm s h _ rfl).same ((setPlace_acctSame _ i _).trans (queueNotice_acctSame _ _))

theorem judgeCapture_acctCalm (s : State) (p : Nat × Reply) : AcctCalm W s (s.judgeCapture p) :=
  .ite (fun _ => ((setPlace_acctSame s _ _).trans (pushEvent_acctSame _ _)).calm) fun _ => startClaim_acctCalm s p.1 p.2

theorem discovered_acctCalm (s : State) (o : DiscoverObs) : AcctCalm W s (s.discovered o) := by
  unfold State.discovered
  split
  · exact .ite (fun _ => (AcctSame.foldl _ (fun t (p : Nat × Reply) => setPlace_acctSame t p.1 _) s _).before
      (.foldl _ judgeCapture_acctCalm _ _)) fun _ => .refl s
  · exact .refl s
  · exact .refl s

theorem claimCarried_acctSame (s : State) (serial : Serial) : AcctSame s (s.claimCarried serial) :=
  sameAccts_of_roster rfl rfl

theorem raiseDuplicate_acctSame (s : State) (h : Nat) (serial : Serial) (other : Nat) :
    AcctSame s (s.raiseDuplicate h serial other) := raiseAlarm_acctSame s _ _

theorem answerHeld_acctSame (s : State) (h : Nat) (serial : Serial) (other : Nat) :
    AcctSame s (s.answerHeld h serial other) := by
  have hset := setEntry_acctSame s h { s.entry h with duplicates := satAdd 255 (s.entry h).duplicates 1 } rfl
  exact .ite (fun _ => .refl s) fun _ =>
    hset.trans ((queueNotice_acctSame _ _).trans (raiseDuplicate_acctSame _ h serial other))

theorem claimHeard_acctCalm (s : State) (serial : Serial) (other : Nat) : AcctCalm W s (s.claimHeard serial other) := by
  unfold State.claimHeard
  split
  · exact .refl s
  next h _ =>
    split
    case h_1 => exact .ite (fun _ => .refl s) fun _ => dropClaim_acctCalm s serial h
    case h_9 => exact release_acctCalm s h _ _
    case h_10 => exact .refl s
    case h_11 => exact .refl s
    all_goals exact (answerHeld_acctSame s h serial other).calm

theorem heldHeard_acctCalm (s : State) (serial : Serial) (holder : Nat) : AcctCalm W s (s.heldHeard serial holder) := by
  unfold State.heldHeard
  split
  · exact .refl s
  next h _ =>
    split
    case h_1 => exact dropClaim_acctCalm s serial h
    case h_2 => exact freeEntry_acctCalm s h
    case h_10 => exact .refl s
    case h_11 => exact .refl s
    all_goals exact (raiseDuplicate_acctSame s h serial holder).calm

theorem toConfirming_state (e : Entry) (serial : Serial) (h : Nat) : (e.toConfirming serial h).state = .confirming :=
  post_state _ _

theorem claimHeldOut_acctCalm (s : State) (h : Nat) (serial : Serial) : AcctCalm W s (s.claimHeldOut h serial) :=
  .ite (fun _ => (freePlaceOf_acctSame s h).before (freeEntry_acctCalm _ h)) fun _ =>
    (freePlaceOf_acctSame s h).before (apart_acctCalm _ h _ (by rw [toConfirming_state]; rfl))

/-! ### The start of a cycle (R1, R10, R33, R35, R39) -/

theorem tick_acctSame (s : State) : AcctSame s s.tick := sameAccts_of_map (fun _ e => e.tick) rfl (fun _ _ => rfl) rfl

/-- The Hunt Unit's, the Light Watch's and the Cycle Builder's own fields hold no home. -/
theorem units_acctSame (s : State) (hu : Hunt) (lw : LightWatch) (cb : CycleBuilder) :
    AcctSame s { s with hu := hu, lw := lw, cb := cb } := sameAccts_of_roster rfl rfl

theorem hunt_acctSame (s : State) (hu : Hunt) : AcctSame s { s with hu := hu } := units_acctSame s hu s.lw s.cb

theorem cycle_acctSame (s : State) (cb : CycleBuilder) : AcctSame s { s with cb := cb } := units_acctSame s s.hu s.lw cb

theorem reachMap_acctSame (s : State) : AcctSame s s.reachMap := by
  unfold State.reachMap
  dsimp only
  have hreached := cycle_acctSame s { s.cb with reached := some (s.cb.cycle - 2) }
  refine .ite (fun _ => ?_) fun _ => cycle_acctSame s _
  split
  · exact .ite (fun _ => hreached.trans ((hunt_acctSame _ _).trans (queueNotice_acctSame _ _))) fun _ => hreached
  · exact hreached
  · exact hreached

theorem advanceRecontact_state (e : Entry) : e.advanceRecontact.state = e.state := by
  unfold Entry.advanceRecontact
  split <;> rfl

theorem afterBuild_state (e : Entry) (n : CycleNo) (granted served : Bool) :
    (e.afterBuild n granted served).state = e.state := by
  unfold Entry.afterBuild
  split <;> rfl

theorem advanceRecontacts_acctSame (s : State) : AcctSame s s.advanceRecontacts :=
  sameAccts_of_map (fun _ e => e.advanceRecontact) rfl (fun _ e => advanceRecontact_state e) rfl

theorem buildMap_acctSame (s : State) (n : CycleNo) : AcctSame s (s.buildMap n) := by
  refine (advanceRecontacts_acctSame s).trans ?_
  unfold State.buildMap
  dsimp only
  exact sameAccts_of_map (fun h e => e.afterBuild n ((s.advanceRecontacts.mapFor n).windows.any fun w => w.handle = h)
    (s.advanceRecontacts.rangeServed.contains h)) rfl (fun _ e => afterBuild_state e n _ _) rfl

theorem messageFailed_acctCalm (s : State) (h : Nat) (kind : MsgKind) : AcctCalm W s (s.messageFailed h kind) := by
  have hempty := setEntry_acctSame s h { s.entry h with mailbox := none } rfl
  unfold State.messageFailed
  dsimp only
  split
  · exact .ite (fun _ => (hempty.trans (setPhase_acctSame _ h _)).calm) fun _ => hempty.calm
  · exact .ite (fun _ => hempty.before (freeEntry_acctCalm _ h)) fun _ => hempty.calm
  · split
    · rw [setEntry_setEntry]
      exact ((setEntry_acctSame s h _ (by rfl)).trans (queueNotice_acctSame _ _)).calm
    · exact hempty.calm
  · exact hempty.calm

end Engines

end Sys2Proof.Machine
end

section
/-! PROOFS. The accounts through the hunt, handover, start-up and draining. -/

namespace Sys2Proof.Machine

section Engines
variable {W : Prop}

/-! ### The hunt (R105 to R120) -/

theorem openHunt_acctSame (s : State) : AcctSame s s.openHunt := sameAccts_of_roster (by simp) (by simp)

theorem suspect_acctSame (s : State) : AcctSame s s.suspect :=
  .ite (fun _ => hunt_acctSame s _) fun _ => openHunt_acctSame s

theorem takeDeferred_acctSame (s : State) : AcctSame s s.takeDeferred := sameAccts_of_roster (by simp) (by simp)

theorem yieldOpening_acctSame (s : State) : AcctSame s s.yieldOpening := sameAccts_of_roster (by simp) (by simp)

theorem setFlag_acctSame (s : State) (id : HuntId) : AcctSame s (s.setFlag id) := hunt_acctSame s _

theorem setOwner_acctSame (s : State) (o : OwnerPart) : AcctSame s (s.setOwner o) := hunt_acctSame s _

theorem clearFlag_acctSame (s : State) : AcctSame s s.clearFlag := hunt_acctSame s _

theorem endStray_acctSame (s : State) : AcctSame s s.endStray := sameAccts_of_roster rfl rfl

theorem emptyHistory_acctSame (s : State) : AcctSame s s.emptyHistory := sameAccts_of_roster rfl rfl

theorem join_acctSame (s : State) (id : HuntId) (role : Role) : AcctSame s (s.join id role) :=
  (hunt_acctSame s _).trans ((endStray_acctSame _).trans (queueNotice_acctSame _ _))

theorem ownOpen_acctSame (s : State) (id : HuntId) : AcctSame s (s.ownOpen id) := by
  have hflag : AcctSame s { s.setFlag id with hu := { (s.setFlag id).hu with opening := false } } := hunt_acctSame s _
  exact .ite (fun _ => .ite (fun _ => hflag.trans (join_acctSame _ _ _)) fun _ =>
    hflag.trans ((hunt_acctSame _ _).trans (endStray_acctSame _))) fun _ => hflag

theorem otherOpen_acctSame (s : State) (id : HuntId) : AcctSame s (s.otherOpen id) :=
  let hflag := (setFlag_acctSame s id).trans (yieldOpening_acctSame _)
  .ite (fun _ => hflag.trans (join_acctSame _ _ _)) fun _ => hflag

theorem joinHeard_acctSame (s : State) (id : HuntId) (channel count : Nat) : AcctSame s (s.joinHeard id channel count) := by
  unfold State.joinHeard
  split
  · exact .ite (fun _ => setOwner_acctSame s _) fun _ => .refl s
  · exact .refl s
  · exact .refl s

theorem queueStep_acctSame (s : State) (id : HuntId) (o : OwnerPart) (sel : Selector) : AcctSame s (s.queueStep id o sel) :=
  (setOwner_acctSame s _).trans (queueNotice_acctSame _ _)

theorem queueClose_acctSame (s : State) (id : HuntId) (o : OwnerPart) (outcome : HuntOutcome) :
    AcctSame s (s.queueClose id o outcome) := (setOwner_acctSame s _).trans (queueNotice_acctSame _ _)

theorem joinsOver_acctSame (s : State) (id : HuntId) (o : OwnerPart) : AcctSame s (s.joinsOver id o) :=
  .ite (fun _ => setOwner_acctSame s _) fun _ => .ite (fun _ => queueClose_acctSame s id _ _) fun _ =>
    queueStep_acctSame s id _ _

/-- HUNT is set and cleared on the homes, and no state moves (R114). -/
theorem applyStep_acctSame (s : State) (k : Nat) (sel : Selector) : AcctSame s (s.applyStep k sel) :=
  sameAccts_of_map (fun h e => { e with holds := { e.holds with hunt := (s.darkened sel).contains h } }) rfl
    (fun _ _ => rfl) rfl

theorem ownStep_acctSame (s : State) (src : Source) : AcctSame s (s.ownStep src) := by
  unfold State.ownStep
  split
  · exact setOwner_acctSame s _
  all_goals exact .refl s

theorem stepHeard_acctSame (s : State) (src : Source) (k : Nat) (sel : Selector) : AcctSame s (s.stepHeard src k sel) := by
  have hguard : AcctSame s (if s.hu.role = .participant ∧ s.draining = true then s
      else { s with hu := { s.hu with guardTimer := some Config.guardCycles } }) :=
    .ite (fun _ => .refl s) fun _ => hunt_acctSame s _
  have hown := hguard.trans (ownStep_acctSame _ src)
  exact .ite (fun _ => hown.trans (applyStep_acctSame _ k sel)) fun _ => hown

theorem readyHeard_acctSame (s : State) (id : HuntId) (channel step : Nat) (named : Option HomeRef) :
    AcctSame s (s.readyHeard id channel step named) := by
  unfold State.readyHeard
  split
  · exact .ite (fun _ => setOwner_acctSame s _) fun _ => .refl s
  · exact .refl s
  · exact .refl s

theorem actOn_acctSame (s : State) (id : HuntId) (o : OwnerPart) (d : Decision) : AcctSame s (s.actOn id o d) := by
  unfold State.actOn
  split
  · exact queueStep_acctSame s id o _
  · exact queueStep_acctSame s id _ _
  · exact queueClose_acctSame s id o _

theorem measure_acctSame (s : State) (o : OwnerPart) (light : Bool) : AcctSame s (s.measure o light) := by
  have howner := setOwner_acctSame s (o.tallied light)
  refine .ite (fun _ => .ite (fun _ => howner) fun _ => .ite (fun _ => howner) fun _ => ?_) fun _ => .refl s
  split
  · exact howner
  · exact actOn_acctSame s _ _ _

theorem leaveHunt_acctSame (s : State) : AcctSame s s.leaveHunt :=
  sameAccts_of_map (fun _ e => { e with holds := { e.holds with hunt := false } }) rfl (fun _ _ => rfl) rfl

theorem endHunt_acctSame (s : State) (outcome : HuntOutcome) : AcctSame s (s.endHunt outcome) := by
  unfold State.endHunt
  split
  · exact .refl s
  · exact leaveHunt_acctSame s
  · exact (leaveHunt_acctSame s).trans ((raiseAlarm_acctSame _ _ _).trans (emptyHistory_acctSame _))

theorem foundHere_acctSame (s : State) (id : HuntId) (r : HomeRef) : AcctSame s (s.foundHere id r) :=
  (AcctSame.ite (fun _ => setEntry_acctSame s r.handle _ (by rfl)) fun _ => .refl s).trans (raiseAlarm_acctSame _ _ _)

theorem takeFound_acctSame (s : State) (id : HuntId) (outcome : HuntOutcome) : AcctSame s (s.takeFound id outcome) := by
  unfold State.takeFound
  split
  · exact .ite (fun _ => foundHere_acctSame s id _) fun _ => .refl s
  all_goals exact .refl s

theorem closeHeard_acctSame (s : State) (id : HuntId) (outcome : HuntOutcome) : AcctSame s (s.closeHeard id outcome) := by
  unfold State.closeHeard
  split
  · exact takeFound_acctSame s id outcome
  · exact .ite (fun _ => (clearFlag_acctSame s).trans ((endHunt_acctSame _ _).trans
      ((takeFound_acctSame _ _ _).trans (takeDeferred_acctSame _)))) fun _ => .refl s

/-! ### The stray history (R97 to R99) -/

theorem light_acctSame (s : State) (lw : LightWatch) : AcctSame s { s with lw := lw } := units_acctSame s s.hu lw s.cb

theorem handOn_acctSame (s : State) : AcctSame s s.handOn := .ite (fun _ => suspect_acctSame s) fun _ => .refl s

theorem strayEntry_acctSame (s : State) (light : Bool) : AcctSame s (s.strayEntry light) := by
  have hentered := light_acctSame s { s.lw with history := enterOutcome s.lw.history light }
  have hcond := light_acctSame s { s.lw with history := enterOutcome s.lw.history light, condition := true }
  exact .ite (fun _ => (AcctSame.ite (fun _ => hcond) fun _ => hcond.trans (raiseAlarm_acctSame _ _ _)).trans
    (handOn_acctSame _)) fun _ => .ite (fun _ => hentered.trans (endStray_acctSame _)) fun _ => hentered

theorem quietTaken_acctSame (s : State) (light : Bool) : AcctSame s (s.quietTaken light) := by
  unfold State.quietTaken
  split
  · exact strayEntry_acctSame s light
  · exact measure_acctSame s _ light
  · exact .refl s

/-! ### Handover (R126 to R137) -/

theorem movedOut_acctSame (s : State) (e : Entry) (serial : Serial) (o : MoveOutcome) :
    AcctSame s (s.movedOut e serial o) := pushEvent_acctSame s _

theorem considerOffer_acctCalm (s : State) (serial : Serial) (source : Nat) (p : Profile) (eqDelay : Nat) :
    AcctCalm W s (s.considerOffer serial source p eqDelay) := by
  refine .ite (fun _ => (queueNotice_acctSame s _).calm) fun _ => ?_
  split
  · exact (queueNotice_acctSame s _).calm
  next h _ =>
    exact .ite (fun _ => (takeEntry_acctCalm s h _ rfl).same (queueNotice_acctSame _ _)) fun _ =>
      (queueNotice_acctSame s _).calm

theorem offerHeard_acctCalm (s : State) (serial : Serial) (source target : Nat) (p : Profile) (eqDelay : Nat) :
    AcctCalm W s (s.offerHeard serial source target p eqDelay) := by
  unfold State.offerHeard
  split
  case h_1 => exact .refl s
  case h_2 => exact .refl s
  case h_5 => exact .ite (fun _ => considerOffer_acctCalm s serial source p eqDelay) fun _ => .refl s
  all_goals exact .ite (fun _ => (queueNotice_acctSame s _).calm) fun _ => .refl s

theorem acceptHeard_acctCalm (s : State) (serial : Serial) (channel newHandle : Nat) :
    AcctCalm W s (s.acceptHeard serial channel newHandle) := by
  unfold State.acceptHeard
  split
  · exact .refl s
  next h _ =>
    exact .ite (fun hc => turn_acctCalm s h _ (by rw [hc.1]; rfl) (by rw [hc.1]; decide)) fun _ => .refl s

theorem refuseHeard_acctCalm (s : State) (serial : Serial) (channel : Nat) (reason : RefuseReason) :
    AcctCalm W s (s.refuseHeard serial channel reason) := by
  unfold State.refuseHeard
  split
  · exact .refl s
  next h _ =>
    exact .ite (fun hc => (returnActive_acctCalm s h (.inl hc.1)).same (movedOut_acctSame _ _ _ _)) fun _ => .refl s

/-- The account a notice installs is in its ranges where the notice is well formed (R133). -/
theorem accountHeard_acctCalm (s : State) (serial : Serial) (source : Nat) (a : Account) (hg : W → a.Good)
    (hz : a.counters = Counters.zero) : AcctCalm W s (s.accountHeard serial source a) := by
  unfold State.accountHeard
  split
  · exact .refl s
  next h _ =>
    refine .ite (fun hc => ?_) fun _ => .refl s
    have hinstalled : AcctCalm W s (s.setAcct h (some a)) :=
      (setAcct_at s h _).calm (homeCalm_installed (by rw [hc.1]; rfl) hg hz)
    exact (hinstalled.same (setEntry_acctSame _ h _ (by rfl))).trans (tryTaking_acctCalm _ h)

/-- The home is taken: its account begins a period of its own (R134). -/
theorem takenCarried_acctLaw (s : State) (serial : Serial) : AcctLaw W s (s.takenCarried serial) := by
  unfold State.takenCarried
  split
  · exact (AcctSame.refl s).law
  next h _ =>
    refine .ite (fun hs => AcctLaw.drainClose ?_ h) fun _ => (AcctSame.refl s).law
    refine HomeAt.law ((((setEntry_at s h _).setAcct _).same (startCredit_acctSame _ h)).same (pushEvent_acctSame _ _)) ?_
    refine homeLaw_begun (by rw [hs]; decide) (fun hl => ?_) ?_
    · intro b hb
      obtain ⟨a, ha, rfl⟩ := Option.map_eq_some_iff.1 hb
      exact ⟨freshPeriod_good (hl a ha).1, fun _ => freshPeriod_balanced (hl a ha).1⟩
    · intro b hb
      obtain ⟨a, -, rfl⟩ := Option.map_eq_some_iff.1 hb
      rfl

theorem takenHeard_acctCalm (s : State) (serial : Serial) (channel : Nat) : AcctCalm W s (s.takenHeard serial channel) := by
  unfold State.takenHeard
  split
  · exact .refl s
  next h _ =>
    exact .ite (fun _ => (enterClosing_acctCalm s h _ _).same ((withdraw_acctSame _ _).trans (movedOut_acctSame _ _ _ _)))
      fun _ => .refl s

/-- A HANDED home reclaimed is LOST with its account as it was (R135). -/
theorem reclaimCarried_acctLaw (s : State) (serial : Serial) : AcctLaw W s (s.reclaimCarried serial) := by
  unfold State.reclaimCarried
  split
  · exact (AcctSame.refl s).law
  next h _ =>
    dsimp only
    split
    case h_1 hs _ => exact ((returnActive_acctCalm s h (.inr hs)).same (movedOut_acctSame _ _ _ _)).law
    case h_2 hs =>
      exact (((enterLost_at s h).same ((startCredit_acctSame _ h).trans (movedOut_acctSame _ _ _ _))).law
        (homeLaw_reinstated hs)).drainClose h
    case h_3 => exact (AcctSame.refl s).law

theorem reclaimHeard_acctCalm (s : State) (serial : Serial) (source : Nat) :
    AcctCalm W s (s.reclaimHeard serial source) := by
  unfold State.reclaimHeard
  split
  · exact .refl s
  next h _ => exact .ite (fun _ => (freeEntry_acctCalm s h).same (withdraw_acctSame _ _)) fun _ => .refl s

theorem queueReclaim_acctSame (s : State) (h : Nat) (serial : Serial) (cause : ReclaimCause) :
    AcctSame s (s.queueReclaim h serial cause) := (setEntry_acctSame s h _ (by rfl)).trans (queueNotice_acctSame _ _)

theorem handoverExpired_acctCalm (s : State) (h : Nat) (serial : Serial) : AcctCalm W s (s.handoverExpired h serial) := by
  unfold State.handoverExpired
  dsimp only
  split
  case h_1 hs =>
    exact (returnActive_acctCalm s h (.inl hs)).same ((withdraw_acctSame _ _).trans (movedOut_acctSame _ _ _ _))
  case h_2 =>
    exact ((setEntry_acctSame s h (s.entry h).dropTune rfl).trans (queueReclaim_acctSame _ h serial .timeout)).calm
  case h_3 => exact ((withdraw_acctSame s _).trans (queueReclaim_acctSame _ h serial .timeout)).calm
  all_goals exact .refl s

/-! ### Start-up and draining (R140, R188 to R192) -/

theorem startup_acctSame (s : State) (il : ImageLoader) : AcctSame s { s with il := il } := sameAccts_of_roster rfl rfl

theorem enterFault_acctSame (s : State) (reason : FaultReason) (usable : Option Nat) (clash : Option (Nat × Station)) :
    AcctSame s (s.enterFault reason usable clash) := (startup_acctSame s _).trans (pushEvent_acctSame _ _)

theorem takeImage_acctSame (s : State) (img : Image) : AcctSame s (s.takeImage img) := sameAccts_of_roster rfl rfl

theorem loaded_acctSame (s : State) (ws : List ImageWord) : AcctSame s (s.loaded ws) := by
  unfold State.loaded
  refine .ite (fun _ => ?_) fun _ => enterFault_acctSame s _ _ _
  split
  · exact enterFault_acctSame s _ _ _
  · exact takeImage_acctSame s _

theorem answerPresent_acctSame (s : State) : AcctSame s s.answerPresent :=
  .ite (fun _ => .refl s) fun _ => queueNotice_acctSame s _

theorem presentHeard_acctSame (s : State) (station : Station) (incumbent : Bool) :
    AcctSame s (s.presentHeard station incumbent) := by
  have hclash : AcctSame s (s.clash station) := enterFault_acctSame s _ _ _
  unfold State.presentHeard
  split
  case h_1 => exact .refl s
  case h_2 => exact .refl s
  case h_3 =>
    exact .ite (fun _ => hclash.trans (withdraw_acctSame _ _)) fun _ => .ite (fun _ => hclash) fun _ =>
      answerPresent_acctSame s
  all_goals exact .ite (fun _ => .refl s) fun _ => answerPresent_acctSame s

theorem presentCarried_acctSame (s : State) (incumbent : Bool) : AcctSame s (s.presentCarried incumbent) :=
  .ite (fun _ => startup_acctSame s _) fun _ => .refl s

theorem drainEntry_acctCalm (s : State) (h : Nat) : AcctCalm W s (s.drainEntry h) := by
  have hclosed := enterClosing_acctCalm (W := W) s h .restart true
  have hfreed := (freeEntry_acctCalm (W := W) s h).same
    (withdraw_acctSame _ (isTargetNoticeOf ((s.entry h).serial.getD 0)))
  unfold State.drainEntry
  dsimp only
  split
  case h_1 => exact hclosed
  case h_2 => exact hclosed
  case h_3 => exact .ite (fun _ => hclosed.same (withdraw_acctSame _ _)) fun _ => hclosed.same (queueNotice_acctSame _ _)
  case h_4 => exact .ite (fun _ => hclosed) fun _ => hclosed.same (queueNotice_acctSame _ _)
  case h_5 => exact hfreed
  case h_6 => exact .ite (fun _ => (withdraw_acctSame s _).calm) fun _ => hfreed
  all_goals exact .refl s

theorem enterDraining_acctCalm (s : State) : AcctCalm W s s.enterDraining :=
  (startup_acctSame s { s.il with startup := .draining, drainTimer := some Config.drainCycles }).before
    (.foldl State.drainEntry drainEntry_acctCalm _ handles)

theorem restarted_acctCalm (s : State) (straps : Station) : AcctCalm W s (s.restarted straps) := by
  unfold State.restarted
  split
  · exact powerOn_acctCalm s straps
  · exact powerOn_acctCalm s straps
  · exact enterDraining_acctCalm s
  · exact .refl s
  · exact .refl s

theorem repeated_acctSame (s : State) (r : RepeatTimer) : AcctSame s (s.repeated r) :=
  .ite (fun _ => ((placeReport_reportsOnly s _ _ true).trans (startRepeat_reportsOnly _ _ _)).acctSame)
    fun _ => endCondition_acctSame s _

end Engines

end Sys2Proof.Machine
end

section
/-! PROOFS. The accounts through the requests and every command, and obligation O8. -/

namespace Sys2Proof.Machine

/-- Where the command has a next state, its homes moved as one command may move them. -/
def AcctStep (W : Prop) (s : State) (o : Host.Outcome State Fault Refusal) : Prop := ∀ t, o = .next t → AcctLaw W s t

/-- The state an answer leaves has its homes as one command may leave them. -/
def AnswerLaw (W : Prop) (s : State) (a : Answer) : Prop := AcctLaw W s a.1

section Requests
variable {W : Prop}

/-! ### The answers to requests (R29, R42, R83, R85, R126, R157, R158, R161) -/

theorem AcctLaw.refl (s : State) : AcctLaw W s s := (AcctSame.refl s).law

theorem AnswerLaw.ite {s : State} {a b : Answer} {c : Prop} [Decidable c] (ha : c → AnswerLaw W s a)
    (hb : ¬c → AnswerLaw W s b) : AnswerLaw W s (if c then a else b) := by
  split
  next h => exact ha h
  next h => exact hb h

theorem refusedWith_law (s : State) (code : ResultCode) : AnswerLaw W s (s.refusedWith code) := AcctLaw.refl s

theorem AcctLaw.done {s t : State} (h : AcctLaw W s t) : AnswerLaw W s t.done := h

theorem onHome_law (s : State) (serial : Serial) (act : Nat → Answer) (hact : ∀ h, AnswerLaw W s (act h)) :
    AnswerLaw W s (s.onHome serial act) := by
  unfold State.onHome
  split
  · exact refusedWith_law s _
  · exact hact _

/-- An account that is not frozen changes within its law and counts nothing. -/
theorem changeAcct_acctCalm (s : State) (h : Nat) (a b : Account) (ha : s.acct h = some a)
    (hs : (s.entry h).state ≠ .handed) (hk : a.Keeps b)
    (hc : b.counters = Counters.zero ∨ b.counters = a.counters) : AcctCalm W s (s.changeAcct h b) := by
  refine (changeAcct_at s h b).calm ?_
  rw [ha]
  exact homeCalm_changed hs hk hc

theorem settable_ne_handed {st : HomeState} (h : st.settable = true) : st ≠ .handed := by
  rintro rfl
  cases h

theorem accountOpen_ne_handed {st : HomeState} (h : st.accountOpen = true) : st ≠ .handed := by
  rintro rfl
  cases h

theorem setProfileAt_law (s : State) (p : Profile) (h : Nat) : AnswerLaw W s (s.setProfileAt p h) := by
  have hset : AcctSame s (s.profiled (clampProfile p) h) :=
    (setEntry_acctSame s h { s.entry h with profile := some (clampProfile p) } rfl).trans (sameAccts_of_roster rfl rfl)
  exact .ite (fun _ => .ite (fun _ => refusedWith_law s _) fun _ => .ite (fun _ => hset.law.done) fun _ =>
    refusedWith_law s _) fun _ => refusedWith_law s _

/-- The arguments of SET_ACCOUNT within the 32 bits they are sent in (R157). -/
structure AccountArgs.Sendable (a : AccountArgs) : Prop where
  base : a.base ≤ Config.millisMax
  lowWater : a.lowWater ≤ Config.millisMax
  credit : a.credit ≤ Config.millisMax

theorem setAccountAt_law (s : State) (a : AccountArgs) (h : Nat) (ha : a.Sendable) :
    AnswerLaw W s (s.setAccountAt a h) := by
  refine .ite (fun hs => ?_) fun _ => refusedWith_law s _
  split
  · exact refusedWith_law s _
  next mode acct _ hacct =>
    exact (changeAcct_acctCalm s h acct _ hacct (settable_ne_handed hs)
      (setTo_keeps acct mode a.base a.lowWater a.credit ha.base ha.lowWater ha.credit) (.inr rfl)).law.done
  · exact (AcctLaw.refl s).done

theorem refillAt_law (s : State) (amount h : Nat) : AnswerLaw W s (s.refillAt amount h) := by
  refine .ite (fun hs => ?_) fun _ => refusedWith_law s _
  split
  next a ha =>
    exact (changeAcct_acctCalm s h a _ ha (settable_ne_handed hs) (refill_keeps a amount) (.inr rfl)).law
  · exact (AcctLaw.refl s).done

theorem startMove_acctCalm (s : State) (h : Nat) (serial : Serial) (target : Nat) (hs : (s.entry h).state = .active) :
    AcctCalm W s (s.startMove h serial target) :=
  (turn_acctCalm s h _ (by rw [hs]; rfl) (by rw [hs]; decide)).same (queueNotice_acctSame _ _)

theorem moveAt_law (s : State) (serial : Serial) (target h : Nat) : AnswerLaw W s (s.moveAt serial target h) := by
  have hno (code : ResultCode) := refusedWith_law (W := W) s code
  refine .ite (fun _ => hno _) fun _ => .ite (fun _ => hno _) fun _ => .ite (fun _ => hno _) fun hc =>
    .ite (fun _ => hno _) fun _ => (startMove_acctCalm s h serial target ?_).law.done
  exact Decidable.not_not.1 fun hs => hc (.inl hs)

theorem holdRequest_law (s : State) (serial : Serial) (code : Nat) (flag : Byte) :
    AnswerLaw W s (s.holdRequest serial code flag) :=
  .ite (fun _ => onHome_law s serial _ fun h => (setEntry_acctSame s h _ (by rfl)).law.done) fun _ =>
    .ite (fun _ => refusedWith_law s _) fun _ => onHome_law s serial _ fun _ => refusedWith_law s _

/-- The Usage Meter's fields but the accounts, and the Enrolment Engine's, hold no home. -/
theorem meter_acctSame (s : State) (um : UsageMeter) (ee : Enrolment) (hu : um.accounts = s.um.accounts) :
    AcctSame s { s with um := um, ee := ee } := sameAccts_of_roster rfl hu

/-- The open accounts begin their next period (R162, R164). -/
theorem closeAccount_acctCalm (p : Nat) (s : State) (h : Nat) : AcctCalm W s (s.closeAccount p h) := by
  unfold State.closeAccount
  split
  · exact .refl s
  next a ha =>
    exact .ite (fun hs => changeAcct_acctCalm s h a _ ha (accountOpen_ne_handed hs) (closePeriod_keeps a p) (.inl rfl))
      fun _ => .refl s

theorem closePeriods_acctCalm (s : State) (p : Nat) : AcctCalm W s (s.closePeriods p) := by
  have hclosed := AcctCalm.foldl (W := W) (State.closeAccount p) (closeAccount_acctCalm p) s handles
  unfold State.closePeriods
  dsimp only
  generalize handles.foldl (State.closeAccount p) s = t at hclosed ⊢
  exact hclosed.same (meter_acctSame t _ t.ee rfl)

theorem discovery_law (s : State) (f : Config.FlagReading) : AnswerLaw W s (s.discovery f) := by
  unfold State.discovery
  split
  · exact .ite (fun _ => refusedWith_law s _) fun _ => (meter_acctSame s s.um _ rfl).law.done
  · exact (meter_acctSame s s.um _ rfl).law.done
  · exact refusedWith_law s _

/-! ### What the arguments of SET_ACCOUNT are read from (R157, R180) -/

theorem beNat_lt (bs : List Byte) : beNat bs < 256 ^ bs.length := by
  induction bs using List.reverseRecOn with
  | nil => decide
  | append_singleton bs b ih =>
    rw [beNat_append, List.length_append, List.length_singleton, Nat.pow_succ]
    have hb := b.isLt
    omega

theorem bytesAt_four_le (d : List Byte) (i : Nat) : bytesAt d i 4 ≤ Config.millisMax := by
  have hlt := beNat_lt ((d.drop i).take 4)
  have hlen : ((d.drop i).take 4).length ≤ 4 := List.length_take_le 4 _
  have hpow : 256 ^ ((d.drop i).take 4).length ≤ 256 ^ 4 := Nat.pow_le_pow_right (by decide) hlen
  unfold bytesAt Config.millisMax
  omega

theorem readAccount_sendable {d : List Byte} {a : AccountArgs} (h : readAccount d = some a) : a.Sendable := by
  unfold readAccount at h
  split at h
  · cases h
    exact ⟨bytesAt_four_le d 9, bytesAt_four_le d 13, bytesAt_four_le d 17⟩
  · cases h

end Requests

section Commands
variable {W : Prop}

/-! ### One command -/

theorem AcctLaw.next {s t : State} (h : AcctLaw W s t) : AcctStep W s (.next t) := by
  intro u hu
  cases hu
  exact h

theorem AcctLaw.settled {s t : State} (h : AcctLaw W s t) : AcctStep W s (.next t.settle) :=
  (h.same (settle_acctSame t)).next

theorem AcctCalm.settled {s t : State} (h : AcctCalm W s t) : AcctStep W s (.next t.settle) := h.law.settled

theorem AcctSame.settled {s t : State} (h : AcctSame s t) : AcctStep W s (.next t.settle) := h.law.settled

theorem AcctSame.next {s t : State} (h : AcctSame s t) : AcctStep W s (.next t) := h.law.next

theorem acctStep_stays (s : State) : AcctStep W s (.next s) := (AcctSame.refl s).next

theorem AcctStep.ite {s : State} {a b : Host.Outcome State Fault Refusal} {c : Prop} [Decidable c]
    (ha : c → AcctStep W s a) (hb : ¬c → AcctStep W s b) : AcctStep W s (if c then a else b) := by
  split
  next h => exact ha h
  next h => exact hb h

/-- A command whose effect is settled, or which changes nothing. -/
theorem AcctCalm.settledIf {s t : State} {c : Prop} [Decidable c] (h : c → AcctCalm W s t) :
    AcctStep W s (.next (if c then t.settle else s)) :=
  (AcctCalm.ite (fun hc => (h hc).same (settle_acctSame t)) fun _ => .refl s).law.next

theorem AcctSame.settledIf {s t : State} {c : Prop} [Decidable c] (h : c → AcctSame s t) :
    AcctStep W s (.next (if c then t.settle else s)) := AcctCalm.settledIf fun hc => (h hc).calm

/-- A command that does nothing where a condition holds. -/
theorem acctStep_unless {s : State} {c : Prop} [Decidable c] {o : Host.Outcome State Fault Refusal}
    (h : ¬c → AcctStep W s o) : AcctStep W s (if c then .next s else o) := .ite (fun _ => acctStep_stays s) h

/-- A command that does nothing unless a condition holds. -/
theorem acctStep_when {s : State} {c : Prop} [Decidable c] {o : Host.Outcome State Fault Refusal}
    (h : c → AcctStep W s o) : AcctStep W s (if c then o else .next s) := .ite h fun _ => acctStep_stays s

theorem hearNotice_acctStep (src : Source) (n : Notice) (act : State → State) (s : State)
    (hact : ∀ t, AcctLaw W t (act t)) : AcctStep W s (hearNotice src n act s) := by
  refine acctStep_unless fun _ => ?_
  split
  · exact acctStep_when fun _ => ((noticeCarried_acctSame s).beforeLaw (hact _)).settled
  · exact ((lineHeard_acctSame s).beforeLaw (hact _)).settled

theorem answer_law {α : Type} (s : State) (kind : RequestKind) (args : Option α) (act : α → State → Answer)
    (hact : ∀ a, args = some a → ∀ t, AnswerLaw W t (act a t)) : AnswerLaw W s (s.answer kind args act) := by
  refine .ite (fun _ => refusedWith_law s _) fun _ => ?_
  split
  · exact refusedWith_law s _
  · exact hact _ rfl s

theorem request_acctStep {α : Type} (kind : RequestKind) (hd : RequestHeader) (args : Option α)
    (act : α → State → Answer) (s : State) (hact : ∀ a, args = some a → ∀ t, AnswerLaw W t (act a t)) :
    AcctStep W s (request kind hd args act s) := by
  have hheard := lineHeard_acctSame s
  refine acctStep_unless fun _ => .ite (fun _ => .ite (fun _ => (line_acctSame s s.slp _ s.rq).next) fun _ =>
    .ite (fun _ => hheard.next) fun _ => ?_) fun _ => hheard.next
  have hanswered := hheard.beforeLaw (answer_law _ kind args act hact)
  exact (hanswered.same (line_acctSame _ _ _ _)).settled

theorem broadcast_acctStep {α : Type} (hd : RequestHeader) (args : Option α) (act : α → State → State) (s : State)
    (hact : ∀ a t, AcctCalm W t (act a t)) : AcctStep W s (broadcast hd args act s) := by
  have hheard := lineHeard_acctSame s
  refine acctStep_unless fun _ => .ite (fun _ => .ite (fun _ => (line_acctSame s s.slp _ s.rq).next) fun _ =>
    .ite (fun _ => hheard.next) fun _ => .ite (fun _ => hheard.next) fun _ => ?_) fun _ => hheard.next
  split
  · exact hheard.next
  · exact (hheard.before (hact _ _)).settled

/-! ### The commands of the part's own blocks -/

theorem execImageLoadComplete_acctStep (ws : List ImageWord) (s : State) : AcctStep W s (execImageLoadComplete ws s) :=
  acctStep_unless fun _ => acctStep_when fun _ => (loaded_acctSame s ws).settled

theorem execNoImage_acctStep (s : State) : AcctStep W s (execNoImage s) :=
  acctStep_unless fun _ => acctStep_when fun _ => (enterFault_acctSame s _ _ _).settled

theorem execCycleStart_acctStep (s : State) : AcctStep W s (execCycleStart s) := by
  have hbegun : AcctSame s s.tick.reachMap.emptyDownstream :=
    (tick_acctSame s).trans ((reachMap_acctSame _).trans (line_acctSame _ _ _ _))
  exact acctStep_unless fun _ => (AcctSame.ite (fun _ => hbegun.trans (buildMap_acctSame _ _)) fun _ => hbegun).settled

theorem execMessageFailure_acctStep (h : Nat) (s : State) : AcctStep W s (execMessageFailure h s) := by
  refine acctStep_unless fun _ => ?_
  split
  · exact acctStep_stays s
  · exact AcctCalm.settledIf fun _ => messageFailed_acctCalm s h _

theorem execReleaseDropped_acctStep (h : Nat) (s : State) : AcctStep W s (execReleaseDropped h s) := by
  refine acctStep_unless fun _ => ?_
  split
  · exact acctStep_stays s
  · exact AcctSame.settledIf fun _ => setEntry_acctSame s h _ (by rfl)

theorem execDataRangeObservation_acctStep (r : WindowRef) (o : BurstObs) (s : State) :
    AcctStep W s (execDataRangeObservation r o s) := by
  refine acctStep_unless fun _ => acctStep_when fun _ => ?_
  split
  · exact acctStep_stays s
  · have hopened : AcctSame s (s.opened r) := sameAccts_of_roster rfl rfl
    exact acctStep_when fun _ => (hopened.beforeLaw (observeBurst_acctLaw _ _ _ _)).settled

theorem execDiscoverObservation_acctStep (r : WindowRef) (o : DiscoverObs) (s : State) :
    AcctStep W s (execDiscoverObservation r o s) := by
  refine acctStep_unless fun _ => acctStep_when fun _ => ?_
  split
  · exact acctStep_stays s
  · exact AcctCalm.settledIf fun _ => (clearOutstanding_acctSame s r).before (discovered_acctCalm _ o)

theorem execQuietObservation_acctStep (r : WindowRef) (light : Bool) (s : State) :
    AcctStep W s (execQuietObservation r light s) := by
  refine acctStep_unless fun _ => acctStep_when fun _ => ?_
  split
  · exact acctStep_stays s
  · exact ((clearOutstanding_acctSame s r).trans (quietTaken_acctSame _ light)).settled

/-- The gate is open at a served home alone (R153). -/
theorem served_of_gateOpen {s : State} {h label : Nat} (hopen : s.gateOpen h label = true) :
    (s.entry h).state.served = true := by
  unfold State.gateOpen at hopen
  rw [Bool.and_eq_true, Bool.and_eq_true] at hopen
  exact hopen.1.1

theorem execDownstreamPacket_acctStep (h label bytes : Nat) (s : State) :
    AcctStep W s (execDownstreamPacket h label bytes s) := by
  have hdiscarded := line_acctSame s s.slp { s.ports with opticalOut := none } s.rq
  refine acctStep_unless fun _ => ?_
  split
  · exact hdiscarded.next
  next a ha =>
    refine .ite (fun hopen => AcctLaw.settled ?_) fun _ => hdiscarded.next
    exact (changeAcct_counted s h a _ ha (countDown_keeps a _ _ _)).law (served_of_gateOpen hopen)
      (line_acctSame _ _ _ _).calm

theorem execClaimHoldExpiry_acctStep (h : Nat) (s : State) : AcctStep W s (execClaimHoldExpiry h s) := by
  refine acctStep_unless fun _ => ?_
  split
  · exact acctStep_when fun _ => (claimHeldOut_acctCalm s h _).settled
  · exact acctStep_stays s
  · exact acctStep_stays s

theorem execLostTimerExpiry_acctStep (h : Nat) (s : State) : AcctStep W s (execLostTimerExpiry h s) :=
  acctStep_unless fun _ => AcctCalm.settledIf fun _ => release_acctCalm s h _ _

theorem execHandoverTimerExpiry_acctStep (h : Nat) (s : State) : AcctStep W s (execHandoverTimerExpiry h s) := by
  refine acctStep_unless fun _ => ?_
  split
  · exact acctStep_stays s
  · exact AcctCalm.settledIf fun _ => handoverExpired_acctCalm s h _

theorem execInboundTimerExpiry_acctStep (h : Nat) (s : State) : AcctStep W s (execInboundTimerExpiry h s) := by
  refine acctStep_unless fun _ => ?_
  split
  · exact acctStep_stays s
  · exact AcctCalm.settledIf fun _ => (freeEntry_acctCalm s h).same (withdraw_acctSame _ _)

theorem execGuardExpiry_acctStep (s : State) : AcctStep W s (execGuardExpiry s) :=
  acctStep_unless fun _ => AcctSame.settledIf fun _ =>
    (clearFlag_acctSame s).trans ((endHunt_acctSame _ _).trans (takeDeferred_acctSame _))

theorem execJoinTimerExpiry_acctStep (s : State) : AcctStep W s (execJoinTimerExpiry s) := by
  refine acctStep_unless fun _ => ?_
  split
  · exact AcctSame.settledIf fun _ => joinsOver_acctSame s _ _
  all_goals exact acctStep_stays s

theorem execReadyTimerExpiry_acctStep (s : State) : AcctStep W s (execReadyTimerExpiry s) := by
  refine acctStep_unless fun _ => ?_
  split
  · exact AcctSame.settledIf fun _ => AcctSame.ite (fun _ => setOwner_acctSame s _) fun _ => queueClose_acctSame s _ _ _
  all_goals exact acctStep_stays s

theorem execListeningTimerExpiry_acctStep (s : State) : AcctStep W s (execListeningTimerExpiry s) :=
  acctStep_unless fun _ => acctStep_when fun _ => (startup_acctSame s _).next

theorem execRepeatTimerExpiry_acctStep (a : AlarmSource) (s : State) : AcctStep W s (execRepeatTimerExpiry a s) := by
  refine acctStep_unless fun _ => ?_
  split
  · exact acctStep_stays s
  · exact AcctSame.settledIf fun _ => repeated_acctSame s _

/-! ### The commands of the line -/

theorem execCarriedIgnoredFrame_acctStep (cls : BitVec 3) (sender : Station) (kind : BitVec 4) (s : State) :
    AcctStep W s (execCarriedIgnoredFrame cls sender kind s) := acctStep_unless fun _ => (lineHeard_acctSame s).next

theorem execFrameCheckFailed_acctStep (f : RawFrame) (s : State) : AcctStep W s (execFrameCheckFailed f s) :=
  acctStep_unless fun _ => acctStep_unless fun _ => (line_acctSame s s.slp _ s.rq).next

theorem execLineIdleContend_acctStep (rival : Option (BitVec 11)) (s : State) :
    AcctStep W s (execLineIdleContend rival s) := by
  refine acctStep_unless fun _ => acctStep_when fun _ => ?_
  split
  · exact acctStep_stays s
  · exact acctStep_when fun _ => (line_acctSame s _ s.ports s.rq).next

theorem execOwnFrameVoided_acctStep (droveVoid : Bool) (s : State) : AcctStep W s (execOwnFrameVoided droveVoid s) := by
  refine acctStep_unless fun _ => ?_
  split
  · exact acctStep_stays s
  · have hvoided := line_acctSame s
      { s.slp with transmitting := none, voidCount := satAdd Config.voidLimit s.slp.voidCount 1 }
      { s.ports with voidDriven := droveVoid } s.rq
    exact ((AcctCalm.ite (fun _ => hvoided.before (removeWithdrawn_acctCalm _)) fun _ => hvoided.calm).trans
      (detachIfDue_acctCalm _)).settled

theorem execDetachTimerExpiry_acctStep (s : State) : AcctStep W s (execDetachTimerExpiry s) :=
  acctStep_unless fun _ => acctStep_when fun _ => (line_acctSame s _ s.ports s.rq).settled

theorem execResultCarried_acctStep (straps : Station) (s : State) : AcctStep W s (execResultCarried straps s) := by
  refine acctStep_unless fun _ => ?_
  split
  next rest _ _ =>
    have hcarried := (line_acctSame s s.slp s.ports { s.rq with results := rest }).trans (ownCarried_acctSame _)
    exact (AcctCalm.ite (fun _ => hcarried.before (restarted_acctCalm _ straps)) fun _ => hcarried.calm).settled
  · exact acctStep_stays s

theorem execReportCarried_acctStep (s : State) : AcctStep W s (execReportCarried s) := by
  refine acctStep_unless fun _ => ?_
  split
  · exact ((reportGone_acctSame s _).trans (ownCarried_acctSame _)).settled
  · exact acctStep_stays s

theorem execUsageFirstPartCarried_acctStep (s : State) : AcctStep W s (execUsageFirstPartCarried s) := by
  refine acctStep_unless fun _ => ?_
  split
  · split
    · exact ((line_acctSame s _ s.ports s.rq).trans (ownCarried_acctSame _)).settled
    · exact acctStep_stays s
  · exact acctStep_stays s

theorem execUsageRecordCarried_acctStep (s : State) : AcctStep W s (execUsageRecordCarried s) := by
  refine acctStep_unless fun _ => ?_
  split
  · split
    · exact ((recordCarried_acctCalm s _).same (ownCarried_acctSame _)).settled
    · exact acctStep_stays s
  · exact acctStep_stays s

theorem execDrainComplete_acctStep (straps : Station) (s : State) : AcctStep W s (execDrainComplete straps s) :=
  acctStep_unless fun _ => acctStep_when fun _ => (powerOn_acctCalm s straps).law.next

theorem execDrainTimerExpiry_acctStep (straps : Station) (s : State) : AcctStep W s (execDrainTimerExpiry straps s) :=
  acctStep_unless fun _ => acctStep_when fun _ => (powerOn_acctCalm s straps).law.next

/-! ### The carried notices -/

/-- A notice whose carriage acts by its source: as the own one, or as another's. -/
theorem hearNotice_acctStep_bySource (src : Source) (n : Notice) (own : State → State) (other : Station → State → State)
    (s : State) (hown : ∀ t, AcctLaw W t (own t)) (hother : ∀ x t, AcctLaw W t (other x t)) :
    AcctStep W s (hearNotice src n (fun t => match src with
      | .own => own t
      | .other x => other x t) s) := by
  refine hearNotice_acctStep src n _ s fun t => ?_
  cases src with
  | own => exact hown t
  | other x => exact hother x t

theorem execClaim_acctStep (src : Source) (serial : Serial) (channel : Nat) (s : State) :
    AcctStep W s (execClaim src serial channel s) :=
  hearNotice_acctStep_bySource src _ _ _ s (fun t => (claimCarried_acctSame t serial).law) fun _ t =>
    (claimHeard_acctCalm t serial channel).law

theorem execHeld_acctStep (src : Source) (serial : Serial) (channel : Nat) (s : State) :
    AcctStep W s (execHeld src serial channel s) :=
  hearNotice_acctStep_bySource src _ _ _ s (fun t => .refl t) fun _ t => (heldHeard_acctCalm t serial channel).law

theorem execOffer_acctStep (src : Source) (serial : Serial) (source target assured peak weight eqDelay : Nat)
    (s : State) : AcctStep W s (execOffer src serial source target assured peak weight eqDelay s) :=
  hearNotice_acctStep_bySource src _ _ _ s (fun t => .refl t) fun _ t =>
    (offerHeard_acctCalm t serial source target _ eqDelay).law

theorem execAccept_acctStep (src : Source) (serial : Serial) (channel newHandle : Nat) (s : State) :
    AcctStep W s (execAccept src serial channel newHandle s) :=
  hearNotice_acctStep_bySource src _ _ _ s (fun t => .refl t) fun _ t =>
    (acceptHeard_acctCalm t serial channel newHandle).law

theorem execRefuse_acctStep (src : Source) (serial : Serial) (channel : Nat) (reason : RefuseReason) (s : State) :
    AcctStep W s (execRefuse src serial channel reason s) :=
  hearNotice_acctStep_bySource src _ _ _ s (fun t => .refl t) fun _ t => (refuseHeard_acctCalm t serial channel reason).law

/-- The values an ACCOUNT notice carries are in the ranges of its fields (R133). -/
theorem installed_good {src : Source} {serial : Serial} {source : Nat} {mode : Mode}
    {credit base lowWater residueUp residueDown period : Nat}
    (hwf : (Instr.account src serial source mode credit base lowWater residueUp residueDown period).wf = true) :
    (Account.install mode credit base lowWater residueUp residueDown period).Good := by
  simp only [Instr.wf, Bool.and_eq_true, decide_eq_true_eq, millisOk] at hwf
  obtain ⟨⟨⟨⟨⟨⟨-, hcredit⟩, hbase⟩, hlow⟩, hup⟩, hdown⟩, -⟩ := hwf
  exact install_good _ _ _ _ _ _ _ (Nat.le_of_lt_succ hcredit) (Nat.le_of_lt_succ hbase) (Nat.le_of_lt_succ hlow) hup hdown

theorem execAccount_acctStep (src : Source) (serial : Serial) (source : Nat) (mode : Mode)
    (credit base lowWater residueUp residueDown period : Nat) (s : State)
    (hw : W → (Instr.account src serial source mode credit base lowWater residueUp residueDown period).wf = true) :
    AcctStep W s (execAccount src serial source mode credit base lowWater residueUp residueDown period s) :=
  hearNotice_acctStep_bySource src _ _ _ s (fun t => .refl t) fun _ t =>
    (accountHeard_acctCalm t serial source _ (fun w => installed_good (hw w)) rfl).law

theorem execTaken_acctStep (src : Source) (serial : Serial) (channel : Nat) (s : State) :
    AcctStep W s (execTaken src serial channel s) :=
  hearNotice_acctStep_bySource src _ _ _ s (fun t => takenCarried_acctLaw t serial) fun _ t =>
    (takenHeard_acctCalm t serial channel).law

theorem execReclaim_acctStep (src : Source) (serial : Serial) (source : Nat) (s : State) :
    AcctStep W s (execReclaim src serial source s) :=
  hearNotice_acctStep_bySource src _ _ _ s (fun t => reclaimCarried_acctLaw t serial) fun _ t =>
    (reclaimHeard_acctCalm t serial source).law

theorem execPresent_acctStep (src : Source) (channel : Nat) (incumbent : Bool) (s : State) :
    AcctStep W s (execPresent src channel incumbent s) :=
  hearNotice_acctStep_bySource src _ _ _ s (fun t => (presentCarried_acctSame t incumbent).law) fun x t =>
    .ite (fun _ => (presentHeard_acctSame t x incumbent).law) fun _ => .refl t

theorem execHuntOpen_acctStep (src : Source) (id : HuntId) (s : State) : AcctStep W s (execHuntOpen src id s) := by
  refine hearNotice_acctStep src _ _ s fun t => .ite (fun _ => .refl t) fun _ => ?_
  cases src with
  | own => exact (ownOpen_acctSame t id).law
  | other x => exact (otherOpen_acctSame t id).law

theorem execHuntStep_acctStep (src : Source) (id : HuntId) (step : Nat) (selector : Selector) (s : State) :
    AcctStep W s (execHuntStep src id step selector s) := by
  refine hearNotice_acctStep src _ _ s fun t => ?_
  split
  · exact ((setFlag_acctSame t id).trans (yieldOpening_acctSame _)).law
  · exact .ite (fun _ => (stepHeard_acctSame t src step selector).law) fun _ => .refl t

theorem execHuntJoin_acctStep (src : Source) (id : HuntId) (channel count : Nat) (s : State) :
    AcctStep W s (execHuntJoin src id channel count s) :=
  hearNotice_acctStep src _ _ s fun t => (joinHeard_acctSame t id channel count).law

theorem execHuntReady_acctStep (src : Source) (id : HuntId) (channel step : Nat) (named : Option HomeRef) (s : State) :
    AcctStep W s (execHuntReady src id channel step named s) :=
  hearNotice_acctStep src _ _ s fun t => (readyHeard_acctSame t id channel step named).law

theorem execHuntClose_acctStep (src : Source) (id : HuntId) (outcome : HuntOutcome) (s : State) :
    AcctStep W s (execHuntClose src id outcome s) :=
  hearNotice_acctStep src _ _ s fun t => (closeHeard_acctSame t id outcome).law

/-! ### The requests -/

theorem execSetProfile_acctStep (hd : RequestHeader) (d : List Byte) (s : State) :
    AcctStep W s (execSetProfile hd d s) :=
  request_acctStep _ hd _ _ s fun a _ t => onHome_law t a.1 _ fun h => setProfileAt_law t a.2 h

theorem execSetAccount_acctStep (hd : RequestHeader) (d : List Byte) (s : State) :
    AcctStep W s (execSetAccount hd d s) :=
  request_acctStep _ hd _ _ s fun a ha t => onHome_law t a.serial _ fun h => setAccountAt_law t a h (readAccount_sendable ha)

theorem execRefill_acctStep (hd : RequestHeader) (d : List Byte) (s : State) : AcctStep W s (execRefill hd d s) :=
  request_acctStep _ hd _ _ s fun a _ t => onHome_law t a.1 _ fun h => refillAt_law t a.2 h

theorem execMove_acctStep (hd : RequestHeader) (d : List Byte) (s : State) : AcctStep W s (execMove hd d s) :=
  request_acctStep _ hd _ _ s fun a _ t => .ite (fun _ => refusedWith_law t _) fun _ => .ite (fun _ => refusedWith_law t _)
    fun _ => onHome_law t a.1 _ fun h => moveAt_law t a.1 a.2 h

theorem execRemove_acctStep (hd : RequestHeader) (d : List Byte) (s : State) : AcctStep W s (execRemove hd d s) :=
  request_acctStep _ hd _ _ s fun serial _ t => onHome_law t serial _ fun h =>
    .ite (fun _ => (release_acctCalm t h .removed true).law.done) fun _ => refusedWith_law t _

theorem execHold_acctStep (hd : RequestHeader) (d : List Byte) (s : State) : AcctStep W s (execHold hd d s) :=
  request_acctStep _ hd _ _ s fun a _ t => holdRequest_law t a.1 a.2.1 a.2.2

theorem execClearHold_acctStep (hd : RequestHeader) (d : List Byte) (s : State) : AcctStep W s (execClearHold hd d s) :=
  request_acctStep _ hd _ _ s fun a _ t => holdRequest_law t a.1 a.2.1 a.2.2

theorem execQueryHome_acctStep (hd : RequestHeader) (d : List Byte) (s : State) : AcctStep W s (execQueryHome hd d s) :=
  request_acctStep _ hd _ _ s fun a _ t => .ite (fun _ => onHome_law t a.1 _ fun _ => AcctLaw.refl t) fun _ =>
    .ite (fun _ => refusedWith_law t _) fun _ => onHome_law t a.1 _ fun _ => refusedWith_law t _

theorem execListHomes_acctStep (hd : RequestHeader) (d : List Byte) (s : State) : AcctStep W s (execListHomes hd d s) :=
  request_acctStep _ hd _ _ s fun _ _ t => .ite (fun _ => refusedWith_law t _) fun _ => AcctLaw.refl t

theorem execSetTariff_acctStep (hd : RequestHeader) (d : List Byte) (guardPin : Bool) (s : State) :
    AcctStep W s (execSetTariff hd d guardPin s) :=
  request_acctStep _ hd _ _ s fun _ _ t => .ite (fun _ => refusedWith_law t _) fun _ => .ite (fun _ => refusedWith_law t _)
    fun _ => .ite (fun _ => refusedWith_law t _) fun _ => (meter_acctSame t _ t.ee rfl).law.done

theorem execFixTariff_acctStep (hd : RequestHeader) (d : List Byte) (guardPin : Bool) (s : State) :
    AcctStep W s (execFixTariff hd d guardPin s) :=
  request_acctStep _ hd _ _ s fun _ _ t => .ite (fun _ => refusedWith_law t _) fun _ => .ite (fun _ => refusedWith_law t _)
    fun _ => (meter_acctSame t _ t.ee rfl).law.done

theorem execSetDiscovery_acctStep (hd : RequestHeader) (d : List Byte) (s : State) :
    AcctStep W s (execSetDiscovery hd d s) := request_acctStep _ hd _ _ s fun b _ t => discovery_law t (readFlag b)

theorem execStartHunt_acctStep (hd : RequestHeader) (d : List Byte) (s : State) : AcctStep W s (execStartHunt hd d s) :=
  request_acctStep _ hd _ _ s fun _ _ t => .ite (fun _ => refusedWith_law t _) fun _ => .ite (fun _ => refusedWith_law t _)
    fun _ => .ite (fun _ => (AcctLaw.refl t).done) fun _ => (openHunt_acctSame t).law.done

theorem execRestart_acctStep (hd : RequestHeader) (d : List Byte) (s : State) : AcctStep W s (execRestart hd d s) :=
  request_acctStep _ hd _ _ s fun _ _ t => .ite (fun _ => refusedWith_law t _) fun _ => (AcctLaw.refl t).done

theorem execBand_acctStep (hd : RequestHeader) (d : List Byte) (s : State) : AcctStep W s (execBand hd d s) :=
  broadcast_acctStep hd _ _ s fun _ t => .ite (fun _ => .refl t) fun _ => (meter_acctSame t _ t.ee rfl).calm

theorem execClosePeriod_acctStep (hd : RequestHeader) (d : List Byte) (s : State) :
    AcctStep W s (execClosePeriod hd d s) :=
  broadcast_acctStep hd _ _ s fun p t => .ite (fun _ => .refl t) fun _ => closePeriods_acctCalm t p

theorem execSetFreeLabels_acctStep (hd : RequestHeader) (d : List Byte) (s : State) :
    AcctStep W s (execSetFreeLabels hd d s) :=
  broadcast_acctStep hd _ _ s fun _ t => (meter_acctSame t _ t.ee rfl).calm

/-! ### Every command -/

theorem exec_acctStep (i : Instr) (s : State) (hw : W → i.wf = true) : AcctStep W s (exec i s) := by
  cases i with
  | powerOnReset straps => exact (powerOn_acctCalm s straps).law.next
  | resetAsserted => exact AcctSame.next (sameAccts_of_roster rfl rfl)
  | imageLoadComplete words => exact execImageLoadComplete_acctStep words s
  | noImage => exact execNoImage_acctStep s
  | cycleStart => exact execCycleStart_acctStep s
  | messageFailure handle => exact execMessageFailure_acctStep handle s
  | releaseDropped handle => exact execReleaseDropped_acctStep handle s
  | dataRangeObservation window obs => exact execDataRangeObservation_acctStep window obs s
  | discoverObservation window obs => exact execDiscoverObservation_acctStep window obs s
  | quietObservation window light => exact execQuietObservation_acctStep window light s
  | downstreamPacket handle label bytes => exact execDownstreamPacket_acctStep handle label bytes s
  | claim src serial channel => exact execClaim_acctStep src serial channel s
  | held src serial channel => exact execHeld_acctStep src serial channel s
  | offer src serial source target assured peak weight eqDelay =>
    exact execOffer_acctStep src serial source target assured peak weight eqDelay s
  | accept src serial channel newHandle => exact execAccept_acctStep src serial channel newHandle s
  | refuse src serial channel reason => exact execRefuse_acctStep src serial channel reason s
  | account src serial source mode credit base lowWater residueUp residueDown period =>
    exact execAccount_acctStep src serial source mode credit base lowWater residueUp residueDown period s hw
  | taken src serial channel => exact execTaken_acctStep src serial channel s
  | reclaim src serial source => exact execReclaim_acctStep src serial source s
  | huntOpen src id => exact execHuntOpen_acctStep src id s
  | huntJoin src id channel count => exact execHuntJoin_acctStep src id channel count s
  | huntStep src id step selector => exact execHuntStep_acctStep src id step selector s
  | huntReady src id channel step named => exact execHuntReady_acctStep src id channel step named s
  | huntClose src id outcome => exact execHuntClose_acctStep src id outcome s
  | present src channel incumbent => exact execPresent_acctStep src channel incumbent s
  | carriedIgnoredFrame cls sender kind => exact execCarriedIgnoredFrame_acctStep cls sender kind s
  | frameCheckFailed frame => exact execFrameCheckFailed_acctStep frame s
  | lineIdleContend rival => exact execLineIdleContend_acctStep rival s
  | ownFrameVoided droveVoid => exact execOwnFrameVoided_acctStep droveVoid s
  | detachTimerExpiry => exact execDetachTimerExpiry_acctStep s
  | resultCarried straps => exact execResultCarried_acctStep straps s
  | reportCarried => exact execReportCarried_acctStep s
  | usageFirstPartCarried => exact execUsageFirstPartCarried_acctStep s
  | usageRecordCarried => exact execUsageRecordCarried_acctStep s
  | drainComplete straps => exact execDrainComplete_acctStep straps s
  | drainTimerExpiry straps => exact execDrainTimerExpiry_acctStep straps s
  | claimHoldExpiry handle => exact execClaimHoldExpiry_acctStep handle s
  | lostTimerExpiry handle => exact execLostTimerExpiry_acctStep handle s
  | handoverTimerExpiry handle => exact execHandoverTimerExpiry_acctStep handle s
  | inboundTimerExpiry handle => exact execInboundTimerExpiry_acctStep handle s
  | guardExpiry => exact execGuardExpiry_acctStep s
  | joinTimerExpiry => exact execJoinTimerExpiry_acctStep s
  | readyTimerExpiry => exact execReadyTimerExpiry_acctStep s
  | listeningTimerExpiry => exact execListeningTimerExpiry_acctStep s
  | repeatTimerExpiry source => exact execRepeatTimerExpiry_acctStep source s
  | setProfile hd data => exact execSetProfile_acctStep hd data s
  | setAccount hd data => exact execSetAccount_acctStep hd data s
  | refill hd data => exact execRefill_acctStep hd data s
  | move hd data => exact execMove_acctStep hd data s
  | remove hd data => exact execRemove_acctStep hd data s
  | hold hd data => exact execHold_acctStep hd data s
  | clearHold hd data => exact execClearHold_acctStep hd data s
  | queryHome hd data => exact execQueryHome_acctStep hd data s
  | listHomes hd data => exact execListHomes_acctStep hd data s
  | setTariff hd data guardPin => exact execSetTariff_acctStep hd data guardPin s
  | fixTariff hd data guardPin => exact execFixTariff_acctStep hd data guardPin s
  | setDiscovery hd data => exact execSetDiscovery_acctStep hd data s
  | startHunt hd data => exact execStartHunt_acctStep hd data s
  | restart hd data => exact execRestart_acctStep hd data s
  | band hd data => exact execBand_acctStep hd data s
  | closePeriod hd data => exact execClosePeriod_acctStep hd data s
  | setFreeLabels hd data => exact execSetFreeLabels_acctStep hd data s

/-- A step takes the command at the front of the queue and executes it, or idles. -/
theorem step_acctLaw (s t : State) (hstep : step s = .next t) (hw : W → QueueWf s) : AcctLaw W s t := by
  have hqueue : AcctSame s s.dequeue := sameAccts_of_roster rfl rfl
  unfold step at hstep
  split at hstep
  next => cases hstep; exact .refl s
  next c _ hpending =>
    have hfront : W → c.wf = true := fun w => hw w c (by rw [hpending]; exact List.mem_cons_self)
    exact hqueue.beforeLaw (exec_acctStep c s.dequeue hfront t hstep)

end Commands

/-- Settles O8: every home moves through a step as one command may move it, which keeps its account's law, leaves a HANDED
account as it was, and counts at served homes alone. -/
theorem accountsKept : Obligations.AccountsKept := by
  unfold Obligations.AccountsKept
  constructor
  · intro s t hqueue haccounts hstep
    rw [accountsInv_iff] at haccounts ⊢
    exact fun h => (step_acctLaw (W := True) s t hstep (fun _ => hqueue) h).lawful trivial (haccounts h)
  · intro s t h a b hstep ha hb
    have hlaw := step_acctLaw (W := False) s t hstep False.elim h
    refine ⟨fun hs hs' => ?_, fun hs => ?_⟩
    · obtain ⟨a', ha', heq⟩ := hlaw.frozen hs hs' b hb
      rw [ha] at ha'
      cases ha'
      exact heq
    · rcases hlaw.counters hs b hb with hzero | ⟨a', ha', heq⟩
      · exact .inr hzero
      · rw [ha] at ha'
        cases ha'
        exact .inl heq

end Sys2Proof.Machine
end

section
/-! PROOFS. MOVE and the answers it may be given, and obligation O54. -/

namespace Sys2Proof.Machine

/-! ### MOVE (R126) -/

theorem holds_any_eq_false_iff (x : Holds) : x.any = false ↔ x = Holds.clear := by
  obtain ⟨hunt, rogue, drift, manager⟩ := x
  simp only [Holds.any, Holds.clear, Holds.mk.injEq, Bool.or_eq_false_iff, and_assoc]

theorem holds_any_iff (x : Holds) : x.any = true ↔ x ≠ Holds.clear := by
  rw [Ne, ← holds_any_eq_false_iff, Bool.not_eq_false]

theorem role_taken_iff (r : Role) : r.taken = true ↔ r ≠ .noRole := by cases r <;> simp [Role.taken]

section Answers
variable (s : State) (serial : Serial) (target h : Nat)

theorem moveAt_notHere (hc : target = s.channel) : s.moveAt serial target h = s.refusedWith .notHere := if_pos hc

theorem moveAt_huntActive (hc : target ≠ s.channel) (hrole : s.hu.role ≠ .noRole) :
    s.moveAt serial target h = s.refusedWith .huntActive :=
  (if_neg hc).trans (if_pos ((role_taken_iff _).2 hrole))

theorem moveAt_free (hc : target ≠ s.channel) (hrole : s.hu.role = .noRole) : s.moveAt serial target h =
    if (s.entry h).state ≠ .active ∨ (s.entry h).holds.any = true then s.refusedWith .busy
    else if s.slp.lineState = .detached then s.refusedWith .busy
    else (s.startMove h serial target).done :=
  (if_neg hc).trans (if_neg fun htaken => (role_taken_iff _).1 htaken hrole)

theorem moveAt_busy (hc : target ≠ s.channel) (hrole : s.hu.role = .noRole)
    (hb : (s.entry h).state ≠ .active ∨ (s.entry h).holds ≠ Holds.clear ∨ s.slp.lineState = .detached) :
    s.moveAt serial target h = s.refusedWith .busy := by
  rw [moveAt_free s serial target h hc hrole]
  rcases hb with hs | hh | hl
  · exact if_pos (.inl hs)
  · exact if_pos (.inr ((holds_any_iff _).2 hh))
  · rw [if_pos hl, ite_self]

theorem moveAt_taken (hc : target ≠ s.channel) (hrole : s.hu.role = .noRole) (hs : (s.entry h).state = .active)
    (hh : (s.entry h).holds = Holds.clear) (hl : s.slp.lineState = .attached) :
    s.moveAt serial target h = (s.startMove h serial target).done := by
  have hheld : ¬((s.entry h).state ≠ .active ∨ (s.entry h).holds.any = true) :=
    fun hno => hno.elim (fun ha => ha hs) fun ha => (holds_any_iff _).1 ha hh
  rw [moveAt_free s serial target h hc hrole, if_neg hheld, if_neg (by rw [hl]; decide)]

/-- The answer to MOVE. -/
def State.moveAnswer (s : State) (serial : Serial) (target : Nat) : Answer :=
  if s.draining then s.refusedWith .busy
  else if 3 < target then s.refusedWith .range
  else s.onHome serial (s.moveAt serial target)

theorem execMove_eq (hd : RequestHeader) (d : List Byte) (s : State) :
    execMove hd d s = request .move hd (readSerialByte d) (fun a t => t.moveAnswer a.1 a.2) s := rfl

theorem moveAnswer_range (hd : s.draining = false) (hr : 3 < target) :
    s.lineHeard.moveAnswer serial target = s.lineHeard.refusedWith .range :=
  (if_neg (ne_true_of_eq_false hd)).trans (if_pos hr)

theorem moveAnswer_home (hd : s.draining = false) (hr : target ≤ 3) :
    s.lineHeard.moveAnswer serial target = s.lineHeard.onHome serial (s.lineHeard.moveAt serial target) :=
  (if_neg (ne_true_of_eq_false hd)).trans (if_neg (Nat.not_lt.2 hr))

end Answers

/-- Settles O54: MOVE answers by the first of its answers that applies, and begins the move where none does. -/
theorem moveTaken : Obligations.MoveTaken := by
  unfold Obligations.MoveTaken
  intro s hd serial target htakes htarget
  refine ⟨_, (execMove_eq hd _ s).trans (request_takes _ hd _ _ s htakes _ (readSerialByte_write serial target htarget)),
    fun hdrain => ?_, fun hdrain => ⟨fun hr => ?_, fun hr hf => ?_, fun h hr hf => ?_⟩⟩
  · exact offered_of_answer rfl (if_pos hdrain) rfl
  · exact offered_of_answer rfl (moveAnswer_range s serial target hdrain hr) rfl
  · exact offered_of_answer rfl ((moveAnswer_home s serial target hdrain hr).trans (onHome_none s serial _ hf)) rfl
  · have hat := (moveAnswer_home s serial target hdrain hr).trans (onHome_some s serial _ h hf)
    refine ⟨fun hc => ?_, fun hc hrole => ?_, fun hc hrole => ⟨fun hb => ?_, fun hs hh hl => ?_⟩⟩
    · exact offered_of_answer rfl (hat.trans (moveAt_notHere _ serial target h hc)) rfl
    · exact offered_of_answer rfl (hat.trans (moveAt_huntActive _ serial target h hc hrole)) rfl
    · exact offered_of_answer rfl (hat.trans (moveAt_busy _ serial target h hc hrole hb)) rfl
    · exact offered_of_answer rfl (hat.trans (moveAt_taken _ serial target h hc hrole hs hh hl)) rfl

end Sys2Proof.Machine
end

section
/-! PROOFS. ACCOUNT and OFFER at the new terminator: obligations O31 and O29. -/

namespace Sys2Proof.Machine

/-! ### ACCOUNT (R133) -/

theorem account_other (s : State) (st : Station) (serial : Serial) (f : Nat) (mode : Mode)
    (credit base low ru rd p : Nat) (hr : s.resetHeld = false) :
    ∃ t, exec (.account (.other st) serial f mode credit base low ru rd p) s = .next t ∧
      Offered (s.lineHeard.accountHeard serial f (Account.install mode credit base low ru rd p)) t := by
  refine ⟨_, ?_, settle_offered _⟩
  exact hearNotice_other st (.account serial f mode credit base low ru rd p)
    (fun t => t.accountHeard serial f (Account.install mode credit base low ru rd p)) s hr

/-- Without the burst in hand the entry waits (R133). -/
theorem tryTaking_burstless (s : State) (h : Nat) (c : Handover) (hc : (s.entry h).handover = some c)
    (hb : c.burstInHand = false) : s.tryTaking h = s := by
  simp only [State.tryTaking, hc]
  cases (s.entry h).serial with
  | none => rfl
  | some serial => exact if_neg fun x => absurd (hb.symm.trans x.1) (by decide)

/-- The account installed and in hand, before the taking is tried (R133). -/
def State.installedAt (s : State) (h : Nat) (a : Account) (c : Handover) : State :=
  (s.setAcct h (some a)).setEntry h { s.entry h with handover := some { c with accountInHand := true } }

section Installed
variable (s : State) (h : Nat) (a : Account) (c : Handover)

theorem installedAt_homeStep : HomeStep s (s.installedAt h a c) h :=
  (setAcct_homeStep s h _).trans (setEntry_homeStep _ h _)

theorem installedAt_entry (hh : 1 ≤ h ∧ h ≤ 64) :
    (s.installedAt h a c).entry h = { s.entry h with handover := some { c with accountInHand := true } } :=
  entry_setEntry_self _ h _ hh

theorem installedAt_acct (hh : 1 ≤ h ∧ h ≤ 64) : (s.installedAt h a c).acct h = some a := by
  have hset : (s.installedAt h a c).acct h = (s.setAcct h (some a)).acct h := rfl
  rw [hset, acct_setAcct, if_pos ⟨rfl, hh⟩]

/-- An ARRIVING entry of the channel without its account takes it. -/
theorem accountHeard_installs (serial : Serial) (f : Nat) (hf : s.find serial = some h)
    (hs : (s.entry h).state = .arriving) (hc : (s.entry h).handover = some c) (hd : c.direction = .inbound)
    (hp : c.peer = f) (ha : c.accountInHand = false) :
    s.accountHeard serial f a = (s.installedAt h a c).tryTaking h := by
  have hin : (s.entry h).inFrom f = true := (inFrom_eq_true hc).2 ⟨hd, hp⟩
  have hwaits : ((s.entry h).handover.any fun c => c.accountInHand = false) = true := by
    rw [hc, Option.any_some, ha]
    rfl
  unfold State.accountHeard State.installedAt
  rw [hf]
  refine (if_pos ⟨hs, hin, hwaits⟩).trans ?_
  rw [hc, Option.map_some]

/-- With the burst in hand the entry is TAKING and TAKEN is queued. -/
theorem installedAt_takes (serial : Serial) (hh : 1 ≤ h ∧ h ≤ 64) (hserial : (s.entry h).serial = some serial)
    (hb : c.burstInHand = true) :
    (s.installedAt h a c).tryTaking h = ((s.installedAt h a c).setEntry h { s.entry h with
      state := .taking, handover := some { c with accountInHand := true, timer := none } }).queueNotice
        (.taken serial s.channel) := by
  have hentry := installedAt_entry s h a c hh
  refine (tryTaking_takes _ h { c with accountInHand := true } serial (by rw [hentry]) (by rw [hentry]; exact hserial) hb
    rfl).trans ?_
  rw [hentry]
  rfl

theorem installedAt_waits (hh : 1 ≤ h ∧ h ≤ 64) (hb : c.burstInHand = false) :
    (s.installedAt h a c).tryTaking h = s.installedAt h a c :=
  tryTaking_burstless _ h { c with accountInHand := true } (by rw [installedAt_entry s h a c hh]) hb

theorem tried_taken (serial : Serial) (hh : 1 ≤ h ∧ h ≤ 64) (hserial : (s.entry h).serial = some serial)
    (hb : c.burstInHand = true) :
    ((s.installedAt h a c).tryTaking h).entry h =
        { s.entry h with state := .taking, handover := some { c with accountInHand := true, timer := none } } ∧
      ((s.installedAt h a c).tryTaking h).outgoing .transfer = s.outgoing .transfer ++ [.taken serial s.channel] := by
  rw [installedAt_takes s h a c serial hh hserial hb]
  exact ⟨entry_setEntry_self _ h _ hh, queueNotice_outgoing _ (.taken serial s.channel) .transfer⟩

theorem tried_waiting (hh : 1 ≤ h ∧ h ≤ 64) (hb : c.burstInHand = false) :
    ((s.installedAt h a c).tryTaking h).entry h = { s.entry h with handover := some { c with accountInHand := true } } ∧
      ((s.installedAt h a c).tryTaking h).outgoing .transfer = s.outgoing .transfer := by
  rw [installedAt_waits s h a c hh hb]
  exact ⟨installedAt_entry s h a c hh, rfl⟩

/-- Whether the home is taken or waits, its account is installed and nothing else is touched. -/
theorem tried_frame (serial : Serial) (hh : 1 ≤ h ∧ h ≤ 64) (hserial : (s.entry h).serial = some serial) :
    let t := (s.installedAt h a c).tryTaking h
    t.acct h = some a ∧ t.ua = s.ua ∧ t.hu = s.hu ∧ HomeStep s t h := by
  have hacct := installedAt_acct s h a c hh
  have hstep := installedAt_homeStep s h a c
  rcases Bool.eq_false_or_eq_true c.burstInHand with hb | hb
  · rw [installedAt_takes s h a c serial hh hserial hb]
    exact ⟨hacct, rfl, rfl, (hstep.trans (setEntry_homeStep _ h _)).trans (queueNotice_homeStep _ _ h)⟩
  · rw [installedAt_waits s h a c hh hb]
    exact ⟨hacct, rfl, rfl, hstep⟩

end Installed

/-- Settles O31: the account is installed with its values, and the burst in hand decides whether the home is taken. -/
theorem accountInstalled : Obligations.AccountInstalled := by
  unfold Obligations.AccountInstalled
  intro s st serial f h mode credit base low ru rd p ctx hr hf hs hc hd hp ha
  obtain ⟨-, hserial, hh⟩ := find_sound s serial h hf
  obtain ⟨t, hexec, hoff⟩ := account_other s st serial f mode credit base low ru rd p hr
  rw [accountHeard_installs s.lineHeard h _ ctx serial f hf hs hc hd hp ha] at hoff
  obtain ⟨hacct, hua, hhu, hstep⟩ :=
    tried_frame s.lineHeard h (Account.install mode credit base low ru rd p) ctx serial hh hserial
  have hframe : HomeStep s t h := hstep.trans (hoff.homeStep h)
  refine ⟨t, Account.install mode credit base low ru rd p, hexec, (hoff.acct h).trans hacct, rfl, rfl, rfl, rfl, rfl, rfl,
    rfl, rfl, rfl, rfl, fun hb => ?_, fun hb => ?_, congrArg Allocator.booked (hoff.ua.trans hua), hoff.hu.trans hhu, hframe⟩
  · obtain ⟨hentry, hqueued⟩ := tried_taken s.lineHeard h _ ctx serial hh hserial hb
    exact ⟨(hoff.entry h).trans hentry, (hoff.notices _).trans hqueued⟩
  · obtain ⟨hentry, hqueued⟩ := tried_waiting s.lineHeard h _ ctx hh hb
    exact ⟨(hoff.entry h).trans hentry, (hoff.notices _).trans hqueued⟩

/-! ### OFFER (R128) -/

theorem offer_other (s : State) (st : Station) (serial : Serial) (f c a p w e : Nat) (hr : s.resetHeld = false) :
    ∃ t, exec (.offer (.other st) serial f c a p w e) s = .next t ∧
      Offered (s.lineHeard.offerHeard serial f c { assured := a, peak := p, weight := w } e) t := by
  refine ⟨_, ?_, settle_offered _⟩
  exact hearNotice_other st (.offer serial f c a p w e)
    (fun t => t.offerHeard serial f c { assured := a, peak := p, weight := w } e) s hr

section Offer
variable (s : State) (serial : Serial) (f c : Nat) (p : Profile) (e : Nat)

theorem offerHeard_ignored (hs : s.il.startup = .loading ∨ s.il.startup = .listening) :
    s.offerHeard serial f c p e = s := by
  unfold State.offerHeard
  rcases hs with hs | hs <;> rw [hs]

theorem offerHeard_detached (hl : s.slp.lineState = .detached) : s.offerHeard serial f c p e = s := by
  have hno (x : Prop) : ¬(x ∧ s.slp.lineState = .attached) := fun y => by
    rw [hl] at y
    exact absurd y.2 (by decide)
  unfold State.offerHeard
  split
  · rfl
  · rfl
  all_goals exact if_neg (hno _)

theorem offerHeard_elsewhere (hb : s.builds = true) (hc : c ≠ s.channel) : s.offerHeard serial f c p e = s := by
  have hno : ¬(c = s.channel ∧ s.slp.lineState = .attached) := fun y => hc y.1
  unfold State.builds State.operating State.draining at hb
  rw [Bool.or_eq_true, decide_eq_true_eq, decide_eq_true_eq] at hb
  unfold State.offerHeard
  rcases hb with hs | hs <;> rw [hs] <;> exact if_neg hno

theorem offerHeard_draining (hd : s.draining = true) (hc : c = s.channel) (hl : s.slp.lineState = .attached) :
    s.offerHeard serial f c p e = s.queueNotice (.refuse serial c .busy) := by
  have hs : s.il.startup = .draining := of_decide_eq_true hd
  unfold State.offerHeard
  rw [hs, hc]
  exact if_pos ⟨rfl, hl⟩

theorem offerHeard_operating (ho : s.operating = true) (hc : c = s.channel) (hl : s.slp.lineState = .attached) :
    s.offerHeard serial f c p e = s.considerOffer serial f p e := by
  have hs : s.il.startup = .operating := of_decide_eq_true ho
  unfold State.offerHeard
  rw [hs]
  exact if_pos ⟨hc, hl⟩

theorem considerOffer_duplicate (hf : s.find serial ≠ none) :
    s.considerOffer serial f p e = s.queueNotice (.refuse serial s.channel .duplicate) :=
  if_pos (Option.isSome_iff_ne_none.2 hf)

theorem considerOffer_full (hf : s.find serial = none) (hfree : s.freeHandle = none) :
    s.considerOffer serial f p e = s.queueNotice (.refuse serial s.channel .rosterFull) := by
  unfold State.considerOffer
  rw [hf, hfree]
  rfl

theorem considerOffer_overbook (h : Nat) (hf : s.find serial = none) (hfree : s.freeHandle = some h)
    (ha : s.ua.floor < s.ua.booked + term p.assured) :
    s.considerOffer serial f p e = s.queueNotice (.refuse serial s.channel .overbook) := by
  unfold State.considerOffer
  rw [hf, hfree]
  exact if_neg fun x => Nat.not_le.2 ha (of_decide_eq_true x)

theorem considerOffer_accepts (h : Nat) (hf : s.find serial = none) (hfree : s.freeHandle = some h)
    (ha : s.ua.booked + term p.assured ≤ s.ua.floor) :
    s.considerOffer serial f p e =
      (s.takeEntry h (arrivingEntry s.img serial f p e h)).queueNotice (.accept serial s.channel h) := by
  unfold State.considerOffer
  rw [hf, hfree]
  exact if_pos (decide_eq_true ha)

theorem takeEntry_homeStep (h : Nat) (x : Entry) : HomeStep s (s.takeEntry h x) h := setEntry_homeStep s h x

end Offer

/-- Settles O29: an OFFER is answered by the first of its answers that applies, and taken where none refuses it. -/
theorem offerAnswered : Obligations.OfferAnswered := by
  unfold Obligations.OfferAnswered
  intro s st serial f c a p w e hr
  obtain ⟨t, hexec, hoff⟩ := offer_other s st serial f c a p w e hr
  refine ⟨t, hexec, fun hs => ?_, fun hb hc => ?_, fun hd hc hl => ?_, fun ho hc hl => ?_⟩
  · have hignored : s.lineHeard.offerHeard serial f c { assured := a, peak := p, weight := w } e = s.lineHeard := by
      rcases hs with hs | hs | hl
      · exact offerHeard_ignored _ serial f c _ e (.inl hs)
      · exact offerHeard_ignored _ serial f c _ e (.inr hs)
      · exact offerHeard_detached _ serial f c _ e hl
    rwa [hignored] at hoff
  · rwa [offerHeard_elsewhere s.lineHeard serial f c _ e hb hc] at hoff
  · rwa [offerHeard_draining s.lineHeard serial f c _ e hd hc hl] at hoff
  · rw [offerHeard_operating s.lineHeard serial f c _ e ho hc hl] at hoff
    refine ⟨fun hf => ?_, fun hf hfree => ?_, fun h hf hfree => ⟨fun hover => ?_, fun hfits => ?_⟩⟩
    · rw [considerOffer_duplicate s.lineHeard serial f _ e hf] at hoff
      rwa [hc]
    · rw [considerOffer_full s.lineHeard serial f _ e hf hfree] at hoff
      rwa [hc]
    · rw [considerOffer_overbook s.lineHeard serial f { assured := a, peak := p, weight := w } e h hf hfree hover] at hoff
      rwa [hc]
    · rw [considerOffer_accepts s.lineHeard serial f { assured := a, peak := p, weight := w } e h hf hfree hfits] at hoff
      have hh := freeHandle_range s h hfree
      have hstep : HomeStep s _ h := (takeEntry_homeStep s.lineHeard h _).trans
        ((queueNotice_homeStep _ (.accept serial s.channel h) h).trans (hoff.homeStep h))
      refine ⟨?_, congrArg Allocator.booked hoff.ua, ?_, hoff.hu, hstep⟩
      · refine (hoff.entry h).trans ((takeEntry_entry s.lineHeard h h _ hh).trans ((if_pos rfl).trans ?_))
        rfl
      · rw [hc]
        exact (hoff.notices _).trans (queueNotice_outgoing _ (.accept serial s.channel h) .transfer)

end Sys2Proof.Machine
end

section
/-! PROOFS. The TUNE acknowledged and the home handed over, and obligation O21. -/

namespace Sys2Proof.Machine

/-! ### TUNE acknowledged (R32, R130) -/

/-- A carried message other than RELEASE is acknowledged by its sequence bit in a window of its first map (R32). -/
theorem acknowledges_firstMap (e : Entry) (map : CycleNo) (m : Message) (h : e.mailbox = some m) (hk : m.kind ≠ .release)
    (hc : 1 ≤ m.carried) (hf : m.firstMap = some map) : e.acknowledges map m.seqBit = some m.kind := by
  have hsince : cyclesSince map map < 2 ^ 31 := by simp [cyclesSince]
  simp only [Entry.acknowledges, h, hf]
  rw [if_pos ⟨hk, hc, hsince, trivial⟩]

/-- The ACCOUNT notice of a frozen account (R130). -/
def Account.frozenNotice (a : Account) (serial : Serial) (channel : Nat) : Notice :=
  .account serial channel a.mode a.credit a.base a.lowWater a.residueUp a.residueDown a.periodFirst

section HandOver
variable (s : State) (h : Nat)

/-- The home is HANDED, its credit conditions ended, and ACCOUNT is queued. -/
theorem handOver_hands (a : Account) (serial : Serial) (ha : s.acct h = some a) (hs : (s.entry h).serial = some serial) :
    s.handOver h = ((s.setEntry h { s.entry h with state := .handed }).endCredit h).queueNotice
      (a.frozenNotice serial s.channel) := by
  simp only [State.handOver, ha, hs]
  rfl

/-- What the handing over leaves: the entry is HANDED with its account as it stood, and ACCOUNT carries the values. -/
theorem handOver_left (a : Account) (serial : Serial) (ha : s.acct h = some a) (hs : (s.entry h).serial = some serial)
    (hh : 1 ≤ h ∧ h ≤ 64) :
    let t := s.handOver h
    t.entry h = { s.entry h with state := .handed } ∧ t.acct h = some a ∧ t.ua = s.ua ∧ t.hu = s.hu ∧
      t.outgoing .transfer = s.outgoing .transfer ++ [a.frozenNotice serial s.channel] ∧ HomeStep s t h := by
  rw [handOver_hands s h a serial ha hs]
  exact ⟨entry_setEntry_self s h _ hh, ha, rfl, rfl, queueNotice_outgoing _ (a.frozenNotice serial s.channel) .transfer,
    ((setEntry_homeStep s h _).trans ((endCredit_reportsOnly _ h).homeStep h)).trans (queueNotice_homeStep _ _ h)⟩

/-- The state as the burst that acknowledges the TUNE is heard: the offset noted, the report stored, the mailbox emptied. -/
def State.tunedAt (s : State) (h : Nat) (d : Int) (q : Nat) : State :=
  (s.noteOffset h d).setEntry h { s.entry h with reportQ := q, idle := 0, missed := 0, mailbox := none }

theorem tunedAt_entry (d : Int) (q : Nat) (hh : 1 ≤ h ∧ h ≤ 64) :
    (s.tunedAt h d q).entry h = { s.entry h with reportQ := q, idle := 0, missed := 0, mailbox := none } :=
  entry_setEntry_self _ h _ hh

theorem tunedAt_homeStep (d : Int) (q : Nat) : HomeStep s (s.tunedAt h d q) h :=
  (noteOffset_homeStep s h d).trans (setEntry_homeStep ..)

/-- A DATA burst without packets that acknowledges the TUNE hands the home over, and its timing is judged no more (R90). -/
theorem cleanBurst_handsOver (map : CycleNo) (d : Int) (ack : Bool) (q c k : Nat) (a : Account) (serial : Serial)
    (hst : (s.entry h).state = .tuning) (hk : (s.entry h).acknowledges map ack = some (.tune c k))
    (ha : s.acct h = some a) (hs : (s.entry h).serial = some serial) (ht : s.ports.trafficOut = [])
    (hh : 1 ≤ h ∧ h ≤ 64) : s.cleanBurst h map .data d ack q [] = (s.tunedAt h d q).handOver h := by
  have hentry := tunedAt_entry s h d q hh
  have hheard : (s.noteOffset h d).setEntry h (((s.entry h).heard q).takeAck s.img (some (.tune c k))) = s.tunedAt h d q := by
    rw [heard_served _ q (by rw [hst]; rfl)]
    rfl
  have hhanded : (((s.tunedAt h d q).handOver h).entry h).state = .handed := by
    obtain ⟨hleft, -⟩ := handOver_left (s.tunedAt h d q) h a serial ha (by rw [hentry]; exact hs) hh
    exact congrArg Entry.state hleft
  have htuning : ((s.tunedAt h d q).entry h).state = .tuning := by rw [hentry]; exact hst
  unfold State.cleanBurst
  dsimp only
  rw [hk, hheard, if_neg (show WindowKind.data ≠ .range by decide), takePackets_nil (s.tunedAt h d q) h ht]
  dsimp only
  rw [if_pos htuning]
  exact judge_unjudged _ _ _ _ _ _ (by rw [hhanded]; rfl)

end HandOver

/-- Settles O21: the burst is heard, the mailbox emptied, and the home handed over with its account as it stood. -/
theorem tuneAcknowledged : Obligations.TuneAcknowledged := by
  unfold Obligations.TuneAcknowledged
  intro s r w m d q c k serial a hreset hobs hkind hfind hserial hwindow hst hmail htune hcarried hfirst ha hspan
  have hfree : (s.entry r.handle).state ≠ .free := by rw [hst]; decide
  have hh := handle_of_state s r.handle hfree
  have hack : (s.entry r.handle).acknowledges r.map m.seqBit = some (.tune c k) := by
    rw [acknowledges_firstMap _ r.map m hmail (by rw [htune]; exact MsgKind.noConfusion) hcarried hfirst, htune]
  obtain ⟨t, hexec, hoff⟩ := exec_observe s r w (.clean d r.handle m.seqBit q []) hreset hobs (.inl hkind) hfind hspan
  rw [observeBurst_clean (s.opened r) r w d m.seqBit q [] hfree (hserial.trans hwindow.symm), hkind,
    cleanBurst_handsOver (s.opened r) r.handle r.map d m.seqBit q c k a serial hst hack ha hserial rfl hh] at hoff
  have hentry := tunedAt_entry (s.opened r) r.handle d q hh
  have hheld : (((s.opened r).tunedAt r.handle d q).entry r.handle).serial = some serial := by rw [hentry]; exact hserial
  obtain ⟨hleft, hacct, hua, hhu, hqueued, hstep⟩ :=
    handOver_left ((s.opened r).tunedAt r.handle d q) r.handle a serial ha hheld hh
  obtain ⟨hframe, hev⟩ := (((tunedAt_homeStep (s.opened r) r.handle d q).trans hstep).trans (hoff.homeStep r.handle)).framed
  refine ⟨t, hexec, (hoff.entry _).trans (hleft.trans ?_), (hoff.acct _).trans hacct,
    congrArg Allocator.booked (hoff.ua.trans hua), hoff.hu.trans hhu, hev, (hoff.notices _).trans hqueued, hframe⟩
  rw [hentry]
  rfl

end Sys2Proof.Machine
end
